-- ==== Sys2Proof/Syntax.lean ====
section
/-! DEFINITION. Sys2Proof/Syntax.lean: the commands of the KGN4800 block, one constructor per row of
spec/opcode_table.json, and the plain operand records they carry.

No row of the table gives bits, so a command is a term and never a word. A row is one of three things:
* a mailbox command (the first 94): its operand is the SLOT whose accepted frame it executes (0-3 the host slots of
  R451, 4 the Stavska slot of R510); the payload is read from that slot's bytes, where MBX_SERVE has checked it;
* a host access or bus transaction: its operands are what the host drives;
* an event of the device: its operands are the readings the rule judges. The command stands for the moment at
  which the rule's dwell has completed; thresholds and machine state are the model's (log entry 2).
Indices are Nat; Sys2Proof/WellFormed.lean says which are legal. -/
namespace Sys2Proof

/-- One segment of an I2C transaction between S or Sr and the next Sr or P (R455). -/
inductive I2cSeg where
  /-- the address byte with W, then the bytes the host sends. -/
  | write (addr7 : Nat) (bytes : List Nat)
  /-- the address byte with R, then `count` bytes clocked out of the device. -/
  | read (addr7 count : Nat)
deriving DecidableEq, Repr

/-- What the self-test of one phase measures (R77): zeros in mV, the peaks of the four test pulses on both legs in mA (eight
readings), whether the legs follow their edges, the largest partner-phase current in mA, the times in steps of 78.125 ps at which the
two comparator-test pulses ended, the TMON reading in mV and V_IN in mV. -/
structure SelftestMeas where
  zeroA : Nat
  zeroB : Nat
  peaks : List Int
  edgesOk : Bool
  partnerMa : Nat
  compSteps : List Nat
  tmonMv : Nat
  vinMv : Nat
deriving DecidableEq, Repr

/-- A crossing of the peak comparator (R69): the phase and its leg (B, or A), the leg's IMON reading in uV, and the time since the
edge that started the on-time. -/
structure PeakHit where
  phase : Nat
  legB : Bool
  imonUv : Nat
  sinceNs : Nat
deriving DecidableEq, Repr

/-- What wakes a device from SHIP by an input (R168), in mV. -/
structure WakeVolts where
  vinMv : Nat
  vstsMv : Nat
deriving DecidableEq, Repr

/-- The readings of the pre-bias check (R126): VBS with VBG open, the IMON zeros of the declared phases, and the four
output-side samples, all in mV. -/
structure PrebiasMeas where
  vbsMv : Nat
  zeros : List (Nat × Nat)
  samples : List Nat
deriving DecidableEq, Repr

/-- An aperture that the engine or the housekeeping round requests of the ADC array (R80): its place in the order of R80 (0 loop
voltage and Store current, 1 SYS fold monitor, 2 phase current, 3 VBS, 4 ripple signature, 5 housekeeping), the converter and phase
it belongs to, and its instant in ns from the start of the round. -/
structure ApReq where
  cls : Nat
  conv : Nat
  phase : Nat
  atNs : Nat
deriving DecidableEq, Repr

/-- One housekeeping round (R79, R359): rails in mV, the 17 taps in mV, the 94 sensors of R356 in units of R6
(-32768 open) but for the TMON lines 24 to 39, whose readings are in mV (R72), and the apertures that contended for the ADC array
since the last round (R80). -/
structure Round where
  vstsMv : Nat
  sysMv : Nat
  auxMv : Nat
  taps : List Nat
  sensors : List Int
  apertures : List ApReq := []
deriving DecidableEq, Repr

/-- One pin of a moisture check (R244), in mV; `measured` is false for a pin left out of the check. -/
structure PinMeas where
  measured : Bool
  voff : Int
  v20 : Int
  v2 : Int
deriving DecidableEq, Repr

/-- A power data object of an offer (R270, R277). -/
inductive PdObj where
  /-- fixed supply: mV, mA. -/
  | fixed (mv ma : Nat)
  /-- programmable supply: lowest and highest mV, mA. -/
  | pps (vmin vmax ma : Nat)
  /-- adjustable EPR supply: lowest and highest mV, PDP in W. -/
  | avs (vmin vmax pdpW : Nat)
  /-- a zero object filling an unused SPR position. -/
  | zero
deriving DecidableEq, Repr

/-- A Request or EPR_Request (R271): object position, operating current, output voltage for PPS and AVS; `rev2` says the
header names Revision 2.0 (R262). -/
structure PdReq where
  pos : Nat
  ma : Nat
  mv : Nat
  mismatch : Bool
  epr : Bool
  rev2 : Bool := false
deriving DecidableEq, Repr

/-- The information queries of R266. -/
inductive PdQuery where
  | getStatus | getPpsStatus | getSourceCapExtended | getRevision | getSourceInfo | getManufacturerInfo
deriving DecidableEq, Repr

/-- What the 100 ms count reads of one context (R323, R324): the charge its accumulator has summed in the interval in mA ms,
current in mA, voltage in uV. -/
structure CtxObs where
  ctx : Nat
  dqMaMs : Int
  iMa : Int
  vUv : Int
deriving DecidableEq, Repr

/-- What one filter step reads of one context (R325): mA, uV. -/
structure EkfObs where
  ctx : Nat
  iMa : Int
  vUv : Int
deriving DecidableEq, Repr

/-- The sums of one context at one spectroscopy frequency (R342): voltage phasor in uV, current phasor in mA. -/
structure EisMeas where
  ctx : Nat
  vRe : Int
  vIm : Int
  iRe : Int
  iIm : Int
deriving DecidableEq, Repr

/-- A control-plane write of R394, as it lands in its block. -/
inductive CpWrite where
  /-- a converter reference or target: converter, loop, value in mV or mA. -/
  | ref (conv loop value : Nat)
  /-- one coefficient set written with clamps (the COEF words keep their layout of R98). -/
  | coefSet (conv set : Nat) (words : List Int) (dmin dmax mode rate : Nat)
  /-- a pending map: the six entries of R100. -/
  | map (conv : Nat) (entries : List Nat)
  /-- the loop options of R107 that a running converter takes: SPEC_EN and PREDICT. -/
  | loopOpt (conv : Nat) (specEn predict : Bool)
  /-- a fence by command (R387). -/
  | fence (block unit : Nat)
  /-- a fence release (R386). -/
  | release (block unit : Nat)
  /-- a Lift grant or admission answer for a holder of R228. -/
  | grant (holder mw : Nat)
  /-- a PD policy decision: the V target and IOUT limit of a port. -/
  | pdTarget (port mv ma : Nat)
  /-- a charge reference: machine and mA. -/
  | chargeRef (m ma : Nat)
  /-- the path reference SYS_TGT. -/
  | sysTarget (mv : Nat)
  /-- an AUX reference: voltage and current. -/
  | auxRef (mv ma : Nat)
  /-- the commit of the limits table (R501). -/
  | limitsCommit
deriving DecidableEq, Repr

/-- What starts a failover (R397). -/
inductive FailCause where
  | wdsMissed | wdsDouble | eccUnc | exception
  /-- a fence of the policy processor. -/
  | procFence
deriving DecidableEq, Repr

/-- The commands: one constructor per row of the table, in its order. -/
inductive Instr where
  /-- DEV_INFO_GET (R475), run for the frame accepted in mailbox slot `slot`. -/
  | devInfoGet (slot : Nat)
  /-- DEV_CMD_CAPS_GET (R475), run for the frame accepted in mailbox slot `slot`. -/
  | devCmdCapsGet (slot : Nat)
  /-- DEV_ECHO (R475), run for the frame accepted in mailbox slot `slot`. -/
  | devEcho (slot : Nat)
  /-- PWR_STATE_SET (R487), run for the frame accepted in mailbox slot `slot`. -/
  | pwrStateSet (slot : Nat)
  /-- PWR_RESET (R482), run for the frame accepted in mailbox slot `slot`. -/
  | pwrReset (slot : Nat)
  /-- PWR_STAT_GET (R490), run for the frame accepted in mailbox slot `slot`. -/
  | pwrStatGet (slot : Nat)
  /-- PWR_WAKE_CFG (R489), run for the frame accepted in mailbox slot `slot`. -/
  | pwrWakeCfg (slot : Nat)
  /-- SRC_INPUT_CFG (R152), run for the frame accepted in mailbox slot `slot`. -/
  | srcInputCfg (slot : Nat)
  /-- SRC_PATH_CFG (R165), run for the frame accepted in mailbox slot `slot`. -/
  | srcPathCfg (slot : Nat)
  /-- SRC_INPUT_STAT_GET (R178), run for the frame accepted in mailbox slot `slot`. -/
  | srcInputStatGet (slot : Nat)
  /-- SRC_MPPT_SCAN (R163), run for the frame accepted in mailbox slot `slot`. -/
  | srcMpptScan (slot : Nat)
  /-- SRC_SYS_TARGET_SET (R166), run for the frame accepted in mailbox slot `slot`. -/
  | srcSysTargetSet (slot : Nat)
  /-- STO_PROFILE_SET (R181), run for the frame accepted in mailbox slot `slot`. -/
  | stoProfileSet (slot : Nat)
  /-- STO_TWIN_SET (R189), run for the frame accepted in mailbox slot `slot`. -/
  | stoTwinSet (slot : Nat)
  /-- STO_CHG_CTRL (R200), run for the frame accepted in mailbox slot `slot`. -/
  | stoChgCtrl (slot : Nat)
  /-- STO_CHG_STAT_GET (R202), run for the frame accepted in mailbox slot `slot`. -/
  | stoChgStatGet (slot : Nat)
  /-- STO_AUX_CFG (R203), run for the frame accepted in mailbox slot `slot`. -/
  | stoAuxCfg (slot : Nat)
  /-- LFT_CFG (R224), run for the frame accepted in mailbox slot `slot`. -/
  | lftCfg (slot : Nat)
  /-- LFT_CLASS_SET (R225), run for the frame accepted in mailbox slot `slot`. -/
  | lftClassSet (slot : Nat)
  /-- LFT_BUDGET_GET (R227), run for the frame accepted in mailbox slot `slot`. -/
  | lftBudgetGet (slot : Nat)
  /-- LFT_PASS_GET (R228), run for the frame accepted in mailbox slot `slot`. -/
  | lftPassGet (slot : Nat)
  /-- PRT_CFG (R232), run for the frame accepted in mailbox slot `slot`. -/
  | prtCfg (slot : Nat)
  /-- PRT_STAT_GET (R260), run for the frame accepted in mailbox slot `slot`. -/
  | prtStatGet (slot : Nat)
  /-- PRT_MOIST_GET (R249), run for the frame accepted in mailbox slot `slot`. -/
  | prtMoistGet (slot : Nat)
  /-- PRT_MOIST_CLEAR (R248), run for the frame accepted in mailbox slot `slot`. -/
  | prtMoistClear (slot : Nat)
  /-- PRT_WASHDOWN (R250), run for the frame accepted in mailbox slot `slot`. -/
  | prtWashdown (slot : Nat)
  /-- PRT_UI_CFG (R258), run for the frame accepted in mailbox slot `slot`. -/
  | prtUiCfg (slot : Nat)
  /-- PRT_UI_EVENT_GET (R259), run for the frame accepted in mailbox slot `slot`. -/
  | prtUiEventGet (slot : Nat)
  /-- PRT_LED_SET (R254), run for the frame accepted in mailbox slot `slot`. -/
  | prtLedSet (slot : Nat)
  /-- PD_SRC_CFG (R292), run for the frame accepted in mailbox slot `slot`. -/
  | pdSrcCfg (slot : Nat)
  /-- PD_SNK_CFG (R293), run for the frame accepted in mailbox slot `slot`. -/
  | pdSnkCfg (slot : Nat)
  /-- PD_STAT_GET (R294), run for the frame accepted in mailbox slot `slot`. -/
  | pdStatGet (slot : Nat)
  /-- PD_DR_SWAP_REQ (R295), run for the frame accepted in mailbox slot `slot`. -/
  | pdDrSwapReq (slot : Nat)
  /-- PD_RESET (R295), run for the frame accepted in mailbox slot `slot`. -/
  | pdReset (slot : Nat)
  /-- PD_CORE_STAT_GET (R296), run for the frame accepted in mailbox slot `slot`. -/
  | pdCoreStatGet (slot : Nat)
  /-- PD_MIGRATE (R296), run for the frame accepted in mailbox slot `slot`. -/
  | pdMigrate (slot : Nat)
  /-- BAY_CFG (R317), run for the frame accepted in mailbox slot `slot`. -/
  | bayCfg (slot : Nat)
  /-- BAY_KEY_SET (R316), run for the frame accepted in mailbox slot `slot`. -/
  | bayKeySet (slot : Nat)
  /-- BAY_STAT_GET (R318), run for the frame accepted in mailbox slot `slot`. -/
  | bayStatGet (slot : Nat)
  /-- BAY_RECORD_GET (R318), run for the frame accepted in mailbox slot `slot`. -/
  | bayRecordGet (slot : Nat)
  /-- BAY_KEY_GET (R316), run for the frame accepted in mailbox slot `slot`. -/
  | bayKeyGet (slot : Nat)
  /-- BAY_RECORD_FORGET (R318), run for the frame accepted in mailbox slot `slot`. -/
  | bayRecordForget (slot : Nat)
  /-- BAY_REAUTH (R317), run for the frame accepted in mailbox slot `slot`. -/
  | bayReauth (slot : Nat)
  /-- EST_CFG (R351), run for the frame accepted in mailbox slot `slot`. -/
  | estCfg (slot : Nat)
  /-- EST_CTX_GET (R353), run for the frame accepted in mailbox slot `slot`. -/
  | estCtxGet (slot : Nat)
  /-- EST_OCV_SET (R330), run for the frame accepted in mailbox slot `slot`. -/
  | estOcvSet (slot : Nat)
  /-- EST_OCV_GET (R330), run for the frame accepted in mailbox slot `slot`. -/
  | estOcvGet (slot : Nat)
  /-- EST_EIS_REQ (R344), run for the frame accepted in mailbox slot `slot`. -/
  | estEisReq (slot : Nat)
  /-- EST_EIS_GET (R344), run for the frame accepted in mailbox slot `slot`. -/
  | estEisGet (slot : Nat)
  /-- EST_CTX_SET (R354), run for the frame accepted in mailbox slot `slot`. -/
  | estCtxSet (slot : Nat)
  /-- EST_REST_REQ (R354), run for the frame accepted in mailbox slot `slot`. -/
  | estRestReq (slot : Nat)
  /-- THM_CFG (R363), run for the frame accepted in mailbox slot `slot`. -/
  | thmCfg (slot : Nat)
  /-- THM_GROUPS_GET (R373), run for the frame accepted in mailbox slot `slot`. -/
  | thmGroupsGet (slot : Nat)
  /-- THM_SENSOR_GET (R373), run for the frame accepted in mailbox slot `slot`. -/
  | thmSensorGet (slot : Nat)
  /-- FLT_DETAIL_GET (R384), run for the frame accepted in mailbox slot `slot`. -/
  | fltDetailGet (slot : Nat)
  /-- FLT_CLEAR (R386), run for the frame accepted in mailbox slot `slot`. -/
  | fltClear (slot : Nat)
  /-- FLT_FENCE (R387), run for the frame accepted in mailbox slot `slot`. -/
  | fltFence (slot : Nat)
  /-- BIB_HANDOVER (R396), run for the frame accepted in mailbox slot `slot`. -/
  | bibHandover (slot : Nat)
  /-- GRD_HOLD_CFG (R401), run for the frame accepted in mailbox slot `slot`. -/
  | grdHoldCfg (slot : Nat)
  /-- WDH_CFG_SET (R415), run for the frame accepted in mailbox slot `slot`. -/
  | wdhCfgSet (slot : Nat)
  /-- WDS_STAT_GET (R424), run for the frame accepted in mailbox slot `slot`. -/
  | wdsStatGet (slot : Nat)
  /-- WD_COUNT_GET (R427), run for the frame accepted in mailbox slot `slot`. -/
  | wdCountGet (slot : Nat)
  /-- NVM_READ (R448), run for the frame accepted in mailbox slot `slot`. -/
  | nvmRead (slot : Nat)
  /-- NVM_WRITE (R448), run for the frame accepted in mailbox slot `slot`. -/
  | nvmWrite (slot : Nat)
  /-- NVM_ERASE (R448), run for the frame accepted in mailbox slot `slot`. -/
  | nvmErase (slot : Nat)
  /-- NVM_COUNTER_GET (R448), run for the frame accepted in mailbox slot `slot`. -/
  | nvmCounterGet (slot : Nat)
  /-- NVM_SAVE (R448), run for the frame accepted in mailbox slot `slot`. -/
  | nvmSave (slot : Nat)
  /-- NVM_PDW_SET (R448), run for the frame accepted in mailbox slot `slot`. -/
  | nvmPdwSet (slot : Nat)
  /-- JNL_GET (R474), run for the frame accepted in mailbox slot `slot`. -/
  | jnlGet (slot : Nat)
  /-- JNL_FIND (R474), run for the frame accepted in mailbox slot `slot`. -/
  | jnlFind (slot : Nat)
  /-- UPD_BEGIN (R496), run for the frame accepted in mailbox slot `slot`. -/
  | updBegin (slot : Nat)
  /-- UPD_DATA (R496), run for the frame accepted in mailbox slot `slot`. -/
  | updData (slot : Nat)
  /-- UPD_COMMIT (R496), run for the frame accepted in mailbox slot `slot`. -/
  | updCommit (slot : Nat)
  /-- UPD_ABORT (R496), run for the frame accepted in mailbox slot `slot`. -/
  | updAbort (slot : Nat)
  /-- UPD_STAT_GET (R497), run for the frame accepted in mailbox slot `slot`. -/
  | updStatGet (slot : Nat)
  /-- SVC_LINK_ARM (R507), run for the frame accepted in mailbox slot `slot`. -/
  | svcLinkArm (slot : Nat)
  /-- SVC_LINK_STOP (R514), run for the frame accepted in mailbox slot `slot`. -/
  | svcLinkStop (slot : Nat)
  /-- SVC_AUTH_CHALLENGE (R513), run for the frame accepted in mailbox slot `slot`. -/
  | svcAuthChallenge (slot : Nat)
  /-- SVC_AUTH_RESPONSE (R513), run for the frame accepted in mailbox slot `slot`. -/
  | svcAuthResponse (slot : Nat)
  /-- PTB_UNLOCK (R519), run for the frame accepted in mailbox slot `slot`. -/
  | ptbUnlock (slot : Nat)
  /-- PTB_SET (R520), run for the frame accepted in mailbox slot `slot`. -/
  | ptbSet (slot : Nat)
  /-- PTB_CLEAR (R522), run for the frame accepted in mailbox slot `slot`. -/
  | ptbClear (slot : Nat)
  /-- SVC_STAT_GET (R515), run for the frame accepted in mailbox slot `slot`. -/
  | svcStatGet (slot : Nat)
  /-- CNV_DECLARE (R74), run for the frame accepted in mailbox slot `slot`. -/
  | cnvDeclare (slot : Nat)
  /-- PHS_SELFTEST (R78), run for the frame accepted in mailbox slot `slot`. -/
  | phsSelftest (slot : Nat)
  /-- PHS_STATUS_GET (R543), run for the frame accepted in mailbox slot `slot`. -/
  | phsStatusGet (slot : Nat)
  /-- CNV_LOOP_CFG (R108), run for the frame accepted in mailbox slot `slot`. -/
  | cnvLoopCfg (slot : Nat)
  /-- CNV_COEF_WRITE (R99), run for the frame accepted in mailbox slot `slot`. -/
  | cnvCoefWrite (slot : Nat)
  /-- CNV_SET_MAP (R101), run for the frame accepted in mailbox slot `slot`. -/
  | cnvSetMap (slot : Nat)
  /-- CNV_REF_SET (R106), run for the frame accepted in mailbox slot `slot`. -/
  | cnvRefSet (slot : Nat)
  /-- CNV_SPEC_STATS_GET (R124), run for the frame accepted in mailbox slot `slot`. -/
  | cnvSpecStatsGet (slot : Nat)
  /-- CNV_SPEC_RESUME (R122), run for the frame accepted in mailbox slot `slot`. -/
  | cnvSpecResume (slot : Nat)
  /-- CNV_PROT_CFG (R132), run for the frame accepted in mailbox slot `slot`. -/
  | cnvProtCfg (slot : Nat)
  /-- CNV_PROT_STAT_GET (R145), run for the frame accepted in mailbox slot `slot`. -/
  | cnvProtStatGet (slot : Nat)
  /-- SPI_TRANSACTION (R453): MOSI bytes from HCS_N falling to rising, then `tailBits` further bits (0-7). -/
  | spiTransaction (mosi : List Nat) (tailBits : Nat)
  /-- I2C_TRANSACTION (R455): the segments between S and P. -/
  | i2cTransaction (segs : List I2cSeg)
  /-- WDH_SERVE (R405): the word written. -/
  | wdhServe (key : Nat)
  /-- WDH_DISABLE_SEQUENCE (R413): the 16-bit KEY field, not 0. -/
  | wdhDisableSequence (key : Nat)
  /-- WDH_LOCK_SET (R409). -/
  | wdhLockSet
  /-- MBX_DOORBELL (R463): the word written. -/
  | mbxDoorbell (mask : Nat)
  /-- MBX_ACK (R463): the word written. -/
  | mbxAck (mask : Nat)
  /-- MBX_SLOT_WRITE (R463): byte address 0x1000-0x1FFC, word. -/
  | mbxSlotWrite (addr word : Nat)
  /-- CAUSE_CLEAR (R381): block ID and the CAUSE bits written as 1 (8 bits). -/
  | causeClear (block mask : Nat)
  /-- REGISTER_WRITE (R9): byte address in the direct window, word. -/
  | registerWrite (addr word : Nat)
  /-- MBX_SERVE (R464). -/
  | mbxServe
  /-- COMMAND_OUTCOME (R470): journal SEQ, final status code of R465, DETAIL. -/
  | commandOutcome (seq result detail : Nat)
  /-- INTERNAL_ENTRY_FLUSH (R473). -/
  | internalEntryFlush
  /-- POR (R479). -/
  | por
  /-- BOR (R479): VPRE reading. -/
  | bor (vpreMv : Nat)
  /-- PIN_RESET (R479): how long RESET_N was low. -/
  | pinReset (lowNs : Nat)
  /-- PPR_AUTO (R385): 0 PP-A, 1 PP-B. -/
  | pprAuto (proc : Nat)
  /-- BLK_DONE (R483). -/
  | blkDone (block : Nat)
  /-- FER_AUTO (R484): 0 FE-E, 1 FE-W. -/
  | ferAuto (die : Nat)
  /-- FER_DONE (R484). -/
  | ferDone (die : Nat)
  /-- GDCLK_MISSING (R35). -/
  | gdclkMissing
  /-- RESET_PHASE_END (R481): VSTS reading. -/
  | resetPhaseEnd (vstsMv : Nat)
  /-- VPRE_GOOD (R55): VPRE reading; whether VPRE is fed from VBOOT alone. -/
  | vpreGood (vpreMv : Nat) (bootOnly : Bool)
  /-- VIO_GOOD (R55). -/
  | vioGood
  /-- STRAP_LATCH (R47): levels of the strap balls; dbp is DBP1, DBP0. -/
  | strapLatch (hsel hadr dbp : Nat)
  /-- RECALL_COMPLETE (R436). -/
  | recallComplete
  /-- CONFIG_APPLY (R55). -/
  | configApply
  /-- HOLD_CHARGED (R445): HOLD reading. -/
  | holdCharged (holdMv : Nat)
  /-- STORE_START (R168): VSTS reading; by WAKE held low 50 ms or by VSTS rising. -/
  | storeStart (vstsMv : Nat) (wake : Bool)
  /-- POWER_DOWN_WARNING (R443): 0 VPRE, 1 SYS, 2 VBOOT; its reading; HOLD read before each save page. -/
  | powerDownWarning (trigger mv : Nat) (hold : List Nat)
  /-- SAVE_COMPLETE (R446): whether the warning condition has ended with VPRE good throughout. -/
  | saveComplete (warningEnded : Bool)
  /-- SAVE_REGION_ERASE (R446). -/
  | saveRegionErase
  /-- CHECKPOINT (R442). -/
  | checkpoint
  /-- NVM_PAGE_WRITE_DONE (R432): read-back result of the first and (if taken) second attempt. -/
  | nvmPageWriteDone (ok1 ok2 : Bool)
  /-- LEARNED_WRITE_DUE (R349). -/
  | learnedWriteDue (ctx : Nat)
  /-- XIN_RETURN (R434). -/
  | xinReturn
  /-- MCLK_LOSS (R32). -/
  | mclkLoss
  /-- CLK_LOSS (R33): 1 CECLK, 2 PWMCLK, 3 ADCCLK. -/
  | clkLoss (dom : Nat)
  /-- XIN_LOSS (R34). -/
  | xinLoss
  /-- ESTCLK_LOSS (R327). -/
  | estclkLoss
  /-- DIE_LINK_LOSS (R402). -/
  | dieLinkLoss (die : Nat)
  /-- LINK_GLITCH (R402). -/
  | linkGlitch (die : Nat)
  /-- FE_HEARTBEAT_LOSS (R20). -/
  | feHeartbeatLoss (die : Nat)
  /-- FE_W_REJOIN (R21). -/
  | feWRejoin
  /-- PERIOD_BOUNDARY (R65). -/
  | periodBoundary (conv : Nat)
  /-- SPECULATION (R111): samples already complete (V, IOUT, ISRC, FOLD, VIN), in 1/65536 mV or mA; the IOUT and ISRC samples of a
  port or AUX converter are taken from the inductor current (R90). -/
  | speculation (conv : Nat) (early : List (Option Int))
  /-- RESOLVE (R114): actual samples (V, IOUT, ISRC, FOLD, VIN) in 1/65536 mV or mA, as SPECULATION has them. -/
  | resolve (conv : Nat) (y : List Int)
  /-- SHADOW_LOAD (R114). -/
  | shadowLoad (conv : Nat)
  /-- RECOVERY (R114). -/
  | recovery (conv : Nat)
  /-- CTRL_STARVED (R121). -/
  | ctrlStarved (conv : Nat)
  /-- SPEC_SUSPEND (R122). -/
  | specSuspend
  /-- MODE_CHANGE (R96). -/
  | modeChange (conv : Nat)
  /-- PEAK_TRIP (R69): what crossed the comparator's threshold. -/
  | peakTrip (conv : Nat) (hit : PeakHit)
  /-- SENSE_SPLIT (R67): the two leg currents. -/
  | senseSplit (conv phase : Nat) (aMa bMa : Int)
  /-- TMON_OPEN (R72). -/
  | tmonOpen (group mv : Nat)
  /-- STAGE_FAULT (R72). -/
  | stageFault (group mv : Nat)
  /-- STAGE_IDENTIFY (R139): channels of the group that met a rail, ripple or phase-open criterion. -/
  | stageIdentify (group : Nat) (found : List Nat)
  /-- PHASE_PARK_END (R139): TMON reading at the end of the parking. -/
  | phaseParkEnd (group mv : Nat)
  /-- PHASE_SELFTEST (R77). -/
  | phaseSelftest (conv phase : Nat) (meas : SelftestMeas)
  /-- SELFTEST_DONE (R78). -/
  | selftestDone (conv : Nat)
  /-- SELFTEST_DEFERRED_RUN (R78). -/
  | selftestDeferredRun (input vinMv : Nat)
  /-- IMON_ZERO_CHECK (R86): measured zeros in mV. -/
  | imonZeroCheck (conv phase zeroA zeroB : Nat)
  /-- ADC_ROTATION (R82). -/
  | adcRotation
  /-- ADC_HANDOVER (R82): per stream the pairs of 16 that differ by more than 8 LSB; departures from the reference points in LSB. -/
  | adcHandover (disagree : List Nat) (leavingErr standinErr : Nat)
  /-- ADC_CAL_DONE (R83). -/
  | adcCalDone (pass : Bool)
  /-- HOUSEKEEPING_ROUND (R79). -/
  | housekeepingRound (round : Round)
  /-- PREBIAS_CHECK (R126). -/
  | prebiasCheck (conv : Nat) (meas : PrebiasMeas)
  /-- PREBIAS_RETRY (R127). -/
  | prebiasRetry (conv : Nat) (meas : PrebiasMeas)
  /-- BACKDRIVE_CLEAR (R126). -/
  | backdriveClear (port vbsMv : Nat)
  /-- SHORT_DETECT (R129): output sample; share of periods with IOUT, ISRC or a peak trip; CC detach in the same period. -/
  | shortDetect (conv sampleMv limPermille : Nat) (ccOpen : Bool)
  /-- HICCUP_RETRY (R130). -/
  | hiccupRetry (conv : Nat)
  /-- HICCUP_COUNT_RESET (R130). -/
  | hiccupCountReset (conv : Nat)
  /-- OV_DETECT (R133). -/
  | ovDetect (conv sampleMv : Nat) (ccOpen : Bool)
  /-- UV_DETECT (R134): share of periods with IOUT, ISRC or FOLD selected; counted time added. -/
  | uvDetect (conv sampleMv limPermille ms : Nat)
  /-- PHASE_OPEN (R137): over so many consecutive periods, per declared phase the highest reading of each leg and the lowest valley
  reading of the phase, in mA. -/
  | phaseOpen (conv : Nat) (legAMa legBMa valleyMa : List Int) (periods : Nat)
  /-- SENSE_RAIL (R138). -/
  | senseRail (conv phase imonMv : Nat)
  /-- SENSE_RIPPLE (R138): the valley and mid-on-time samples of one leg in eight consecutive ripple evaluations, in mA. -/
  | senseRipple (conv phase : Nat) (valleyMa midMa : List Int)
  /-- DERATE_END (R142). -/
  | derateEnd (port : Nat)
  /-- BFET_MODE_EVAL (R148). -/
  | bfetModeEval (vstsMv : Nat)
  /-- BFET_TRANSITION_DONE (R151). -/
  | bfetTransitionDone
  /-- REVERSE_COMPARATOR (R149). -/
  | reverseComparator (storeMa : Int)
  /-- LINEAR_UPDATE (R150). -/
  | linearUpdate (sysMv vstsMv : Nat) (storeMa : Int)
  /-- LIN_OVERLOAD (R150). -/
  | linOverload (sysMv vstsMv : Nat) (storeMa : Int)
  /-- INPUT_PRESENT (R154). -/
  | inputPresent (input vinMv : Nat)
  /-- INPUT_ABSENT (R154). -/
  | inputAbsent (input vinMv : Nat)
  /-- IN_OV (R155). -/
  | inOv (input vinMv : Nat)
  /-- IN_OV_RECOVER (R155). -/
  | inOvRecover (input vinMv : Nat)
  /-- INPUT_REVERSE (R156). -/
  | inputReverse (input : Nat) (iinMa : Int)
  /-- INPUT_REVERSE_RESTART (R156). -/
  | inputReverseRestart (input : Nat)
  /-- VEHICLE_SYSTEM_DETECT (R157). -/
  | vehicleSystemDetect (input vinMv : Nat)
  /-- VEHICLE_PARK (R157). -/
  | vehiclePark (input vinMv : Nat)
  /-- VEHICLE_UNPARK (R157). -/
  | vehicleUnpark (input vinMv : Nat)
  /-- DONOR_LIMIT_UPDATE (R160): currents at SYS. -/
  | donorLimitUpdate (loadsMa inputsMa : Nat)
  /-- DONOR_WITHDRAW (R161). -/
  | donorWithdraw (port : Nat)
  /-- MPPT_STEP (R162): mean input power of the interval; share of periods with FOLD selected. -/
  | mpptStep (input powerMw foldPermille : Nat)
  /-- MPPT_SCAN (R163). -/
  | mpptScan (input : Nat)
  /-- MPPT_SCAN_END (R163). -/
  | mpptScanEnd (input vocMv : Nat)
  /-- SYS_LOW (R167). -/
  | sysLow (sysMv : Nat)
  /-- SYS_RECOVER (R167). -/
  | sysRecover (sysMv : Nat)
  /-- CABLE_BOOT (R171): rp: 0 Default, 1 1.5 A, 2 3.0 A. -/
  | cableBoot (port vbusMv rp : Nat)
  /-- BOOT_CAPS_TIMEOUT (R171). -/
  | bootCapsTimeout (port : Nat)
  /-- BOOT_SINK_LOSS (R172). -/
  | bootSinkLoss (port sysMv vbootMv : Nat) (hold : List Nat)
  /-- STORE_REMOVAL (R174): 0 charge step, 1 discharge step, 2 thermistor, 3 taps. -/
  | storeRemoval (detector : Nat) (sysMv vstsMv meanSysMv : Nat) (storeMa : Int)
  /-- STORE_ACCEPT (R175): VSTS, stable for 500 ms. -/
  | storeAccept (vstsMv : Nat)
  /-- CHG_EVAL (R183): machine 0 Store, p + 1 the bay on Pp; battery voltage and current. -/
  | chgEval (m : Nat) (vMv : Nat) (iMa : Int)
  /-- V_CHG_UPDATE (R184): mean of SYSS - VSTS (VCS - VBS for a bay) over the last 1 ms. -/
  | vChgUpdate (m : Nat) (dMv : Int)
  /-- CHG_TIMER_SECOND (R194). -/
  | chgTimerSecond (m : Nat) (noFeeder feederIsrcFold : Bool) (iMa : Int) (vMv : Nat)
  /-- CHG_TIMER_EXPIRE (R194). -/
  | chgTimerExpire (m : Nat)
  /-- CHG_OC (R196). -/
  | chgOc (m : Nat) (iMa : Int)
  /-- CHG_OC_PERSIST (R196). -/
  | chgOcPersist (m : Nat) (iMa : Int)
  /-- CELL_OV (R197). -/
  | cellOv (m cellMv : Nat)
  /-- CUTOFF (R198): lowest cell; whether a feeder starts before step 2, or during the save. -/
  | cutoff (cellMv : Nat) (feederBefore feederDuring : Bool) (hold : List Nat)
  /-- DSG_OC (R199): Store current, negative while discharging. -/
  | dsgOc (iMa : Int)
  /-- AUX_POLICY_CHANGE (R204). -/
  | auxPolicyChange
  /-- AUX_HOLD_EXPIRE (R204). -/
  | auxHoldExpire
  /-- LIFT_CYCLE (R208): whether the cycle publishes within 1 ms. -/
  | liftCycle (published : Bool)
  /-- PASS_REQUEST (R216): 0-47 ports, 48 AUX. -/
  | passRequest (holder mw : Nat)
  /-- GRANT_DELIVERY (R208): 0-47 ports, 48 AUX, 49 Store charge. -/
  | grantDelivery (holder : Nat)
  /-- PASS_EXCESS (R219): measured output power. -/
  | passExcess (port mw : Nat)
  /-- RECLAIM_HARD_RESET (R218). -/
  | reclaimHardReset (port : Nat)
  /-- REST_GRANT_END (R222): S below cost for 1 s, or the 120 s are over. -/
  | restGrantEnd (sLow : Bool)
  /-- EIS_GRANT_END (R223). -/
  | eisGrantEnd (m : Nat)
  /-- RD_DETECT (R236): active CC line 1 or 2; Ra on the other line. -/
  | rdDetect (port cc : Nat) (ra : Bool)
  /-- CC_DEBOUNCE (R236). -/
  | ccDebounce (port : Nat)
  /-- ATTACHED_SRC (R237). -/
  | attachedSrc (port : Nat)
  /-- SOURCE_DETACH (R238). -/
  | sourceDetach (port : Nat)
  /-- SINK_DETACH (R239). -/
  | sinkDetach (port vbsMv : Nat) (rpAbsent : Bool)
  /-- SINK_ATTACH (R244). -/
  | sinkAttach (port cc rp : Nat)
  /-- DRP_TOGGLE (R235). -/
  | drpToggle (port : Nat)
  /-- TRY_TIMEOUT (R235). -/
  | tryTimeout (port : Nat)
  /-- ERROR_RECOVERY_END (R235). -/
  | errorRecoveryEnd (port : Nat)
  /-- ACCESSORY_DETECT (R240): Ra or Rd on both lines, or the lines have changed. -/
  | accessoryDetect (port : Nat) (present : Bool)
  /-- VCONN_OC (R242): over 200 mA for 1 ms, or at the limit for 50 us. -/
  | vconnOc (port ma : Nat) (atLimit : Bool)
  /-- MOISTURE_CHECK (R244). -/
  | moistureCheck (port : Nat)
  /-- MOISTURE_CHECK_DONE (R247): CC1, CC2, DP, DM, VBS. -/
  | moistureCheckDone (port : Nat) (pins : List PinMeas)
  /-- WASHDOWN_AUTO_EXIT (R251). -/
  | washdownAutoExit
  /-- CC_OVERVOLTAGE (R526): pin: 0 CC1, 1 CC2, 2 DP, 3 DM. -/
  | ccOvervoltage (port pin mv : Nat)
  /-- CC_PIN_RECONNECT (R526). -/
  | ccPinReconnect (port pin mv : Nat)
  /-- UI_FRAME (R253): measured capacitance of the 48 keys in 0.01 pF. -/
  | uiFrame (caps : List Nat)
  /-- HOLD_REACHED (R256). -/
  | holdReached (port : Nat)
  /-- LONG_HOLD_REACHED (R256). -/
  | longHoldReached (port : Nat)
  /-- STUCK (R255). -/
  | stuck (port : Nat)
  /-- SERVICE_WINDOW_END (R256). -/
  | serviceWindowEnd (port : Nat)
  /-- BASELINE_RESEED (R255). -/
  | baselineReseed (port cap : Nat)
  /-- ARM_EXPIRE (R507). -/
  | armExpire
  /-- PD_SOURCE_CAPABILITIES_RX (R277). -/
  | pdSourceCapabilitiesRx (port : Nat) (objs : List PdObj) (epr eprCapable rev2 : Bool)
  /-- PD_REQUEST_RX (R271). -/
  | pdRequestRx (port : Nat) (req : PdReq)
  /-- PD_ACCEPT_RX (R278). -/
  | pdAcceptRx (port : Nat) (sameRole : Bool)
  /-- PD_REJECT_RX (R266). -/
  | pdRejectRx (port : Nat) (wait : Bool)
  /-- PD_PS_RDY_RX (R278). -/
  | pdPsRdyRx (port : Nat)
  /-- PD_SOFT_RESET_RX (R266). -/
  | pdSoftResetRx (port : Nat)
  /-- PD_HARD_RESET (R281). -/
  | pdHardReset (port : Nat) (sent : Bool)
  /-- PD_DR_SWAP_RX (R282). -/
  | pdDrSwapRx (port : Nat)
  /-- PD_EPR_MODE_RX (R276). -/
  | pdEprModeRx (port : Nat) (enter : Bool)
  /-- PD_EPR_KEEPALIVE_RX (R280). -/
  | pdEprKeepaliveRx (port : Nat)
  /-- PD_GET_CAP_RX (R266). -/
  | pdGetCapRx (port : Nat) (sinkCap epr : Bool)
  /-- PD_INFO_QUERY_RX (R266). -/
  | pdInfoQueryRx (port : Nat) (q : PdQuery)
  /-- PD_UNSUPPORTED_RX (R266). -/
  | pdUnsupportedRx (port : Nat)
  /-- PD_ALERT_RX (R266). -/
  | pdAlertRx (port bits : Nat)
  /-- PD_VENDOR_DEFINED_RX (R266). -/
  | pdVendorDefinedRx (port : Nat) (discoverIdentity : Bool)
  /-- PD_CABLE_IDENTITY_RX (R275). -/
  | pdCableIdentityRx (port ma vmaxMv : Nat) (eprCable : Bool)
  /-- PD_BIST_RX (R266): 0 Carrier Mode, 1 Test Data. -/
  | pdBistRx (port mode vbusMv : Nat)
  /-- PD_RETRANSMIT (R264). -/
  | pdRetransmit (port : Nat)
  /-- PD_TX_FAIL (R265). -/
  | pdTxFail (port : Nat)
  /-- SENDER_RESPONSE_TIMEOUT (R265). -/
  | senderResponseTimeout (port : Nat)
  /-- PS_TRANSITION_TIMEOUT (R278). -/
  | psTransitionTimeout (port : Nat)
  /-- SRC_TRANSITION_START (R274). -/
  | srcTransitionStart (port : Nat)
  /-- TRANSITION_SETTLED (R274). -/
  | transitionSettled (port vcsMv : Nat)
  /-- SEND_SOURCE_CAP (R268). -/
  | sendSourceCap (port : Nat)
  /-- NO_RESPONSE_TIMEOUT (R268). -/
  | noResponseTimeout (port : Nat)
  /-- SINK_EPR_KEEPALIVE (R279). -/
  | sinkEprKeepalive (port : Nat)
  /-- PPS_REQUEST_REPEAT (R279). -/
  | ppsRequestRepeat (port : Nat)
  /-- SOURCE_EPR_KEEPALIVE_TIMEOUT (R280). -/
  | sourceEprKeepaliveTimeout (port : Nat)
  /-- PPS_TIMEOUT (R280). -/
  | ppsTimeout (port : Nat)
  /-- DISCOVER_IDENTITY_RETRY (R275). -/
  | discoverIdentityRetry (port : Nat)
  /-- HARD_RESET_STOP (R281). -/
  | hardResetStop (port : Nat)
  /-- SRC_RECOVER (R281). -/
  | srcRecover (port : Nat)
  /-- PPS_UNDERVOLTAGE (R273). -/
  | ppsUndervoltage (port vcsMv : Nat)
  /-- PD_MIGRATION (R290). -/
  | pdMigration (port : Nat)
  /-- MIGRATION_ABANDON (R290). -/
  | migrationAbandon (port : Nat)
  /-- PD_CORE_FENCE (R291). -/
  | pdCoreFence (core : Nat)
  /-- BAY_ID_READ (R301). -/
  | bayIdRead (port cc1Mv : Nat)
  /-- PACK_INSERT (R301). -/
  | packInsert (port : Nat)
  /-- PACK_REMOVAL (R315): 0 CC1 comparator, 1 VBS high with no current, 2 VBS low. -/
  | packRemoval (port detector vbsMv iMa : Nat)
  /-- BAY_LINK_REPLY (R304). -/
  | bayLinkReply (port type : Nat) (payload : List Nat) (crcOk : Bool)
  /-- BAY_REPLY_TIMEOUT (R305). -/
  | bayReplyTimeout (port : Nat)
  /-- AUTH_VERDICT (R308). -/
  | authVerdict (port : Nat)
  /-- AUTH_RETRY (R309). -/
  | authRetry (port : Nat)
  /-- BAY_STATUS_POLL (R306). -/
  | bayStatusPoll (port : Nat)
  /-- TRICKLE_RETRY (R311). -/
  | trickleRetry (port : Nat)
  /-- TRICKLE_EXPIRE (R311). -/
  | trickleExpire (port : Nat)
  /-- BAY_START (R312): readings at the end of step 2. -/
  | bayStart (port vcsMv vbsMv : Nat)
  /-- BAY_DONE_READ (R206). -/
  | bayDoneRead (port vbsMv : Nat)
  /-- PROOFING_PAUSE (R339). -/
  | proofingPause (port : Nat)
  /-- PROOFING_PAUSE_END (R339). -/
  | proofingPauseEnd (port : Nat)
  /-- KEY_REVOKE_REAUTH (R316). -/
  | keyRevokeReauth (port : Nat)
  /-- SOC_COUNT (R324): one observation per active context. -/
  | socCount (obs : List CtxObs)
  /-- NO_ANCHOR (R336). -/
  | noAnchor (ctx : Nat)
  /-- EKF_STEP (R325): one observation per active context. -/
  | ekfStep (obs : List EkfObs)
  /-- FILTER_RESET (R327). -/
  | filterReset (ctx : Nat)
  /-- STALE (R327). -/
  | stale (ctx : Nat)
  /-- REST_REQUEST (R340). -/
  | restRequest
  /-- RELAX_FIT (R338). -/
  | relaxFit (ctx : Nat)
  /-- EIS_RUN (R341): 0 Store, p + 1 the bay on Pp. -/
  | eisRun (m : Nat)
  /-- EIS_FREQUENCY_DONE (R342). -/
  | eisFrequencyDone (m : Nat) (meas : List EisMeas) (ampMa dropPermille : Nat)
  /-- EIS_ABORT (R343). -/
  | eisAbort (m : Nat)
  /-- EIS_DUE (R344). -/
  | eisDue (ctx : Nat)
  /-- THM_SAMPLE (R361): reading in units of R6, for a TMON line (24 to 39) in mV; -32768 open. -/
  | thmSample (sensor : Nat) (t : Int)
  /-- LANE_CHANGE (R359). -/
  | laneChange (sensor : Nat)
  /-- HOVER (R362). -/
  | hover (sensor level : Nat)
  /-- THM_CAP_LIFT (R369). -/
  | thmCapLift (scope : Nat)
  /-- PULSE_SKIP_ENTRY (R367): inductor current over the last 1 ms. -/
  | pulseSkipEntry (conv ma : Nat)
  /-- PULSE_SKIP_EXIT (R367). -/
  | pulseSkipExit (conv ma : Nat)
  /-- TSD (R370): die sensor whose comparator tripped. -/
  | tsd (sensor : Nat)
  /-- TSD_RELEASE (R371). -/
  | tsdRelease
  /-- TSD_RESTART (R371). -/
  | tsdRestart
  /-- HW_OV (R393): two consecutive own-loop samples. -/
  | hwOv (conv mv1 mv2 : Nat)
  /-- SYS_CRIT (R393). -/
  | sysCrit (sysMv : Nat)
  /-- SYS_CRIT_RECOVER (R393). -/
  | sysCritRecover (sysMv : Nat)
  /-- SYS_UV1 (R391). -/
  | sysUv1 (sysMv : Nat)
  /-- WINDOW_END (R392): block whose fence opened the window. -/
  | windowEnd (origin : Nat)
  /-- CONTROL_PLANE_WRITE (R394): writer's processor tag and the write. -/
  | controlPlaneWrite (proc : Nat) (w : CpWrite)
  /-- FAILOVER (R397). -/
  | failover (cause : FailCause)
  /-- HALT_ACK (R397). -/
  | haltAck
  /-- HALT_TIMEOUT (R397). -/
  | haltTimeout
  /-- HANDOVER_OWNER_MOVE (R396). -/
  | handoverOwnerMove
  /-- SYNC_SET (R542). -/
  | syncSet (proc : Nat)
  /-- HOLD_TIME_EXPIRE (R400). -/
  | holdTimeExpire
  /-- HOLD_PARK_STEP (R400). -/
  | holdParkStep
  /-- WDH_EXPIRY (R416). -/
  | wdhExpiry
  /-- HOSTRST_PULSE_END (R416). -/
  | hostrstPulseEnd
  /-- WDS_CHECKIN (R420). -/
  | wdsCheckin (proc : Nat) (supervisor : Bool) (word : Nat)
  /-- WDS_PERIOD_END (R422). -/
  | wdsPeriodEnd
  /-- WDS_ENABLE (R419). -/
  | wdsEnable
  /-- WD_TOTAL_RAISE (R426). -/
  | wdTotalRaise
  /-- QUIET_AUTO (R487). -/
  | quietAuto
  /-- QUIET_EXIT (R488). -/
  | quietExit
  /-- STANDBY_WAKE (R488): 1 attach, 2 bay, 3 touch, 4 input, 5 timer, 6 WAKE pin (LAST_WAKE codes of R490), 0 a command. -/
  | standbyWake (source : Nat)
  /-- WAKE_TIMER (R489). -/
  | wakeTimer
  /-- STANDBY_COUNT_SAMPLE (R488). -/
  | standbyCountSample (storeMa : Int)
  /-- UPD_VERIFY_DONE (R494). -/
  | updVerifyDone
  /-- UPD_SYNC_TIMEOUT (R498). -/
  | updSyncTimeout
  /-- UPD_PROBATION_END (R498). -/
  | updProbationEnd
  /-- UPD_POINTER_WRITE (R495). -/
  | updPointerWrite
  /-- PD_UPD_CORE_STEP (R499). -/
  | pdUpdCoreStep
  /-- PD_UPD_PROBATION_END (R499). -/
  | pdUpdProbationEnd
  /-- EST_UCODE_SWAP (R500). -/
  | estUcodeSwap
  /-- EST_UCODE_PROBATION_END (R500). -/
  | estUcodeProbationEnd
  /-- LIMITS_PREPARE (R501). -/
  | limitsPrepare
  /-- LIMITS_COMMIT (R501). -/
  | limitsCommit
  /-- TMON_MASK_EXPIRE (R502). -/
  | tmonMaskExpire (group : Nat)
  /-- STAVSKA_LINK_START (R508). -/
  | stavskaLinkStart (port : Nat)
  /-- STAVSKA_SWAP_RETRY (R508). -/
  | stavskaSwapRetry (port : Nat)
  /-- STAVSKA_NO_PD (R508). -/
  | stavskaNoPd (port : Nat)
  /-- USB_SET_CONFIGURATION (R509). -/
  | usbSetConfiguration
  /-- ENUM_TIMEOUT (R509). -/
  | enumTimeout
  /-- STAVSKA_FRAME (R510): the frame after its sync bytes: header, then LEN payload bytes. -/
  | stavskaFrame (bytes : List Nat)
  /-- STAVSKA_FRAME_TIMEOUT (R510). -/
  | stavskaFrameTimeout
  /-- STAVSKA_IDLE (R514). -/
  | stavskaIdle
  /-- STAVSKA_LINK_END (R514): LAST_FAIL code of R515. -/
  | stavskaLinkEnd (reason : Nat)
  /-- NONCE_EXPIRE (R513). -/
  | nonceExpire
  /-- AUTH_LOCKOUT_END (R513). -/
  | authLockoutEnd
  /-- PTB_UNLOCK_EXPIRE (R519). -/
  | ptbUnlockExpire
  /-- PTB_TTL_EXPIRE (R522). -/
  | ptbTtlExpire (id : Nat)
  /-- JTAG_INSTRUCTION (R61). -/
  | jtagInstruction (opcode : Nat)
  /-- TAP_RESET (R516). -/
  | tapReset
  /-- AONCLK_LOSS (R31). -/
  | aonclkLoss
  /-- USBCLK_LOSS (R31). -/
  | usbclkLoss
  /-- SHIP_INPUT_WAKE (R168): the input's voltage and the Store's. -/
  | shipInputWake (input : Nat) (volts : WakeVolts)
  /-- PD_SINK_CAPABILITIES_RX (R266). -/
  | pdSinkCapabilitiesRx (port : Nat) (objs : List PdObj)
  /-- SINK_HARD_RESET (R278). -/
  | sinkHardReset (port : Nat)
  /-- SINK_VBUS_RESTORED (R278). -/
  | sinkVbusRestored (port vbsMv : Nat)
  /-- SINK_RP_CHANGE (R283). -/
  | sinkRpChange (port : Nat) (txOk : Bool)
  /-- CABLE_RESET_RX (R264). -/
  | cableResetRx (port : Nat)
  /-- CELL_TAP_FAST_LANE (R197): tap readings ST0-ST16 in mV. -/
  | cellTapFastLane (taps : List Nat)
deriving DecidableEq, Repr

end Sys2Proof
end

