-- ==== Sys2Proof/Decode.lean ====
section
/-! DEFINITION. Sys2Proof/Decode.lean: no row of spec/opcode_table.json gives a command a pattern of bits, so no word
spells one (98_reader.md: n_rows_with_fields 0). A command is a term of Sys2Proof/Syntax.lean. -/
namespace Sys2Proof

/-- The command a word spells by the table's bits: none, for the table gives no row any bits. -/
def decodeTableWord (_nbits _w : Nat) : Option Instr := none

end Sys2Proof
end

