-- ==== Sys2Proof/Word.lean ====
section
/-! DEFINITION. Sys2Proof/Word.lean: the word types of the KGN4800 model and the plainest arithmetic over them.
Registers of the direct window are 32 bits (R8); mailbox and retention bytes are 8 bits. Quantities the manual adds
and compares but never masks (mV, mA, mW, counts, times) are Nat or Int. -/
namespace Sys2Proof

/-- A byte of a mailbox slot, of a page, or of the host link. -/
abbrev Byte := BitVec 8

/-- A register of the direct window (R8). -/
abbrev Word := BitVec 32

/-- Microseconds, milliseconds and seconds in the nanoseconds that State.now counts. -/
abbrev us (n : Nat) : Nat := n * 1000
abbrev ms (n : Nat) : Nat := n * 1000000
abbrev sec (n : Nat) : Nat := n * 1000000000

/-- A 32-bit wrapping counter's next value. -/
def wrap32 (n : Nat) : Nat := n % 4294967296

/-- A counter that stops at its top value. -/
def satTo (top n : Nat) : Nat := min n top

/-- Integer restricted to a closed range. -/
def clampI (lo hi x : Int) : Int := max lo (min hi x)

/-- Natural restricted to a closed range. -/
def clampN (lo hi x : Nat) : Nat := max lo (min hi x)

/-- Quotient rounded up; 0 for a zero divisor. -/
def ceilDiv (a b : Nat) : Nat := if b = 0 then 0 else (a + b - 1) / b

/-- Quotient rounded to nearest, ties away from zero (R89, R92). -/
def roundDivI (a : Int) (b : Nat) : Int :=
  if b = 0 then 0
  else if a < 0 then - ((-a * 2 + b) / (2 * (b : Int))) else (a * 2 + b) / (2 * (b : Int))

/-- Natural quotient rounded to nearest, ties up. -/
def roundDivN (a b : Nat) : Nat := if b = 0 then 0 else (2 * a + b) / (2 * b)

/-- Integer square root by bisection on 64 bits: the largest r below 2^64 with r * r at most n. -/
def isqrt (n : Nat) : Nat :=
  (List.range 64).foldl (fun r k => let c := r + 2 ^ (63 - k); if c * c ≤ n then c else r) 0

/-- Entry `i` of a table of fixed size, `d` where the table has no such entry. -/
def tget {α : Type} {n : Nat} (v : Vector α n) (d : α) (i : Nat) : α := if h : i < n then v[i] else d

/-- The table with entry `i` changed by `f`; unchanged where it has no such entry. -/
def tupd {α : Type} {n : Nat} (v : Vector α n) (i : Nat) (f : α → α) : Vector α n :=
  if h : i < n then v.set i (f v[i]) else v

/-- Every entry of a table changed by `f`, which is given the entry's index. -/
def tmap {α : Type} {n : Nat} (v : Vector α n) (f : Nat → α → α) : Vector α n :=
  Vector.ofFn fun i => f i.val v[i]

end Sys2Proof
end

