-- ==== Sys2Proof/Config.lean ====
section
/-! DEFINITION. Sys2Proof/Config.lean: what is fixed for one device, and the free values. A constant that is opaque
has no body a proof can see: a claim that is true is true whatever it is (log entries 5 to 9, 107, 109). -/
namespace Sys2Proof
namespace Config

/-- Capability parameters (R1, R458). -/
def capPorts : Nat := 48
def capChannels : Nat := 256
def capContexts : Nat := 272
def capLoops : Nat := 64
def capPdCores : Nat := 8
def capInputs : Nat := 6
def capSlots : Nat := 4

/-- DEV_ID and DEV_REV (R456), the policy firmware of this manual (R2, R457), and the releases that go with it. -/
def devId : Nat := 0x14800B4D
def devRev : Nat := 0x21
def fwMajor : Nat := 3
def fwMinor : Nat := 2
def pdFwMajor : Nat := 2
def pdFwMinor : Nat := 1
def estFwMajor : Nat := 1
def estFwMinor : Nat := 4

/-- BUILD of the release (R457): no behaviour depends on it; free. -/
opaque fwBuild : BitVec 16
/-- The device identity of R540, written at manufacture; free. -/
opaque uid : BitVec 64
/-- The vendor root public key of factory calibration (R493, R512), x and y; free. -/
opaque vendorRootX : BitVec 256
opaque vendorRootY : BitVec 256
/-- OEM_KEY of the running policy firmware image (R512); free. -/
opaque oemKeyX : BitVec 256
opaque oemKeyY : BitVec 256
/-- The factory calibration bytes of pages 0-63 (R430), by byte address; free. -/
opaque factoryByte : Nat → BitVec 8
/-- The nth number of the public-key engine's random generator (R308, R513); free. -/
opaque nonce : Nat → BitVec 256
/-- Whether a RESET_N pulse of 200 ns to 1 us resets (R479 allows either); free, by use. -/
opaque shortPulseResets : Nat → Bool
/-- What a group reads after an interrupted erase or program (R435): 0 the first named choice, 1 BLANK, 2 UNC; free. -/
opaque tornChoice : Nat → Fin 3
/-- The raw bytes of an UNC group (R431); free. -/
opaque uncBytes : Nat → BitVec 64
/-- expf and powf of R325 and R338 in IEEE single precision: the manual gives no rounding for them; free. -/
opaque expf : BitVec 32 → BitVec 32
opaque powf : BitVec 32 → BitVec 32 → BitVec 32
/-- sin(2 pi n / 10^12) in millionths, for the reference of a spectroscopy run (R341); its rounding is left open. -/
opaque sine : Nat → Int
/-- The pages of a save that a slot's bytes occupy and the layout of configuration items are private to the firmware
(R430): the data bytes of configuration page `page` at offset `off` for the write numbered `n`; free. -/
opaque cfgByte : Nat → Nat → Nat → BitVec 8
/-- The layout versions of the running release: of the session record, the estimator context and the limits table for kinds 2,
3 and 4 (R289, R493): no rule gives them; free. -/
opaque layout : Nat → BitVec 16
/-- Bottom and width, in mV, of the range of a solar input's floor (R163): no rule gives them; free. -/
opaque floorLo : Nat
opaque floorSpan : Nat
/-- Whether a group of a page private to the firmware is programmed, by group index, once any item is kept (R430); free. -/
opaque itemGroup : Nat → Bool
/-- The compensator's output for a sum that its 56-bit accumulator cannot hold (R92): no rule gives it; free. -/
opaque accOverflow : Int → Int
/-- The factory gain trim of a channel's IMON (R86), as a factor on the declared gain's current; free. -/
opaque imonTrim : Nat → Rat
/-- What a tester has loaded into the PWM cells of the boundary register (R60): no row of the table carries it; free. -/
opaque boundaryCell : Nat → Bool
/-- A free number for a value the manual leaves undefined, by use; free. -/
opaque freeNat : Nat → Nat
/-- A free choice the manual leaves open, by use; free. -/
opaque freeBool : Nat → Bool

end Config
end Sys2Proof
end

