-- ==== Sys2Proof/Machine/BlocksCnv.lean ====
section
/-! DEFINITION. Sys2Proof/Machine/BlocksCnv.lean: the state records of the converters: declarations, phases, the ADC
array (chapter 3), the Schuss engine (chapter 4) and converter protection (chapter 5). Converter k is PCk for 0 to 47,
IC(k - 48) for 48 to 53 and AC for 54 (R73). Samples and references are Int in 1/65536 mV or mA (R88, R103). -/
namespace Sys2Proof
namespace Machine

/-- A converter declaration (R73); `topo` 0 is off. -/
structure Decl where
  topo : Nat := 0
  phases : Nat := 0
  spareMask : Nat := 0
  fswKhz : Nat := 500
  lNh : Nat := 0
  irateMa : Nat := 0
  imonGain : Nat := 0
  imonZeroMv : Nat := 0
  blankNs : Nat := 40
  pkPct : Nat := 150
deriving DecidableEq, Repr

/-- Protection states of a phase (R543): 0 idle, 1 in service, 2 parked, 3 fenced, 4 self-test pending, 5 running it. -/
inductive PhSt where
  | idle | inService | parked | fenced | pending | testing
deriving DecidableEq, Repr

/-- One declared phase, in the order of PHASE_FENCED (R145, R543). `cause` is the cause code of its fence. -/
structure Phase where
  st : PhSt := .idle
  cause : Nat := 0
  zeroA : Nat := 0
  zeroB : Nat := 0
  trips : Nat := 0
  skips : Nat := 0
  dropped : Nat := 0
  /-- the comparator tripped in the running period. -/
  tripped : Bool := false
  /-- the self-test result byte of R78. -/
  result : Nat := 0
  /-- time of the last IMON zero measurement (R86). -/
  zeroAt : Nat := 0
  /-- the running self-test has tested this phase (R77). -/
  tested : Bool := false
  /-- the period of the converter in which it was fenced while that ran (R141). -/
  fencedPer : Option Nat := none
deriving DecidableEq, Repr

/-- One coefficient set (R98): 28 words in Q3.20, duty clamps, mode tag and rate tag. -/
structure CoefSet where
  coef : List Int := List.replicate 28 0
  dmin : Nat := 0
  dmax : Nat := 0
  mode : Nat := 0
  rate : Nat := 0
deriving DecidableEq, Repr

/-- State of one loop of a converter (R87 to R92, R110): error history e1..e4 (newest first), output history u1..u3 in
Q1.31, the output held between executions, the last two samples, its reference, the target that IOUT, ISRC and FOLD latch at
the next resolution and that V slews to, and the target of V that waits to be latched (R103, R105). -/
structure LoopSt where
  e : List Int := [0, 0, 0, 0]
  u : List Int := [0, 0, 0]
  held : Int := 0
  y : List Int := [0, 0]
  ref : Int := 0
  target : Option Int := none
  want : Option Int := none
deriving DecidableEq, Repr

/-- The speculative bank of a period (R114, R116): per loop whether it executes, its predicted error and its predicted
sample; the references of the period; the predicted feed-forward voltage; selection, clamp state (0 none, 1 low,
2 high) and duty. -/
structure SpecBank where
  ready : Bool := false
  exec : List Bool := []
  e : List Int := []
  refs : List Int := []
  vin : Int := 0
  sel : Nat := 0
  clamp : Nat := 0
  duty : Nat := 0
deriving DecidableEq, Repr

/-- A queued recovery (R114, R116): why the period was squashed (1 LATE, 2 RESIDUAL, 3 SELECT, 4 CLAMP), its actual
errors, samples and feed-forward voltage, and the Snowplough duty where the shadow load has passed. -/
structure Pend where
  why : Nat
  e : List Int
  y : List Int
  vin : Int
  exec : List Bool
  snow : Option Nat := none
  /-- the mode the Snowplough duty stands in (R95, R115). -/
  snowMode : Nat := 0
deriving DecidableEq, Repr

/-- Loop options and tolerances (R107). -/
structure LoopCfg where
  loopEn : Nat := 0x0F
  specEn : Bool := true
  predict : Bool := true
  updateDiv : Nat := 1
  specLeadNs : Nat := 250
  vffNomMv : Nat := 60000
  mBk : Nat := 850
  mBst : Nat := 1150
  modeHyst : Nat := 20
  tolV : Nat := 24
  tolIout : Nat := 32
  tolIsrc : Nat := 32
  tolFold : Nat := 16
  tolVinMv : Nat := 500
  vslew : Nat := 200
  ssSlew : Nat := 50
deriving DecidableEq, Repr

/-- The control loop of one converter (chapter 4). -/
structure Ctrl where
  cfg : LoopCfg := {}
  sets : Vector CoefSet 8 := Vector.replicate 8 {}
  map : List Nat := List.replicate 6 0xFF
  pendMap : Option (List Nat) := none
  /-- the slot whose CNV_SET_MAP waits for the latch (R101). -/
  mapSlot : Option Nat := none
  loops : Vector LoopSt 4 := Vector.replicate 4 {}
  bank : SpecBank := {}
  /-- 0 buck, 1 transition, 2 boost (R96). -/
  mode : Nat := 0
  modeDwell : Nat := 0
  /-- the mode the running count of R96 leads to. -/
  modeNext : Nat := 0
  softStart : Bool := false
  /-- the running converter is a sourcing port's, whose VSLEW is limited (R274). -/
  srcPort : Bool := false
  period : Nat := 0
  /-- the boundary that opened period 0, in steps of 78.125 ps since the station's timebase epoch (R76). -/
  origin : Nat := 0
  /-- the update divider in force: the configured one, or 2 at the request of R366 (R102). -/
  div : Nat := 1
  /-- speculation is suspended, from the last period boundary on (R122). -/
  specOff : Bool := false
  dutyApplied : Nat := 0
  dutyNext : Nat := 0
  /-- the duty as the legs run it, 0 to 65536, pulses of under 30 ns skipped and off-intervals merged (R64), and the mode it
  stands in; the mode of the duty computed last (R90, R96). -/
  dutyEff : Nat := 0
  modeApplied : Nat := 0
  dutyMode : Nat := 0
  /-- shadow edges loaded for the next period (R65); the running period is resolved, so that the next speculation is the
  following period's (R111). -/
  loaded : Bool := false
  resolved : Bool := false
  /-- squashes whose recovery is still to run, oldest first (R117). -/
  recovery : List Pend := []
  /-- cap of the Snowplough duty from the last squash (R115). -/
  cap : Nat := 65535
  vinHist : List Int := [0, 0]
  /-- the IOUT loop holds its output until the next resolution: the charge-current loops froze with the Store's fence (R174). -/
  frozen : Bool := false
  /-- pulse skipping held the last period: every phase at mid-level (R367). -/
  idlePer : Bool := false
  /-- the last resolution was a commit (R96). -/
  committed : Bool := false
  /-- the eighth Snowplough in a row has been counted (R121). -/
  starvedDue : Bool := false
  /-- a rate change waits for the next resolution (R102). -/
  rateReq : Option Nat := none
  /-- options accepted while running, latched at the next resolution (R108). -/
  cfgPend : Option LoopCfg := none
  commits : Nat := 0
  squashes : Nat := 0
  snowploughs : Nat := 0
  snowRun : Nat := 0
  snowRunMax : Nat := 0
  sqLate : Nat := 0
  sqResidual : Nat := 0
  sqSelect : Nat := 0
  sqClamp : Nat := 0
  selChanges : Nat := 0
  sel : Nat := 0
deriving DecidableEq, Repr

/-- Converter protection (chapter 5). -/
structure Prot where
  ovPermille : Nat := 100
  ovMinMv : Nat := 500
  uvPermille : Nat := 150
  uvTimeMs : Nat := 10
  /-- the four settings of R132 accepted while running, applied at the next resolution. -/
  cfgPend : Option (Nat × Nat × Nat × Nat) := none
  prebiasTries : Nat := 0
  prebiasAt : Option Nat := none
  /-- mean of the last pre-bias check in mV, rounded down. -/
  prebiasMv : Nat := 0
  backdrive : Bool := false
  shortRun : Nat := 0
  hiccups : Nat := 0
  hiccupAt : Option Nat := none
  stableAt : Option Nat := none
  ovTimes : List Nat := []
  uvRun : Nat := 0
  derateMa : Option Nat := none
  derateAt : Option Nat := none
  ovCount : Nat := 0
  shortCount : Nat := 0
  shedCount : Nat := 0
  /-- pulse skipping (R367), parked phases (R368), park for identification (R139). -/
  pulseSkip : Bool := false
  shedPark : Nat := 0
  /-- the IOUT limit (ISRC for ICi) that a thermal LIMIT holds to 50 %, before that (R368). -/
  thmLim : Option Nat := none
  /-- half rate is requested by THROTTLE on the core die (R366). -/
  thmHalf : Bool := false
deriving DecidableEq, Repr

/-- One converter: 0 stopped, 1 starting, 2 running (soft start or steady), 3 hiccup, 4 fenced are told by `run`,
`fence` of its block and the timers. -/
structure Conv where
  decl : Decl := {}
  ph : Vector Phase 8 := Vector.replicate 8 {}
  peakPeriods : Nat := 0
  skipPeriods : Nat := 0
  run : Bool := false
  starting : Bool := false
  /-- the path to the terminal is closed: VBG for PCp, the terminal for ICi and AC. -/
  vbg : Bool := false
  /-- VBD discharges VBUS to vSafe0V (R544). -/
  vbd : Bool := false
  /-- parked by a firmware action (R157, R370, R446): stopped with references kept. -/
  parked : Bool := false
  /-- runs in reverse, a sinking port (R68). -/
  reverse : Bool := false
  /-- fenced phases that a new declaration no longer names: channel and cause (R74). -/
  staleFences : List (Nat × Nat) := []
  /-- the interleave in force: each phase in service with its offset in steps (R18, R76). -/
  inter : List (Nat × Nat) := []
  /-- the self-test waits: 0 none, 1 pending, 2 deferred for a low source (R78). -/
  selftest : Nat := 0
  /-- slot of a PHS_SELFTEST that waits for its answer (R78). -/
  selftestSlot : Option Nat := none
  ctrl : Ctrl := {}
  prot : Prot := {}
deriving DecidableEq, Repr

/-- States of one ADC of the array (R79, R82). -/
inductive AdcSt where
  | inService | ready | standin | calibrating | withdrawn | retired
deriving DecidableEq, Repr

structure AdcUnit where
  st : AdcSt := .inService
  fails : Nat := 0
deriving DecidableEq, Repr

/-- The ADC array (R79 to R85). -/
structure Adc where
  units : Vector AdcUnit 34 := Vector.ofFn fun i => { st := if 32 ≤ i.val then .ready else .inService }
  leaving : Option Nat := none
  standin : Option Nat := none
  next : Nat := 0
  rotateAt : Option Nat := none
  mismatch : Bool := false
  /-- converters whose phase-current rate is halved (R84). -/
  halved : List Nat := []
  /-- a stand-in has failed: the step waits for the next calibration (R83). -/
  retry : Bool := false
  /-- housekeeping samples dropped (R80). -/
  hkDropped : Nat := 0
deriving DecidableEq, Repr

/-- One TMON group (R71, R72, R139, R502). -/
structure Tmon where
  mv : Nat := 0
  temp : Int := 0
  open_ : Bool := false
  fault : Bool := false
  /-- the identification of R139: steps to take, the phase parked now, and its end. -/
  toPark : List (Nat × Nat) := []
  parkEnd : Option Nat := none
  /-- mask of R502: end time. -/
  maskUntil : Option Nat := none
deriving DecidableEq, Repr

/-- The Schuss engine as a whole (R119 to R123). -/
structure Engine where
  suspended : Bool := false
  starvedTimes : List Nat := []
  /-- recoveries of the last millisecond: time and CECLK cycles (R118, R123). -/
  recLog : List (Nat × Nat) := []
  recSat : Bool := false
deriving DecidableEq, Repr

end Machine
end Sys2Proof
end

