-- ==== Sys2Proof/Machine/BlocksEst.lean ====
section
/-! DEFINITION. Sys2Proof/Machine/BlocksEst.lean: the state records of the estimator (chapter 12) and of the
temperature sensors (chapter 13). IEEE-754 single values are BitVec 32; the counted state of charge and its deviation
are exact rationals. -/
namespace Sys2Proof
namespace Machine

/-- IEEE-754 single precision value (R325). -/
abbrev F32 := BitVec 32

/-- An anchor that may still pair with another in a capacity update (R346): the anchored state of charge, the charge
counted since in mA ms, and the temperatures since. -/
structure Anchor where
  soc : Rat := 0
  fit : Bool := false
  dq : Int := 0
  tSum : Int := 0
  tN : Nat := 0
deriving DecidableEq, Repr

/-- An impedance in 10 uOhm (R342, R350). -/
structure Zpt where
  re : Int := 0
  im : Int := 0
deriving DecidableEq, Repr

/-- A relaxation window (R338): 100 ms samples since the current reached zero, the running second's sum, the 1 s means
in uV, oldest first, and whether a sample carried current. -/
structure Fit where
  n : Nat := 0
  sum : Int := 0
  pts : List Int := []
  bad : Bool := false
deriving DecidableEq, Repr

/-- One estimator context (R320 to R354). States of charge and deviations are fractions of 1. -/
structure Ctx where
  active : Bool := false
  /-- counted state of charge and its deviation (R324). -/
  soc : Rat := 0
  sigma : Rat := 1 / 10
  /-- the first 1 s mean is to initialise the state of charge (R348). -/
  initDue : Bool := false
  /-- filter state s, v_p in mV, Zs in ohm, the covariance row by row, nis (R325). -/
  fs : F32 := 0
  fvp : F32 := 0
  fzs : F32 := 0
  p : List F32 := List.replicate 9 0
  nis : F32 := 0
  nisRun : Nat := 0
  /-- time of the last filter step (R327). -/
  stepAt : Nat := 0
  anchored : Bool := false
  anchorKind : Nat := 0
  /-- anchor age in ms (R337), and the age of the last FULL anchor. -/
  anchorAge : Nat := 0
  fullAge : Option Nat := none
  /-- flags of R353. -/
  noAnchor : Bool := false
  reAnchored : Bool := false
  reverted : Bool := false
  stale : Bool := false
  initFlag : Bool := false
  flat : Bool := false
  learnPending : Bool := false
  /-- activity since the last write (R349), in ms. -/
  actMs : Nat := 0
  /-- rest timer and the value it must reach for the next OCV anchor (R331). -/
  restMs : Nat := 0
  restNext : Nat := 0
  /-- 1 s voltage means in uV, newest first; the running second; a bay's readings in DONE, one a minute (R206). -/
  hist : List Int := []
  secN : Nat := 0
  secSum : Int := 0
  doneV : List Int := []
  iMa : Int := 0
  vUv : Int := 0
  temp : Int := 0
  fit : Option Fit := none
  lastFull : Option Anchor := none
  lastRest : Option Anchor := none
  /-- learned values (R350): mAh, 10 uOhm, F, and OCV_OFS in mV. -/
  hasSlot : Bool := false
  qFull : Nat := 0
  qNom : Nat := 0
  zs : Nat := 0
  zsNew : Nat := 0
  zp : Nat := 0
  cp : Nat := 0
  ocvOfs : Rat := 0
  cycles : Nat := 0
  cycAcc : Nat := 0
  z : List Zpt := List.replicate 5 {}
  /-- age of the last accepted run in ms; RESULT, temperature and amplitude of the last run (R344). -/
  eisAge : Option Nat := none
  eisResult : Nat := 0
  eisTemp : Int := 0
  eisAmp : Nat := 0
  /-- sum and number of the temperatures counted during a spectroscopy run (R344). -/
  eisSum : Int := 0
  eisN : Nat := 0
  reAnchors : Nat := 0
  fitRejects : Nat := 0
  capRejects : Nat := 0
  restAborts : Nat := 0
  /-- the pack has been away a known time (R337). -/
  awayKnown : Bool := false
deriving DecidableEq, Repr

/-- One OCV table (R329): 21 points in mV at each of three temperatures in units of R6. -/
structure OcvTab where
  temps : List Int := [0, 200, 360]
  rows : List (List Nat) := List.replicate 3 []
deriving DecidableEq, Repr

/-- The factory rows of R329. -/
def ocvLiIon : List Nat := [3000, 3300, 3450, 3530, 3580, 3610, 3640, 3660, 3680, 3710, 3740, 3780, 3820, 3860, 3900,
  3950, 3990, 4040, 4080, 4130, 4180]
def ocvLfp : List Nat := [2500, 3000, 3150, 3200, 3230, 3250, 3265, 3276, 3285, 3288, 3291, 3294, 3297, 3300, 3303,
  3306, 3310, 3320, 3340, 3370, 3450]

/-- A spectroscopy run (R341, R342): machine, frequency index, whether the frequency is being repeated, amplitude A, the
impedances measured so far by context, and the end of the present frequency. -/
structure EisRun where
  mach : Nat := 0
  idx : Nat := 0
  again : Bool := false
  ampMa : Nat := 0
  zs : List (Nat × Zpt) := []
  freqAt : Nat := 0
deriving DecidableEq, Repr

/-- The estimator as a whole (R323, R339 to R352). -/
structure Est where
  restMin : Nat := 30
  dvdt : Nat := 5
  slope : Nat := 10
  noAnchorH : Nat := 72
  restReqH : Nat := 12
  pauseAgeH : Nat := 24
  pauseSigma : Nat := 5
  eisDays : Nat := 7
  crate : Nat := 1000
  qNom : Nat := 1000
  /-- chemistry 1, then 2. -/
  tabs : Vector OcvTab 2 := Vector.ofFn fun i =>
    { rows := List.replicate 3 (if i.val = 0 then ocvLiIon else ocvLfp) }
  /-- the charge accumulators of R323 as read: 0 the Store, p + 1 the bay on Pp, in mA ms. -/
  acc : Vector Int 49 := Vector.replicate 49 0
  /-- what policy firmware had read of each accumulator when it read last (R323). -/
  accRead : Vector Int 49 := Vector.replicate 49 0
  /-- when the Store's state of charge was updated last (R37). -/
  countAt : Nat := 0
  eis : List EisRun := []
  /-- requested runs: machine and the SEQ of the command that waits for the outcome (0: none). -/
  eisQueue : List (Nat × Nat) := []
  eisAborts : Nat := 0
  /-- a synthesised rest is requested (R340); its waived conditions; when the last one ended. -/
  restReq : Bool := false
  restWaived : Bool := false
  lastSynth : Option Nat := none
  reAnchoredW1c : Bool := false
  revertedW1c : Bool := false
  learnLost : Nat := 0
  /-- the engine is stopped: its clock is lost, an early warning, a reset or a swap (R327, R443, R483, R500). -/
  halted : Bool := false
deriving DecidableEq, Repr

/-- One sensor (R356 to R362): its last reading, whether it is valid, the three thresholds it is in with their dwell
counts and transition counts, its lane, when it was read, and its transitions of the last 60 s as (threshold, time). -/
structure Sensor where
  t : Int := -32768
  valid : Bool := false
  /-- read at least once. -/
  seen : Bool := false
  inLvl : List Bool := [false, false, false]
  dwell : List Nat := [0, 0, 0]
  trans : List Nat := [0, 0, 0]
  fast : Bool := false
  /-- readings in a row more than FAST_BAND + 16 from every armed edge, for the 1 s of R359. -/
  far : Nat := 0
  readAt : Nat := 0
  changes : List (Nat × Nat) := []
deriving DecidableEq, Repr

/-- Thresholds of a sensor class (R363). -/
structure ThmClass where
  arm : Nat := 0x07
  warn : Int := 0
  throttle : Int := 0
  limit : Int := 0
  hyst : Nat := 24
  dwell : Nat := 4
  fastBand : Nat := 64
deriving DecidableEq, Repr

/-- The default thresholds of R363. -/
def thmDefault (c : Nat) : ThmClass :=
  if c ≤ 1 then { warn := 960, throttle := 1080, limit := 1160 }
  else if c = 2 then { warn := 800, throttle := 920, limit := 1000 }
  else if c = 3 then { warn := 480, throttle := 560, limit := 640 }
  else if c = 4 then { warn := 360, throttle := 400, limit := 464 }
  else { warn := 680, throttle := 760, limit := 840 }

/-- The caps and ceilings a scope holds (R369): by THROTTLE and by LIMIT, each with the end of its 30 s below the level and
the cost sum at its entry. Scopes: 0 CORE, 1 FE-E, 2 FE-W, 3 to 18 the TMON groups, 19 to 66 the ports, 67 the Store,
68 BOARD. -/
structure ThmCap where
  thr : Bool := false
  thrAt : Option Nat := none
  thrBase : Nat := 0
  lim : Bool := false
  limAt : Option Nat := none
  limBase : Nat := 0
deriving DecidableEq, Repr

/-- The thermal block (R356 to R373). -/
structure Thm where
  sensors : Vector Sensor 94 := Vector.replicate 94 {}
  classes : Vector ThmClass 6 := Vector.ofFn fun i => thmDefault i.val
  caps : Vector ThmCap 69 := Vector.replicate 69 {}
  /-- HOVER of THM_STAT, W1C. -/
  hoverSeen : Bool := false
  tsdSeen : Bool := false
deriving DecidableEq, Repr

end Machine
end Sys2Proof
end

