-- ==== Sys2Proof/Machine/BlocksHost.lean ====
section
/-! DEFINITION. Sys2Proof/Machine/BlocksHost.lean: the state records of the device level: clocks, rails, host link,
mailboxes and journal, status words, Guard, watchdogs, retention memory, power states, updates and service.
Every default is the reset value of the field; INVENTORY.md's State section lists each with its rule. A time is in ns
of State.now; an `Option Nat` named ...At is a deadline and `none` means the timer is not running. -/
namespace Sys2Proof
namespace Machine

/-- Clocks, rails, straps and pins of the device (chapters 1, 2 and 20). -/
structure Dev where
  /-- time since the always-on supply came up, in ns. -/
  now : Nat := 0
  /-- count of free values drawn (the model's own field; log entry 5). -/
  freeCtr : Nat := 0
  /-- clock islands running (R31 to R35). -/
  mclk : Bool := true
  ceclk : Bool := true
  pwmclk : Bool := true
  adcclk : Bool := true
  estclk : Bool := true
  xin : Bool := true
  usbclk : Bool := true
  tchclk : Bool := true
  aonclk : Bool := true
  /-- rails (R55) and HOLD (R445). -/
  vpreGood : Bool := false
  vioGood : Bool := false
  vcoreGood : Bool := false
  holdOk : Bool := false
  /-- the 20 us reset phase of R481 is running; recall and configuration (R436, R55). -/
  resetPhase : Bool := true
  recallDone : Bool := false
  configApplied : Bool := false
  /-- the policy firmware has started (R457). -/
  fwStarted : Bool := false
  /-- latched straps (R47, R51); `strapsLatched` says the latching moment has passed. -/
  strapsLatched : Bool := false
  hsel : Nat := 0
  hadr : Nat := 0
  dbp : Nat := 0
  bootCable : Bool := false
  /-- VBOOT as last read or fed, in mV; 0 without a source on a boot path (R170). -/
  vbootMv : Nat := 0
  /-- front-end dies that have met no heartbeat for 200 us: their CC, DP and DM pins are in their unpowered states (R59). -/
  feDark : List Nat := []
  /-- the always-on millisecond counter (R538): the counter, its 15-bit accumulator, ticks since the millisecond
  began, and the fraction of an AONCLK tick in billionths of a tick. -/
  aonMs : Nat := 0
  aonAcc : Nat := 0
  aonTick : Nat := 0
  aonFrac : Nat := 0
  /-- pins driven: IRQ lines are computed; HOSTRST_N low until (R416). -/
  hostRstUntil : Option Nat := none
  /-- the early warning of R443 is in force, and what the save left. -/
  warning : Bool := false
  /-- a BOR is due: a save has ended with the warning standing, or a SHIP entry has ended (R446, R488). -/
  borDue : Option Nat := none
  /-- the public-key engine is busy until this time (R308, R319). -/
  pkBusyUntil : Nat := 0
deriving DecidableEq, Repr

/-- The host link (R451 to R459). -/
structure HostLink where
  badOp : Bool := false
  partialWord : Bool := false
  badAddr : Bool := false
  slotBusy : Bool := false
  scratch : Nat := 0
  /-- continuation address of R455 with its NOINC bit. -/
  contAddr : Nat := 0
  contNoinc : Bool := false
  /-- HSTAT bit 1: the previous transaction set a DEV_HOST_ERR bit. -/
  prevErr : Bool := false
  /-- bytes the device drove in the last transaction. -/
  out : List Byte := []
deriving DecidableEq, Repr

/-- States of a mailbox slot (R460). -/
inductive SlotState where
  | empty | submitted | executing | done
deriving DecidableEq, Repr

/-- A mailbox slot but for its bytes (R460 to R464). `jseq` is the journal entry of the accepted command, `code` its
code; `deferred` says the command has begun its work and answers later (R101, R448, R78). -/
structure Slot where
  st : SlotState := .empty
  abn : Bool := false
  rej : Bool := false
  jseq : Nat := 0
  code : Nat := 0
  deferred : Bool := false
deriving DecidableEq, Repr

/-- Journal entry states (R469). -/
inductive JState where
  | accepted | executing | done | failed | abandoned
deriving DecidableEq, Repr

/-- A Crumbs entry (R469). `answered` says its response has been written (R471). -/
structure JEntry where
  seq : Nat := 0
  acceptMs : Nat := 0
  doneMs : Nat := 0
  tag : Nat := 0
  argCrc : Nat := 0
  code : Nat := 0
  result : Nat := 1
  cls : Nat := 0
  slot : Nat := 0
  st : JState := .accepted
  dups : Nat := 0
  detail : Nat := 0
  answered : Bool := false
deriving DecidableEq, Repr

/-- The mailboxes and the journal, in the exchange memory (R25, R460 to R474). Slot bytes lie in `mem` at
0x1000 + 0x400 s for host slots and at 0x2000 for the Stavska slot, which no host address reaches. -/
structure Mbx where
  slots : Vector Slot 5 := Vector.replicate 5 {}
  mem : List (Nat × Byte) := []
  /-- submitted slots in order of arrival (R464). -/
  order : List Nat := []
  /-- slots of accepted commands that have not answered yet, in order of acceptance (R467). -/
  accepted : List Nat := []
  /-- 64-bit words of the exchange memory with an uncorrectable error (R28), by byte address. -/
  eccBad : List Nat := []
  /-- PD cores whose next message lies in words with an uncorrectable error (R25, R28). -/
  eccPd : List Nat := []
  /-- journal ring, oldest first, at most 1024 (R469); next SEQ; waiting INTERNAL entries (R473). -/
  ring : List JEntry := []
  nextSeq : Nat := 1
  waiting : List JEntry := []
  lost : Nat := 0
deriving DecidableEq, Repr

/-- One entry of a block's cause detail list (R384). -/
structure Detail where
  code : Nat := 0
  consequential : Bool := false
  merged : Bool := false
  origin : Nat := 0xFF
  count : Nat := 1
  timeMs : Nat := 0
deriving DecidableEq, Repr

/-- A block's status word (R376) with its detail list (R384) and routing (R383). `sticky` holds the recorded causes
whose category bit is not cleared, as (code, severity); `live` the causes present now. STATE is computed by R377
from the block's declaration, `resetting`, `fence`, `updating`, its units, `live` and `sticky`. `fence` is the cause
code of the block's fence. -/
structure Blk where
  first : Nat := 0
  sev : Nat := 0
  sticky : List (Nat × Nat) := []
  live : List (Nat × Nat) := []
  resetting : Bool := false
  fence : Option Nat := none
  updating : Bool := false
  firstMs : Nat := 0
  firstTick : Nat := 0
  maxSev : Nat := 0
  occur : Nat := 0
  merged : Nat := 0
  details : List Detail := []
  /-- the reaction in progress (R388): its severity and the time it ends at the latest. -/
  reactSev : Nat := 0
  reactUntil : Option Nat := none
  causeEn : BitVec 8 := 0xFF
  liveEn : BitVec 8 := 0
  en : Bool := false
  line : Nat := 0
deriving DecidableEq, Repr

/-- A consequence window (R391): the fenced block, the kind of fence, and its end. -/
inductive WinKind where
  | port | input | store | pdCore | die
deriving DecidableEq, Repr

structure Window where
  origin : Nat
  kind : WinKind
  /-- the unit: port, input, PD core or die. -/
  unit : Nat
  endAt : Nat
  /-- the ports a fenced PD core served. -/
  ports : List Nat := []
deriving DecidableEq, Repr

/-- A limits table of the Guard (R393, R501). -/
structure Limits where
  vcs : Nat := 52800
  syss : Nat := 61000
  auxs : Nat := 63000
  critHi : Nat := 61000
  critLo : Nat := 8000
  peaks : List Nat := List.replicate 256 60000
deriving DecidableEq, Repr

/-- A policy processor (R22, R385, R397, R542). `image` is 0 for the pointer's region and 1 for the staged one. -/
structure Proc where
  running : Bool := false
  halted : Bool := false
  sync : Bool := false
  image : Nat := 0
  /-- the automatic PPR is due (R385). -/
  pprAt : Option Nat := none
  /-- the check-in mirror: the processor acts as holder (R398). -/
  actsHolder : Bool := false
deriving DecidableEq, Repr

/-- The Bib and the Guard (R393 to R403). `owner` is 0 none, 1 PP-A, 2 PP-B. -/
structure Guard where
  owner : Nat := 0
  hold : Bool := false
  holdParked : Bool := false
  holdAt : Option Nat := none
  failovers : Nat := 0
  handovers : Nat := 0
  procs : Vector Proc 2 := Vector.replicate 2 {}
  /-- a handover in progress: its journal SEQ (0 for an update's own). -/
  handover : Option Nat := none
  /-- a failover in progress: the old holder (1 or 2), and the end of the 20 us for its acknowledge. -/
  failingProc : Option Nat := none
  haltAckBy : Option Nat := none
  /-- when OWNER last moved in a failover, for the escalation of R397. -/
  lastFailover : Option Nat := none
  holdTimeS : Nat := 10
  /-- HOST_LOST PARK applied (R416), and the parking walk of R400: next port, due time. -/
  wdhPark : Bool := false
  parkNext : Option Nat := none
  parkAt : Option Nat := none
  /-- the ports that R400 or a PARK profile holds at the park level. -/
  parkedPorts : List Nat := []
  /-- the next holder is the first after a station reset, which has ended the work of every command (R471). -/
  afterReset : Bool := false
  /-- both processors stay halted after a further ESC (R485). -/
  escHalt : Bool := false
  limits : Limits := {}
  shadow : Option Limits := none
  windows : List Window := []
  /-- clock whose loss fences every converter (R33): a bit mask, bit 1 CECLK, 2 PWMCLK, 3 ADCCLK. -/
  clkLost : Nat := 0
  /-- junction shutdown: in force, released at, held by a second one (R370, R371). -/
  tsd : Bool := false
  tsdReleased : Option Nat := none
  tsdHeld : Bool := false
  tsdSeen : Bool := false
  /-- converters waiting for the restart of R371, R393 or R446, in order. -/
  restarts : List Nat := []
  restartAt : Option Nat := none
  /-- SYS_CRIT has stopped the input and sinking converters (R393). -/
  sysCritHi : Bool := false
deriving DecidableEq, Repr

/-- WDH configuration (R411). -/
structure WdhCfg where
  periodMs : Nat := 1000
  win : Nat := 0
  compat : Bool := false
  autostart : Bool := false
  park : Bool := false
deriving DecidableEq, Repr

inductive WdhState where
  | off | running | hostLost
deriving DecidableEq, Repr

/-- The host watchdog (R404 to R418). `cfgKnown` says recall has loaded the configuration (R10). -/
structure Wdh where
  st : WdhState := .off
  count : Nat := 0
  /-- the tick prescaler, in ns of the running tick. -/
  presc : Nat := 0
  /-- CLOSE and OPEN in force, in ticks (R404, R415). -/
  close : Nat := 1000000
  openAt : Nat := 0
  /-- the count waits for recall or the end of the reset phase (R412). -/
  waiting : Bool := false
  lock : Bool := false
  lock1600 : Bool := false
  expired : Bool := false
  early : Bool := false
  badKey : Bool := false
  expiries : Nat := 0
  /-- cycles since the first key of R413, while it is pending. -/
  firstKey : Option Nat := none
  cfg : WdhCfg := {}
  cfgKnown : Bool := false
  /-- MODE and AUTOSTART as last written, which apply from the next reset (R415). -/
  nextCompat : Bool := false
  nextAutostart : Bool := false
deriving DecidableEq, Repr

/-- The Slalom watchdog (R419 to R427). -/
structure Wds where
  enabled : Bool := false
  periodMs : Nat := 50
  mask : Nat := 0x0FFF
  periodAt : Option Nat := none
  tokens : Vector (BitVec 24) 16 := Vector.replicate 16 0
  passed : Nat := 0
  doubled : Nat := 0
  missedLast : Nat := 0
  doubledLast : Nat := 0
  faults : Nat := 0
  badTokens : Nat := 0
  rejects : Nat := 0
  lastMs : Nat := 0
  /-- WD_COUNT and WD_TARGET (R425, R426). -/
  wdCount : Nat := 0
  wdTarget : Nat := 0
deriving DecidableEq, Repr

/-- What a read returns for a group (R431). -/
inductive GStat where
  | ok | corrected | blank | unc
deriving DecidableEq, Repr

/-- What a queued page write is for (R434). -/
inductive NvmKind where
  | save | counter | config | learned | checkpoint | host | hostErase
deriving DecidableEq, Repr

/-- A page write: page, the 64 bytes to program (none: erase only), kind, and the slot whose command waits for it. -/
structure PageWrite where
  page : Nat
  /-- the bytes to program; of a host write that has not begun, the bytes to merge from offset `off` on (R432, R433). -/
  bytes : Option (List Byte) := none
  off : Nat := 0
  kind : NvmKind
  slot : Option Nat := none
  /-- the learned context, or the configuration item (command code and key), that the write belongs to. -/
  ctx : Option Nat := none
  item : Option (Nat × Nat) := none
  /-- when the controller began the write. -/
  startAt : Nat := 0
deriving DecidableEq, Repr

/-- The fast values of R441 but for the plug counts and the Store contexts, which their own blocks hold. -/
structure Fast where
  runNs : Nat := 0
  eIn : List Nat := List.replicate 6 0
  ePortOut : Nat := 0
  ePortIn : Nat := 0
  eStoChg : Nat := 0
  eStoDsg : Nat := 0
  eAux : Nat := 0
deriving DecidableEq, Repr

/-- An item kept in a paired slot whose page layout is private to the firmware (R430, R437): the payload of the command
that set it, under its code and key, with the two copies (SEQ and payload; none: not valid) and what is chosen. -/
structure CfgItem where
  code : Nat
  key : Nat
  a : Option (Nat × List Byte) := none
  b : Option (Nat × List Byte) := none
  chosenB : Bool := false
  reverted : Bool := false
deriving DecidableEq, Repr

/-- The retention memory (R429 to R450). `bytes` holds programmed bytes by byte address, `stat` the status of each
group by group index; an unlisted group is BLANK and an unlisted byte 0xFF. -/
structure Nvm where
  bytes : List (Nat × Byte) := []
  stat : List (Nat × GStat) := []
  cur : Option PageWrite := none
  queue : List PageWrite := []
  /-- device writes since the last host write, for the share of R434. -/
  sinceHost : Nat := 0
  /-- configuration and pack identity items (pages 184-439 and 984-2007). -/
  items : List CfgItem := []
  fast : Fast := {}
  /-- SEQ of the newest image and the next image of the ring (R441, R442). -/
  imageSeq : Nat := 0
  ringNext : Nat := 0
  checkpointAt : Option Nat := none
  saveUsed : Bool := false
  saveTorn : Bool := false
  reverted : Bool := false
  unc : Bool := false
  corrected : Nat := 0
  pdwSysMv : Nat := 5500
  /-- the save that has run last and is not yet consumed: KIND of R441 (2 warning, 3 command), and the slot that
  waits for its answer. -/
  saving : Option Nat := none
  /-- the read-back of R434 is due when XIN returns. -/
  reverify : Bool := false
deriving DecidableEq, Repr

inductive PwrState where
  | run | quiet | standby | ship
deriving DecidableEq, Repr

/-- Power states and resets (R479 to R491). -/
structure Pwr where
  st : PwrState := .run
  lastReset : Nat := 0
  lastWake : Nat := 0
  /-- times of the ESC resets of the last 10 min (R485). -/
  escTimes : List Nat := []
  /-- BOR, PIN, SWR, ESC, PPR, BLK, FER, SHIP wakes. -/
  counts : List Nat := List.replicate 8 0
  standbyS : Nat := 0
  borCause : Nat := 0
  wakeEn : Nat := 0x1F
  quietAfterS : Nat := 300
  wakeTimerS : Nat := 0
  wakeAt : Option Nat := none
  shipLatch : Bool := false
  /-- CUTOFF retained in the always-on domain (R198). -/
  cutoff : Bool := false
  /-- a PWR_STATE_SET in progress: the state, and its journal SEQ (R487). -/
  stateDue : Option Nat := none
  stateSeq : Nat := 0
  /-- a PWR_RESET that has answered and is due: KIND and UNIT (R482). -/
  resetDue : Option (Nat × Nat) := none
  /-- BLK resets in progress: block and end. -/
  blkAt : List (Nat × Nat) := []
  /-- FER in progress per die: end, and the automatic FER (R484). -/
  ferAt : Vector (Option Nat) 2 := Vector.replicate 2 none
  ferAuto : Vector (Option Nat) 2 := Vector.replicate 2 none
  ferTimes : Vector (List Nat) 2 := Vector.replicate 2 []
deriving DecidableEq, Repr

/-- A Zynvo container as far as its checks read it (R493, R494): header fields and the staged bytes. -/
structure Region where
  /-- verdict of the last check as a start would judge it: bootable. -/
  bootable : Bool := false
  version : Nat := 0
  arb : Nat := 0
  layout : Nat := 0
  bytes : List Byte := []
deriving DecidableEq, Repr

inductive UpdState where
  | idle | receiving | verifying | applying | probation | done | failed
deriving DecidableEq, Repr

/-- The update session and the code flash (R493 to R501). Regions are indexed kind - 1 for bank A and 3 + kind for
bank B. -/
structure Upd where
  st : UpdState := .idle
  kind : Nat := 0
  target : Nat := 0xFF
  size : Nat := 0
  received : Nat := 0
  verdict : Nat := 0
  step : Nat := 0
  seq : Nat := 0
  ptrBank : Vector Nat 4 := Vector.replicate 4 0
  regions : Vector Region 8 := Vector.ofFn fun i => { bootable := i.val < 4 }
  /-- PD cores still to update, and those already updated. -/
  coresLeft : List Nat := []
  coresDone : List Nat := []
  timerAt : Option Nat := none
  /-- ports to move back to the updated core. -/
  moveBack : List Nat := []
  /-- contexts that recorded FILTER_RESET in the probation of R500. -/
  resets : List Nat := []
  /-- the old holder that still runs the old image (R498), or the holder that prepared a limits table (R501): OWNER. -/
  former : Nat := 0
deriving DecidableEq, Repr

/-- A perturbation (R520). -/
structure Ptb where
  id : Nat
  kind : Nat
  target : Nat
  value : Int
  endAt : Nat
  /-- over the link or by a host command, for R514. -/
  remaining : Nat := 0
deriving DecidableEq, Repr

/-- The Stavska link, the technician's authentication, the TAP and the perturbation unit (chapter 19). `link` is 0
idle, 2 starting, 3 running; an arm alone is `armPort`. -/
structure Svc where
  armPort : Option Nat := none
  armAt : Option Nat := none
  link : Nat := 0
  port : Nat := 0xFF
  service : Bool := false
  testPerm : Bool := false
  lastFail : Nat := 0
  authFails : Nat := 0
  lockoutAt : Option Nat := none
  nonce : Option (BitVec 256) := none
  nonceAt : Option Nat := none
  techId : List Byte := List.replicate 8 0
  linkStart : Nat := 0
  frames : Nat := 0
  idleAt : Option Nat := none
  swapTries : Nat := 0
  swapAt : Option Nat := none
  noPdAt : Option Nat := none
  enumAt : Option Nat := none
  configured : Bool := false
  pullup : Bool := false
  /-- bytes sent on the stream by the last response (R510). -/
  out : List Byte := []
  frameAt : Option Nat := none
  /-- bytes of a frame still incomplete (R510). -/
  frameBuf : List Byte := []
  unlockAt : Option Nat := none
  ptbs : List Ptb := []
  /-- TAP: current instruction opcode (R517). -/
  tap : Nat := 0x01
deriving DecidableEq, Repr

end Machine
end Sys2Proof
end

