-- ==== Sys2Proof/Machine/BlocksPath.lean ====
section
/-! DEFINITION. Sys2Proof/Machine/BlocksPath.lean: the state records of the power path and its inputs (chapter 6),
the charge machines and AUX (chapter 7) and Lift (chapter 8). -/
namespace Sys2Proof
namespace Machine

/-- Battery FET modes (R147). -/
inductive BfetMode where
  | off | on | diode | linear
deriving DecidableEq, Repr

/-- The SYS path (R147 to R151, R165 to R177). -/
structure Path where
  mode : BfetMode := .off
  /-- a mode transition in progress: the mode it goes to and its end (R151). -/
  toMode : Option BfetMode := none
  transAt : Option Nat := none
  /-- BFG drive setpoint of LINEAR in mA, and its cap (R150). -/
  linMa : Nat := 0
  linCapped : Bool := false
  revBlock : Bool := false
  /-- configuration (R165). -/
  sysMinCfg : Nat := 0
  sysFoldCfg : Nat := 0
  /-- SYS_MIN and SYS_FOLD in force: configured, or derived from the profile (R165). -/
  sysMin : Nat := 0
  sysFold : Nat := 1000
  pdCapMw : Nat := 10000
  vStep : Nat := 20
  donorPol : Nat := 1
  iStep : Nat := 50
  diodeOfs : Nat := 200
  donorSoc : Nat := 30
  bootPwrW : Nat := 45
  sysTgt : Nat := 3000
  /-- the last Store voltage after a removal, or a host target, governs SYS_TGT (R166). -/
  sysTgtSet : Bool := false
  sysLow : Bool := false
  /-- SYS_CRIT_LO, an ended warning or an abandoned entry to SHIP has stopped the converters, which wait for SYS (R393, R446):
  `warnRestart` lists those that restart by themselves. -/
  restartWait : Bool := false
  warnRestart : List Nat := []
  /-- port restarts owed after SYS_LOW, in order. -/
  lowRestart : List Nat := []
  bootSink : Option Nat := none
  bootCapsAt : Option Nat := none
  storePresent : Bool := false
  /-- an accepted Store is reached by slewing SYS to it before its mode is chosen (R175). -/
  joining : Bool := false
  /-- a Store found at power-up is judged by its taps in the first round that reads them (R175). -/
  storeJudge : Bool := false
  /-- the Store start circuit holds both gates on until VIO is good (R168). -/
  startCkt : Bool := false
  /-- VSTS measured last, mean of SYSS and Store current of the housekeeping round. -/
  vstsMv : Nat := 0
  sysMv : Nat := 0
  auxMv : Nat := 0
  /-- donors admitted, in order of admission (R160), and those withdrawn under R161. -/
  donors : List Nat := []
  /-- donors are withdrawn at this time, 10 s after their condition ended (R161). -/
  donorEndAt : Option Nat := none
  withdrawn : List Nat := []
deriving DecidableEq, Repr

/-- One input (R152 to R164). -/
structure Input where
  typ : Nat := 0
  rank : Nat := 0
  enable : Bool := false
  startPath : Bool := false
  ilimMa : Nat := 100
  vfloorMv : Nat := 0
  vmaxMv : Nat := 160000
  presentMv : Nat := 3000
  stepMv : Nat := 250
  periodMs : Nat := 100
  scanS : Nat := 300
  foc : Nat := 780
  vehHoldS : Nat := 60
  present : Bool := false
  parked : Bool := false
  scanning : Bool := false
  /-- stopped by 1 IN_OV or 2 REVERSE, until the restart of R155 or R156. -/
  stopped : Nat := 0
  effRank : Nat := 0xFF
  /-- VINS_INi as last read by an event. -/
  vinMv : Nat := 0
  vocMv : Nat := 0
  /-- the floor in force (R153). -/
  floorNow : Nat := 0
  pmppMw : Nat := 0
  lastPower : Nat := 0
  dirUp : Bool := true
  /-- next scan, end of the scan in progress, time of the last one (R163). -/
  scanAt : Option Nat := none
  scanEndAt : Option Nat := none
  lastScan : Option Nat := none
  scanSkipped : Nat := 0
  /-- the first second of a vehicle (R157), and its system once known. -/
  vehDetAt : Option Nat := none
  veh24 : Option Bool := none
  /-- restart after REVERSE (R156). -/
  restartAt : Option Nat := none
deriving DecidableEq, Repr

/-- The charge profile of a battery (R180), defaults taken; `valid` says one is in force (R181). -/
structure Profile where
  chem : Nat := 1
  cells : Nat := 0
  term : Nat := 0
  ov : Nat := 0
  rech : Nat := 0
  maint : Nat := 0
  pre : Nat := 0
  cut : Nat := 0
  dead : Nat := 0
  iCc : Nat := 0
  iDsg : Nat := 0
  iPre : Nat := 0
  iTerm : Nat := 0
  ramp : Nat := 0
  preMin : Nat := 0
  fastMin : Nat := 0
  topoffMin : Nat := 0
  maintH : Nat := 0
  topoffEn : Bool := false
  maintEn : Bool := false
  chgEn : Bool := false
  sntc : Nat := 0x0F
  valid : Bool := false
deriving DecidableEq, Repr

/-- Temperature windows (R189), in units of R6. -/
structure Twin where
  tCold : Int := 0
  tCool : Int := 80
  tWarm : Int := 360
  tHot : Int := 440
  tDsgCold : Int := -160
  tDsgHot : Int := 480
  hyst : Nat := 16
  dwell : Nat := 4
  coolPct : Nat := 50
  warmDv : Nat := 100
deriving DecidableEq, Repr

/-- Charge machine states, in code order (R182). -/
inductive ChgSt where
  | off | check | precharge | softstart | cc | cv | topoff | done | recharge | maint | suspended | stopped
deriving DecidableEq, Repr

/-- A charge timer (R193, R194): value, span and limited seconds. -/
structure ChgTimer where
  runMs : Nat := 0
  spanS : Nat := 0
  limS : Nat := 0
deriving DecidableEq, Repr

/-- One side of the windows (R190): 0 Normal, 1 Cool or Warm, 2 Cold or Hot, and the dwell counts of moving to 1, to 2
and back one step. -/
structure Side where
  v : Nat := 0
  n1 : Nat := 0
  n2 : Nat := 0
  back : Nat := 0
deriving DecidableEq, Repr

/-- One charge machine: 0 the Store's, p + 1 the bay's on Pp (R182 to R206). -/
structure ChgM where
  prof : Profile := {}
  /-- the windows of a pack; the Store's where it carries none (R206). -/
  twin : Option Twin := none
  st : ChgSt := .off
  /-- CAUSE of R202. -/
  cause : Nat := 0
  /-- V_CHG of R184 and I_CHG of R185 as they stand. -/
  vChg : Nat := 0
  iNow : Nat := 0
  /-- the soft-start ramp in mA (R182). -/
  rampMa : Nat := 0
  /-- I_CHG rises from 0 at I_RAMP to its value (R151, R339). -/
  rise : Bool := false
  /-- the thermal limit I_THM of R185, in % of I_STATE (R364). -/
  thmPct : Nat := 100
  /-- I_CHG is replaced by I_BIAS of a spectroscopy run (R341), or held at 0 in a proofing pause (R339). -/
  bias : Option Nat := none
  paused : Bool := false
  /-- one pause has run in the present cycle (R339); a pause is requested by command (R354); since when the machine has been
  in CC or CV. -/
  pauseRun : Bool := false
  pauseReq : Bool := false
  ccSince : Nat := 0
  vMv : Nat := 0
  iMa : Int := 0
  chgEn : Bool := true
  cold : Side := {}
  hot : Side := {}
  /-- the discharge window of R192 with its dwell counts, cold then hot: `v` is 0 or 2. -/
  dsgCold : Side := {}
  dsgHot : Side := {}
  tMin : Int := 0
  tMax : Int := 0
  winTransitions : Nat := 0
  preT : ChgTimer := {}
  fastT : ChgTimer := {}
  /-- the timer has run to its length: its expiry is due (R194). -/
  expired : Bool := false
  /-- the running timer has stopped for the rest of its cycle: termination governed its expiry (R207). -/
  timerOff : Bool := false
  limited : Bool := false
  restarted : Bool := false
  fullAnchor : Bool := false
  warmDone : Bool := false
  imbTrim : Nat := 0
  maintChg : Bool := false
  /-- consecutive unlimited seconds below the termination current (R187, R183). -/
  termRun : Nat := 0
  /-- evaluations in a row for which the running condition of R183 or R188 has held. -/
  condRun : Nat := 0
  /-- when TOPOFF, DONE or MAINT was entered, and the charge count then (R183). -/
  entered : Nat := 0
  mark : Int := 0
  /-- a FULL request (R200) waits for the next evaluation. -/
  fullReq : Bool := false
  /-- a new cycle in CHECK at the next evaluation (R181, R481). -/
  newCycle : Bool := false
  /-- CHG_OC: the 50 ms persistence (R196), suspensions, and the end of the 10 s of R183. -/
  ocAt : Option Nat := none
  ocTimes : List Nat := []
  ocUntil : Option Nat := none
  /-- suspended by the pack link: 8 PACK_STOP, 9 NO_LINK (R202, R206). -/
  linkStop : Nat := 0
deriving DecidableEq, Repr

/-- The Store's measurements (R176, R190, R197): taps, whether a round has read them since FE-W rejoined, windows. -/
structure Store where
  twin : Twin := {}
  taps : List Nat := List.replicate 17 0
  tapsRead : Bool := false
  cellLane : Bool := false
  /-- 1 s away from both limits ends the lane (R197). -/
  laneAway : Nat := 0
deriving DecidableEq, Repr

/-- The AUX rail (R203 to R205). -/
structure Aux where
  enable : Bool := false
  policy : Nat := 0
  cls : Nat := 1
  soc : Nat := 20
  voutMv : Nat := 5000
  ilimMa : Nat := 100
  holdS : Nat := 30
  /-- AC is wanted: ENABLE, and POLICY met or within HOLD_S of it (R204). -/
  wants : Bool := false
  running : Bool := false
  holdAt : Option Nat := none
  /-- CNV_REF_SET has overridden FOLD, and IOUT with this value, until the next STO_AUX_CFG or start (R204). -/
  foldOver : Bool := false
  iOver : Option Nat := none
deriving DecidableEq, Repr

/-- A holder of passes (R214, R228): 0-47 ports, 48 AUX, 49 Store charge. -/
structure Holder where
  /-- the holder has a pass: a sourcing port from attach, a bay's machine, AUX, the Store charge. -/
  held : Bool := false
  req : Nat := 0
  grant : Nat := 0
  /-- when the pass was made (R217, R228). -/
  since : Nat := 0
  /-- the grant before a reclaim, its place in the order of reclaims, and to what level: 1 a thermal cap, 3 floor, 4 park (R217,
  R220, R369). -/
  want : Option Nat := none
  reclaimedAt : Nat := 0
  level : Nat := 0
  /-- a renegotiation under R218, and its deadline. -/
  renego : Bool := false
  hardAt : Option Nat := none
  restoring : Bool := false
  /-- a request that waits: its power, its place in the order of arrival, cycles held over (R216). -/
  pending : Option Nat := none
  arrival : Nat := 0
  heldOver : Nat := 0
  /-- a published grant not yet delivered (R208), and whether it answers a request. -/
  deliver : Bool := false
  answers : Bool := false
  /-- the pass when a thermal cap took hold; 0 where there was none yet (R364, R369). -/
  thmBase : Option Nat := none
  /-- the measured power counts in place of the grant: cycles in a row within the margin so far (R219). -/
  meas : Option Nat := none
deriving DecidableEq, Repr

/-- A spectroscopy grant (R223): machine, reserve in mW, end. -/
structure EisGrant where
  mach : Nat
  reserve : Nat
  endAt : Nat
deriving DecidableEq, Repr

/-- Lift (R208 to R230). -/
structure Lift where
  ovhMw : Nat := 8000
  resMw : Nat := 10000
  effIn : Nat := 960
  effOut : Nat := 950
  bridgeMinS : Nat := 600
  reclaimHardMs : Nat := 500
  floorMw : Nat := 7500
  restoreS : Nat := 30
  socRes : Nat := 5
  socTaper : Nat := 20
  restMargin : Nat := 10
  holders : Vector Holder 50 := Vector.replicate 50 {}
  /-- reclaims made so far: the order of R220. -/
  cuts : Nat := 0
  /-- a class set by LFT_CLASS_SET (R225); none takes the default of R214. -/
  classSet : Vector (Option Nat) 48 := Vector.replicate 48 none
  /-- terms of the last published cycle (R227). -/
  capIn : Nat := 0
  capDonor : Nat := 0
  aSt : Nat := 0
  s : Nat := 0
  cost : Nat := 0
  dMax : Nat := 0
  eAvail : Nat := 0
  chargeGrant : Nat := 0
  cycle : Nat := 0
  /-- the last cycle reclaimed, and its highest step (R217, R226). -/
  reclaimed : Bool := false
  step : Nat := 0
  stale : Bool := false
  overrun : Bool := false
  /-- the rest grant in force and its end (R222). -/
  restAt : Option Nat := none
  /-- S has been below the cost since a second before this time, while a rest is in force (R222). -/
  restLowAt : Option Nat := none
  eis : List EisGrant := []
  lastReclaim : Option Nat := none
  /-- 4 D_MAX less 5 deficits of past cycles with their times, oldest first, those that a later smaller one hides left
  out (R220). -/
  head : List (Nat × Int) := []
  arrivals : Nat := 0
  cycleAt : Option Nat := none
  /-- the last allowance computed from a fresh state of charge (R37). -/
  lastAllow : Nat := 0
deriving DecidableEq, Repr

end Machine
end Sys2Proof
end

