-- ==== Sys2Proof/Machine/BlocksPort.lean ====
section
/-! DEFINITION. Sys2Proof/Machine/BlocksPort.lean: the state records of the ports and the UI (chapter 9), of the PD
sessions and cores (chapter 10) and of the pack bays (chapter 11). -/
namespace Sys2Proof
namespace Machine

/-- Type-C states of a port, in the order of their codes (R234). -/
inductive TcSt where
  | disabled | errorRecovery | unattachedSrc | attachWaitSrc | attachedSrc | unattachedSnk | attachWaitSnk | attachedSnk
  | trySrc | tryWaitSnk | trySnk | tryWaitSrc | moistHold | bay
deriving DecidableEq, Repr

/-- Findings of a moisture check, in the order of R249. -/
inductive Finding where
  | clean | damp | wet | corroded
deriving DecidableEq, Repr

/-- One pin's last measurement (R249): R_KOHM (0xFFFF open or not measured) and VOFF in mV. -/
structure PinRec where
  rKohm : Nat := 0xFFFF
  voff : Int := 0
deriving DecidableEq, Repr

/-- One port (R231 to R252, R260, R526). -/
structure Port where
  mode : Nat := 0
  role : Nat := 0
  rpMax : Nat := 2
  /-- bit 0 VCONN_EN, bit 1 BC12_EN. -/
  flags : Nat := 3
  tc : TcSt := .disabled
  /-- TRY of R260 as it stands since the last Unattached entry: 0 source only, 1 Try.SRC, 2 Try.SNK, 3 dead-battery
  sink (R233). -/
  behav : Nat := 0
  /-- the active CC line: 0 CC1, 1 CC2. -/
  cc : Nat := 0
  ra : Bool := false
  vconn : Bool := false
  vconnOc : Bool := false
  vconnMa : Nat := 0
  dcp : Bool := false
  /-- Rp presented as source: 0 Default, 1 1.5 A, 2 3.0 A. -/
  rp : Nat := 0
  /-- Rp the partner presents while Pp is a sink (R283). -/
  partnerRp : Nat := 0
  plugs : Nat := 0
  accessory : Bool := false
  /-- debounce, toggle, try and recovery timers (R235); `debounced` says tCCDebounce is over. -/
  debounceAt : Option Nat := none
  debounced : Bool := false
  toggleAt : Option Nat := none
  tryAt : Option Nat := none
  recoverAt : Option Nat := none
  /-- the finding in force, and WET or CORRODED released by no run yet (R247, R248). -/
  finding : Finding := .clean
  /-- the finding of the last check, DRY_RUN, and per pin the checks in a row with VOFF above 50 mV (R249). -/
  last : Finding := .clean
  dry : Nat := 0
  ofsRuns : List Nat := [0, 0, 0, 0, 0]
  kind : Nat := 0
  pins : List PinRec := List.replicate 5 {}
  /-- the check in progress: its kind and end (R244); a clean pre-VBUS check has ended. -/
  checkKind : Nat := 0
  checkEndAt : Option Nat := none
  checkOk : Bool := false
  /-- time and number of the last check, and the next idle check (R244). -/
  checkedAt : Option Nat := none
  checks : Nat := 0
  checkAt : Option Nat := none
  corroded : Bool := false
  /-- a clear of R248 waits for the check in progress to end (R261). -/
  clearDue : Bool := false
  /-- the attachment keeps its 5 V limit (R247, R248). -/
  damp5 : Bool := false
  /-- a check has run since the last finding of the station (R251). -/
  washChecked : Bool := true
  /-- pins held off by R526. -/
  pinsOff : List Nat := []
  /-- VBS as last read by an event. -/
  vbsMv : Nat := 0
  /-- a strapped dead-battery port, sink until its first detach (R233). -/
  dead : Bool := false
  /-- a shed or a VBUS criterion held off until the Hard Reset is over (R278). -/
  draw : Bool := true
deriving DecidableEq, Repr

/-- One touch key and its LED (R253 to R258). Readings are in 0.01 pF; `base` counts them in 1/8000 (R255). -/
structure Key where
  ledDma : Nat := 80
  dimPct : Nat := 20
  touchEn : Bool := true
  ledEn : Bool := true
  delta : Nat := 50
  /-- the host's pattern and level (R254). -/
  hostLed : Option Nat := none
  level : Nat := 100
  base : Nat := 0
  seeded : Bool := false
  overCnt : Nat := 0
  under : Nat := 0
  pressed : Bool := false
  /-- milliseconds of the last confirmed press. -/
  pressAt : Nat := 0
  held : Bool := false
  longHeld : Bool := false
  holdAt : Option Nat := none
  longAt : Option Nat := none
  stuckAt : Option Nat := none
  /-- the SERVICE window and the report times of the taps it withholds (R256). -/
  serviceAt : Option Nat := none
  taps : List Nat := []
  /-- WATER waits for a stable reading (R255). -/
  water : Bool := false
deriving DecidableEq, Repr

/-- A UI event (R259): time in ms, port, gesture, armed. -/
structure UiEvent where
  timeMs : Nat
  port : Nat
  gesture : Nat
  armed : Bool
deriving DecidableEq, Repr

/-- The UI and washdown (R250 to R259). -/
structure Ui where
  keys : Vector Key 48 := Vector.replicate 48 {}
  events : List UiEvent := []
  dropped : Nat := 0
  /-- the next frame and the frames since the last measured one (R253). -/
  frameAt : Option Nat := none
  frames : Nat := 0
  washdown : Bool := false
  autoExit : Bool := false
  /-- when any port last had a WET, DAMP or CORRODED finding (R251), in ns. -/
  lastFind : Nat := 0
deriving DecidableEq, Repr

/-- Messages the device sends (R266). -/
inductive PdMsg where
  | sourceCaps (objs : List PdObj) (epr : Bool)
  | request (r : PdReq)
  | accept | reject | wait | psRdy | softReset | drSwap
  | eprEnter | eprAck | eprSucceeded | eprFailed | eprExit | keepAlive | keepAliveAck
  | sinkCaps (objs : List PdObj)
  | notSupported | getStatus | status | ppsStatus | srcCapExtended | revision | sourceInfo | manufacturerInfo
  | alert (bits : Nat)
  | discoverIdentity | vdmAck | vdmNak
  /-- Hard Reset signalling. -/
  | hardReset
deriving DecidableEq, Repr

/-- What a session's policy engine does. -/
inductive PeState where
  | off | startup | negotiate | transition | ready | hardReset | snkWait | snkRequest | snkTransition | snkReady
  | softReset | noPd
deriving DecidableEq, Repr

/-- A message or Hard Reset that waits in RX_HOLD (R289, R290). -/
inductive PdRx where
  | request (r : PdReq) | eprMode (enter : Bool) | keepalive | sourceCaps (objs : List PdObj) (epr eprCapable rev2 : Bool)
  | accept (sameRole : Bool) | reject (wait : Bool) | psRdy | softReset | drSwap | getCap (sinkCap epr : Bool)
  | infoQuery (q : PdQuery) | unsupported | alert (bits : Nat) | vendor (discoverIdentity : Bool) | bist (mode vbusMv : Nat)
  | sinkCaps (objs : List PdObj) | hardReset | sinkHardReset
deriving DecidableEq, Repr

/-- One PD session (R289, R294) with its configuration (R292, R293). -/
structure Sess where
  pdoMask : Nat := 0xFF
  drPol : Nat := 1
  eprEn : Bool := true
  pmaxMw : Nat := 240000
  imaxMa : Nat := 5000
  snkEpr : Bool := false
  snkPmax : Nat := 60000
  snkVmin : Nat := 5000
  snkVmax : Nat := 20000
  seq : Nat := 0
  pe : PeState := .off
  dfp : Bool := true
  epr : Bool := false
  contract : Bool := false
  /-- the partner's revision: 2 or 3. -/
  rev : Nat := 3
  /-- CABLE of R289: 0 unknown, 1 3 A, 2 5 A, 3 EPR. -/
  cable : Nat := 0
  discTries : Nat := 0
  /-- KIND of R289, object position, operating current, Capability Mismatch of the contract in force. -/
  kind : Nat := 0
  pos : Nat := 0
  opMa : Nat := 0
  mismatch : Bool := false
  /-- the accepted request (RDO). -/
  req : Option PdReq := none
  grantMw : Nat := 0
  vTarget : Nat := 5000
  ilim : Nat := 0
  /-- a request that waits for Lift. -/
  pendReq : Option PdReq := none
  offer : List PdObj := []
  offerMw : Nat := 0
  /-- flags of the last offer's 5 V object (R270): bit 0 Dual-Role Power, 1 Dual-Role Data, 2 Unconstrained, 3 EPR,
  4 Unchunked Extended Messages Supported, which stays 0 (R267). -/
  offerFlags : Nat := 0
  /-- the last offer was EPR_Source_Capabilities. -/
  offerEpr : Bool := false
  partnerCaps : List PdObj := []
  partnerSnk : List PdObj := []
  partnerEpr : Bool := false
  msgIdTx : Nat := 0
  /-- the MessageID of the last message delivered, none since the counters were reset (R264). -/
  msgIdRx : Option Nat := none
  /-- chunks of the last message sent (R267). -/
  chunks : Nat := 1
  retries : Nat := 0
  /-- the last message sent and the deadline of its GoodCRC (R264), and the last eight messages. -/
  lastTx : Option PdMsg := none
  txAt : Option Nat := none
  sent : List PdMsg := []
  capsTries : Nat := 0
  /-- Hard Resets with no response (R265). -/
  hardCount : Nat := 0
  hardResets : Nat := 0
  softResets : Nat := 0
  txFail : Nat := 0
  lastAbort : Nat := 0
  alertBits : Nat := 0
  bist : Option Nat := none
  /-- the partner's Rp reads SinkTxOk (R283), and a message sequence waits for it. -/
  txOk : Bool := true
  waiting : Option PdMsg := none
  /-- an own DR_Swap awaits its answer: to UFP or to DFP; the earliest time of another (R282, R284). -/
  drPending : Bool := false
  drToUfp : Bool := false
  drHoldAt : Option Nat := none
  /-- journal SEQs of a PD_DR_SWAP_REQ and a PD_RESET whose outcome is open (R295). -/
  drSeq : Option Nat := none
  rstSeq : Option Nat := none
  /-- a shed sink owes its source a new Request, which waits for the exchange in progress (R143). -/
  reReqDue : Bool := false
  /-- EPR mode is being left (R276). -/
  eprExit : Bool := false
  senderAt : Option Nat := none
  psTransAt : Option Nat := none
  capsAt : Option Nat := none
  noRespAt : Option Nat := none
  keepAliveAt : Option Nat := none
  srcKeepAt : Option Nat := none
  ppsAt : Option Nat := none
  ppsRepAt : Option Nat := none
  discAt : Option Nat := none
  /-- tSrcTransition, tPSHardReset and tSrcRecover as source (R274, R281); the end of a sink's paused draw (R278). -/
  transAt : Option Nat := none
  hrStopAt : Option Nat := none
  recoverAt : Option Nat := none
  snkHrAt : Option Nat := none
  /-- a planned move waits for a message boundary: target core, deadline, journal SEQ (0 none) (R290). -/
  migTo : Option Nat := none
  migAt : Option Nat := none
  /-- RX_HOLD: messages held while the port is frozen, oldest first (R289, R290). -/
  rxHold : List PdRx := []
deriving DecidableEq, Repr

/-- One PD core (R288 to R296). -/
structure Core where
  updating : Bool := false
  fwMajor : Nat := 2
  fwMinor : Nat := 1
  bank : Nat := 0
  /-- journal SEQ of a PD_MIGRATE from this core, its abandoned moves. -/
  migSeq : Option Nat := none
  migFailed : Nat := 0
deriving DecidableEq, Repr

/-- Bay states, in the order of R318. -/
inductive BaySt where
  | empty | detect | link | verify | trickle | ready | charging | rejected | paused | idFault
deriving DecidableEq, Repr

/-- One bay (R298 to R319). -/
structure Bay where
  trickleCells : Nat := 0
  trickleChem : Nat := 1
  trickleMa : Nat := 100
  trickleMin : Nat := 30
  /-- voltage limit of the trickle in progress (R311). -/
  trickleMv : Nat := 0
  st : BaySt := .empty
  verdict : Nat := 0
  attempts : Nat := 0
  /-- attempts since insertion or BAY_REAUTH that failed (R309). -/
  failed : Nat := 0
  keyIdx : Nat := 0xFF
  packId : List Byte := List.replicate 8 0
  /-- the record the verified pack holds. -/
  record : Option Nat := none
  idMv : Nat := 2500
  authMs : Nat := 0
  linkErr : Nat := 0
  inserts : Nat := 0
  lateId : Nat := 0
  /-- repeats of the outstanding request, failed STATUS exchanges in a row, STATUS replies in a row with both flags clear. -/
  retries : Nat := 0
  stopClear : Nat := 0
  /-- what HELLO, PROFILE and RESPONSE of the attempt gave. -/
  helloId : List Byte := []
  helloKey : Nat := 0
  yParity : Nat := 0
  win : Bool := false
  packFw : Nat := 0
  prof : List Byte := []
  nonce : BitVec 256 := 0
  sig : List Byte := []
  cert : List Byte := []
  /-- the request outstanding: its TYPE (0 none), the deadline of its reply and of its repeat (R305). -/
  reqType : Nat := 0
  replyAt : Option Nat := none
  /-- the public-key engine's verdict, the next attempt, the STATUS poll, the trickle's end and its next attempt, 50 ms of
  presence, the start's 20 ms, the read of DONE, the end of a proofing pause, the revocation of R316. -/
  verdictAt : Option Nat := none
  retryAt : Option Nat := none
  pollAt : Option Nat := none
  trickleAt : Option Nat := none
  trickleTryAt : Option Nat := none
  insertAt : Option Nat := none
  insertedAt : Nat := 0
  startAt : Option Nat := none
  doneAt : Option Nat := none
  pauseAt : Option Nat := none
  revokeAt : Option Nat := none
  /-- the attempt in progress or to come follows a cleared key (R316). -/
  revoked : Bool := false
  /-- a BAY_CFG that the next attempt takes: cells, chemistry, mA, minutes (R317). -/
  trickleNext : Option (List Nat) := none
  /-- the last STATUS: pack voltage and temperature. -/
  vpackMv : Nat := 0
  packTemp : Int := 0
deriving DecidableEq, Repr

/-- A fleet key slot (R316). -/
structure FleetKey where
  used : Bool := false
  x : Nat := 0
  y : Nat := 0
deriving DecidableEq, Repr

/-- A pack record (R313). -/
structure PackRec where
  used : Bool := false
  packId : List Byte := List.replicate 8 0
  keyIdx : Nat := 0
  /-- always-on seconds of the last STATUS exchange or removal. -/
  lastSeen : Nat := 0
  inserts : Nat := 0
  holder : Nat := 0xFF
  /-- the PROFILE payload, 40 or 56 bytes. -/
  prof : List Byte := []
deriving DecidableEq, Repr

end Machine
end Sys2Proof
end

