-- ==== Sys2Proof/Machine/State.lean ====
section
/-! DEFINITION. Sys2Proof/Machine/State.lean: the state of the block, its faults and refusals, and its reset state. -/
namespace Sys2Proof
namespace Machine

/-- Everything the spec gives the machine. Each field is a record of one chapter's state. -/
structure Mach where
  dev : Dev := {}
  host : HostLink := {}
  mbx : Mbx := {}
  /-- status words of blocks 0x00 to 0x8A (R375), with routing and detail. -/
  blk : Vector Blk 139 := Vector.replicate 139 {}
  grd : Guard := {}
  wdh : Wdh := {}
  wds : Wds := {}
  nvm : Nvm := {}
  pwr : Pwr := {}
  upd : Upd := {}
  svc : Svc := {}
  cnv : Vector Conv 55 := Vector.replicate 55 {}
  /-- spare phase s serves this converter (R17). -/
  spares : Vector (Option Nat) 4 := Vector.replicate 4 none
  adc : Adc := {}
  tmon : Vector Tmon 16 := Vector.replicate 16 {}
  eng : Engine := {}
  path : Path := {}
  inp : Vector Input 6 := Vector.replicate 6 {}
  sto : Store := {}
  chg : Vector ChgM 49 := Vector.replicate 49 {}
  aux : Aux := {}
  lft : Lift := {}
  prt : Vector Port 48 := Vector.replicate 48 {}
  ui : Ui := {}
  pd : Vector Sess 48 := Vector.replicate 48 {}
  core : Vector Core 8 := Vector.replicate 8 {}
  /-- the PD core that serves each port (R23). -/
  serves : Vector Nat 48 := Vector.ofFn fun i => i.val / 6
  bay : Vector Bay 48 := Vector.replicate 48 {}
  keys : Vector FleetKey 4 := Vector.replicate 4 {}
  recs : Vector PackRec 256 := Vector.replicate 256 {}
  ctx : Vector Ctx 272 := Vector.replicate 272 {}
  est : Est := {}
  thm : Thm := {}
deriving DecidableEq, Repr

/-- Why the model stops. -/
inductive Fault where
  /-- raised by meanings with a reading operand above the absolute maximum ratings of R524: "No behaviour of the device is
  defined while any of them is exceeded." Safe: the model stops. -/
  | beyondRatings
deriving DecidableEq, Repr

/-- Why the model refuses a command. -/
inductive Refusal where
  /-- raised by an arm of Dispatch.lean whose command has no meaning yet. Safe: the model stops. -/
  | notModelled (mnemonic : String)
deriving DecidableEq, Repr

/-- The state: the queue of commands that wait, first in first out, and the machine. -/
structure State where
  pending : List Instr
  m : Mach
deriving DecidableEq, Repr

/-- The machine right after power-on reset, with a blank retention memory (log entry 3); nothing is pending. -/
def State.reset : State := { pending := [], m := {} }

end Machine
end Sys2Proof
end

