-- ==== Sys2Proof/Machine/Ops.lean ====
section
/-! DEFINITION. Sys2Proof/Machine/Ops.lean: the shared operations over the machine: access to its tables, canonical
sparse memories, time, free values, the recording of causes with merging and consequence windows (R381 to R393), the
journal (R469 to R473), and the stops of converters and inputs (R59, R544). -/
namespace Sys2Proof
namespace Machine

/-! ### Tables -/

def getCv (m : Mach) (k : Nat) : Conv := tget m.cnv {} k
def modCv (m : Mach) (k : Nat) (f : Conv → Conv) : Mach := { m with cnv := tupd m.cnv k f }
def getBlk (m : Mach) (b : Nat) : Blk := tget m.blk {} b
def modBlk (m : Mach) (b : Nat) (f : Blk → Blk) : Mach := { m with blk := tupd m.blk b f }
def getPort (m : Mach) (p : Nat) : Port := tget m.prt {} p
def modPort (m : Mach) (p : Nat) (f : Port → Port) : Mach := { m with prt := tupd m.prt p f }
def getPd (m : Mach) (p : Nat) : Sess := tget m.pd {} p
def modPd (m : Mach) (p : Nat) (f : Sess → Sess) : Mach := { m with pd := tupd m.pd p f }
def getBay (m : Mach) (p : Nat) : Bay := tget m.bay {} p
def modBay (m : Mach) (p : Nat) (f : Bay → Bay) : Mach := { m with bay := tupd m.bay p f }
def getInp (m : Mach) (i : Nat) : Input := tget m.inp {} i
def modInp (m : Mach) (i : Nat) (f : Input → Input) : Mach := { m with inp := tupd m.inp i f }
def getChg (m : Mach) (c : Nat) : ChgM := tget m.chg {} c
def modChg (m : Mach) (c : Nat) (f : ChgM → ChgM) : Mach := { m with chg := tupd m.chg c f }
def getHold (m : Mach) (h : Nat) : Holder := tget m.lft.holders {} h
def modHold (m : Mach) (h : Nat) (f : Holder → Holder) : Mach :=
  { m with lft := { m.lft with holders := tupd m.lft.holders h f } }
def getCtx (m : Mach) (x : Nat) : Ctx := tget m.ctx {} x
def modCtx (m : Mach) (x : Nat) (f : Ctx → Ctx) : Mach := { m with ctx := tupd m.ctx x f }
def getTmon (m : Mach) (j : Nat) : Tmon := tget m.tmon {} j
def modTmon (m : Mach) (j : Nat) (f : Tmon → Tmon) : Mach := { m with tmon := tupd m.tmon j f }
def getSlot (m : Mach) (s : Nat) : Slot := tget m.mbx.slots {} s
def modSlot (m : Mach) (s : Nat) (f : Slot → Slot) : Mach :=
  { m with mbx := { m.mbx with slots := tupd m.mbx.slots s f } }
def getCore (m : Mach) (k : Nat) : Core := tget m.core {} k
def modCore (m : Mach) (k : Nat) (f : Core → Core) : Mach := { m with core := tupd m.core k f }
def getProc (m : Mach) (a : Nat) : Proc := tget m.grd.procs {} a
def modProc (m : Mach) (a : Nat) (f : Proc → Proc) : Mach :=
  { m with grd := { m.grd with procs := tupd m.grd.procs a f } }
def getSens (m : Mach) (x : Nat) : Sensor := tget m.thm.sensors {} x
def modSens (m : Mach) (x : Nat) (f : Sensor → Sensor) : Mach :=
  { m with thm := { m.thm with sensors := tupd m.thm.sensors x f } }
def getKey (m : Mach) (p : Nat) : Key := tget m.ui.keys {} p
def modKey (m : Mach) (p : Nat) (f : Key → Key) : Mach :=
  { m with ui := { m.ui with keys := tupd m.ui.keys p f } }

/-- A function applied over a list of indices. -/
def forAll (m : Mach) (l : List Nat) (f : Mach → Nat → Mach) : Mach := l.foldl f m

/-! ### Outcomes -/

/-- The machine of a state replaced: the queue of waiting commands stays. -/
def next (s : State) (m : Mach) : Host.Outcome State Fault Refusal := .next { s with m := m }

/-- `f` on the machine where the operands name units of the device; operands that name none are no event of it, and nothing
changes (DESIGN CHOICE, log entry 103). -/
def guardUnit (ok : Bool) (s : State) (f : Mach → Mach) : Host.Outcome State Fault Refusal :=
  next s (if ok then f s.m else s.m)

/-- As guardUnit, with the readings held to R524: while one is exceeded no behaviour of the device is defined. -/
def guardRead (ok rated : Bool) (s : State) (f : Mach → Mach) : Host.Outcome State Fault Refusal :=
  if rated then guardUnit ok s f else .fault .beyondRatings

/-- The event occurs: `f` where its condition holds, and no change where it does not (log entry 2). -/
def when (c : Bool) (m : Mach) (f : Mach → Mach) : Mach := if c then f m else m

/-! ### Sparse memories in one canonical form: keys strictly rising, no entry equal to the default -/

/-- What key `k` reads as. -/
def amGet {α : Type} (d : α) : List (Nat × α) → Nat → α
  | [], _ => d
  | (a, v) :: t, k => if a = k then v else amGet d t k

/-- Key `k` written; writing the default removes the entry. -/
def amPut {α : Type} [DecidableEq α] (d : α) : List (Nat × α) → Nat → α → List (Nat × α)
  | [], k, v => if v = d then [] else [(k, v)]
  | (a, w) :: t, k, v =>
    if k < a then (if v = d then (a, w) :: t else (k, v) :: (a, w) :: t)
    else if k = a then (if v = d then t else (k, v) :: t)
    else (a, w) :: amPut d t k v

/-- Every key of the list is above `b`. -/
def amAbove {α : Type} (b : Nat) : List (Nat × α) → Bool
  | [] => true
  | (a, _) :: t => b < a && amAbove b t

/-- The canonical form. -/
def amWf {α : Type} [DecidableEq α] (d : α) : List (Nat × α) → Bool
  | [] => true
  | (a, v) :: t => v ≠ d && amAbove a t && amWf d t

/-- `vs` written from key `k` on. -/
def amPutAll {α : Type} [DecidableEq α] (d : α) (l : List (Nat × α)) (k : Nat) : List α → List (Nat × α)
  | [] => l
  | v :: vs => amPutAll d (amPut d l k v) (k + 1) vs

/-- `n` values from key `k` on. -/
def amGetAll {α : Type} (d : α) (l : List (Nat × α)) (k n : Nat) : List α :=
  (List.range n).map fun i => amGet d l (k + i)

/-! ### Bytes -/

/-- `n` little-endian bytes of a natural number (R461). -/
def le (n v : Nat) : List Byte := (List.range n).map fun i => BitVec.ofNat 8 (v / 256 ^ i)

/-- `n` little-endian bytes of an integer in two's complement. -/
def leI (n : Nat) (v : Int) : List Byte := le n ((v % (256 ^ n : Nat)).toNat)

/-- The little-endian number that bytes spell. -/
def ofLe (bs : List Byte) : Nat := bs.foldr (fun b acc => b.toNat + 256 * acc) 0

/-- The two's-complement value of a number of `n` bytes. -/
def toSigned (n v : Nat) : Int := if v < 256 ^ n / 2 then v else (v : Int) - (256 ^ n : Nat)

def crcStep (c : Word) : Nat → Word
  | 0 => c
  | n + 1 => crcStep (if c.getLsbD 0 then (c >>> 1) ^^^ 0xEDB88320#32 else c >>> 1) n

/-- CRC-32 of R461: reflected polynomial 0xEDB8_8320, initial value 0xFFFF_FFFF, final inversion. -/
def crc32 (bs : List Byte) : Nat :=
  (~~~ (bs.foldl (fun c b => crcStep (c ^^^ b.zeroExtend 32) 8) 0xFFFFFFFF#32)).toNat

/-- Bit k of a number. -/
def bit (v k : Nat) : Bool := v.testBit k

/-- 2^k where the condition holds. -/
def flag (b : Bool) (k : Nat) : Nat := if b then 2 ^ k else 0

/-- The bit map of a list of positions. -/
def bitmap (l : List Nat) : Nat := l.eraseDups.foldl (fun acc k => acc + 2 ^ k) 0

/-! ### Time and free values -/

/-- The always-on millisecond counter (R538). -/
def nowMs (m : Mach) : Nat := m.dev.aonMs

/-- A timer's deadline has come. -/
def due (m : Mach) (t : Option Nat) : Bool :=
  match t with
  | some d => d ≤ m.dev.now
  | none => false

/-- A timer started now. -/
def after (m : Mach) (ns : Nat) : Option Nat := some (m.dev.now + ns)

/-- A fresh index into the free values of Config. -/
def draw (m : Mach) : Nat × Mach := (m.dev.freeCtr, { m with dev := { m.dev with freeCtr := m.dev.freeCtr + 1 } })

/-! ### Block IDs (R11, R375) -/

def cnvBlk (k : Nat) : Nat := 0x30 + k
def blkStore : Nat := 0x67
def blkLift : Nat := 0x68
def blkEst : Nat := 0x78
def blkThm : Nat := 0x79
def blkGuard : Nat := 0x7A
def blkWdh : Nat := 0x7B
def blkWds : Nat := 0x7C
def blkNvm : Nat := 0x7D
def blkMbx : Nat := 0x7E
def blkCxm : Nat := 0x81
def blkAdc : Nat := 0x82
def blkEng : Nat := 0x83
def blkLinkE : Nat := 0x84
def blkClk : Nat := 0x86
def blkUsb : Nat := 0x87
def blkUi : Nat := 0x88
def blkSup : Nat := 0x89
def blkPtb : Nat := 0x8A

/-- A block ID that names a block (R11). -/
def isBlock (b : Nat) : Bool := b < 0x69 || (0x70 ≤ b && b ≤ 0x8A)

/-! ### Cause codes (R379) -/

inductive Cause where
  | short | ov | uvCtrl | prebiasUnstable | prebiasHigh | backdrive | inOv | reverse | chgOc | dsgOc | cellOv
  | cellDead | linOverload | vconnOc | sysLow | cutoff | sysCrit | hwOv | sysUv1 | passExcess
  | phaseOpen | senseRail | senseRipple | senseSplit | stageFault | tmonOpen | selftest | imonZero | thermalShed
  | warn | throttle | limit | tsd | hover | sensorInvalid
  | wet | damp | corroded | accessory | strapConflict | storeRemoved | storeMismatch | idShort
  | ctrlStarved | specSuspended | recSat | chgTimer | filterReset | adcMismatch | wdsMissed | wdsDouble | wdhExpired
  | wdhEarly | overrun | haltTimeout | guardHold | exception
  | linkLost | linkGlitch | noLink | packStop | pdTimeout | clkLoss | migrateFail
  | eccUnc | badCrc | reverted | learnLost | nvmUnc | limitsTable
  | authReject | scanRefused | event | cmd | bibMismatch | scanActive
deriving DecidableEq, Repr

/-- The code of a cause: ascending in each row of R379. -/
def codeOf : Cause → Nat
  | .short => 0x10 | .ov => 0x11 | .uvCtrl => 0x12 | .prebiasUnstable => 0x13 | .prebiasHigh => 0x14
  | .backdrive => 0x15 | .inOv => 0x16 | .reverse => 0x17 | .chgOc => 0x18 | .dsgOc => 0x19 | .cellOv => 0x1A
  | .cellDead => 0x1B | .linOverload => 0x1C | .vconnOc => 0x1D | .sysLow => 0x1E | .cutoff => 0x1F
  | .sysCrit => 0x20 | .hwOv => 0x21 | .sysUv1 => 0x22 | .passExcess => 0x23
  | .phaseOpen => 0x30 | .senseRail => 0x31 | .senseRipple => 0x32 | .senseSplit => 0x33 | .stageFault => 0x34
  | .tmonOpen => 0x35 | .selftest => 0x36 | .imonZero => 0x37 | .thermalShed => 0x38
  | .warn => 0x40 | .throttle => 0x41 | .limit => 0x42 | .tsd => 0x43 | .hover => 0x44 | .sensorInvalid => 0x45
  | .wet => 0x50 | .damp => 0x51 | .corroded => 0x52 | .accessory => 0x53 | .strapConflict => 0x54
  | .storeRemoved => 0x55 | .storeMismatch => 0x56 | .idShort => 0x57
  | .ctrlStarved => 0x60 | .specSuspended => 0x61 | .recSat => 0x62 | .chgTimer => 0x63 | .filterReset => 0x64
  | .adcMismatch => 0x65 | .wdsMissed => 0x66 | .wdsDouble => 0x67 | .wdhExpired => 0x68 | .wdhEarly => 0x69
  | .overrun => 0x6A | .haltTimeout => 0x6B | .guardHold => 0x6C | .exception => 0x6D
  | .linkLost => 0x70 | .linkGlitch => 0x71 | .noLink => 0x72 | .packStop => 0x73 | .pdTimeout => 0x74
  | .clkLoss => 0x75 | .migrateFail => 0x76
  | .eccUnc => 0x80 | .badCrc => 0x81 | .reverted => 0x82 | .learnLost => 0x83 | .nvmUnc => 0x84
  | .limitsTable => 0x85
  | .authReject => 0x90 | .scanRefused => 0x91 | .event => 0x92 | .cmd => 0x93 | .bibMismatch => 0x94
  | .scanActive => 0x95

/-- The category of a cause code: its bit in CAUSE and LIVE (R378, R379). -/
def catOf (code : Nat) : Nat :=
  if code < 0x30 then 7 else if code < 0x40 then 6 else if code < 0x50 then 5 else if code < 0x60 then 4
  else if code < 0x70 then 3 else if code < 0x80 then 2 else if code < 0x90 then 1 else 0

/-! ### Recording causes (R381, R384, R389) -/

/-- An occurrence entered in the detail list: a known code counts up; a new one is appended while fewer than eight are
listed; a further one raises the last entry's COUNT and sets its merged bit (R384). -/
def detailAdd (l : List Detail) (code : Nat) (consequential merged : Bool) (origin timeMs : Nat) : List Detail :=
  if l.any (fun d => d.code = code) then
    l.map fun d => if d.code = code then
      { d with count := satTo 255 (d.count + 1), merged := d.merged || merged,
               consequential := d.consequential || consequential,
               origin := if consequential then origin else d.origin } else d
  else if l.length < 8 then
    l ++ [{ code := code, consequential := consequential, merged := merged, origin := origin, timeMs := timeMs }]
  else match l.reverse with
    | [] => []
    | d :: r => ({ d with count := satTo 255 (d.count + 1), merged := true } :: r).reverse

/-- A cause recorded in one block (R381): FIRST and SEV where CAUSE is 0, a category bit and a detail otherwise. -/
def blkRecord (b : Blk) (code sev timeMs tick : Nat) (merged : Bool) : Blk :=
  if b.sticky.isEmpty then
    { b with first := code, sev := sev, sticky := [(code, sev)], firstMs := timeMs, firstTick := tick, maxSev := sev,
             occur := 1, merged := b.merged + (if merged then 1 else 0) }
  else
    { b with
      sticky := if b.sticky.contains (code, sev) then b.sticky else b.sticky ++ [(code, sev)]
      maxSev := max b.maxSev sev
      occur := if code = b.first then satTo 65535 (b.occur + 1) else b.occur
      merged := if merged then satTo 65535 (b.merged + 1) else b.merged
      details := if code = b.first then b.details else detailAdd b.details code false merged 0xFF timeMs }

/-- The blocks a cause of block `b` is recorded in: PCp's also in its port's (R377). -/
def blocksOf (b : Nat) : List Nat := if 0x30 ≤ b ∧ b < 0x60 then [b, b - 0x30] else [b]

/-- A cause recorded in block `b` with a severity, without regard to reactions. The severity is that of the reaction (R380);
where a cause's rule names none, the caller takes it from the table of R539. -/
def note (m : Mach) (b : Nat) (c : Cause) (sev : Nat) : Mach :=
  forAll m (blocksOf b) fun m b => modBlk m b fun w =>
    blkRecord w (codeOf c) sev (nowMs m) m.dev.aonTick false

/-- A reaction is in progress in block `b` (R388). -/
def reacting (m : Mach) (b : Nat) : Bool :=
  match (getBlk m b).reactUntil with
  | some t => m.dev.now < t
  | none => false

/-- A detection in block `b` (R389): merged while a reaction is in progress there, its own reaction then taken only if
it is more severe. Answers whether the reaction is taken; `lastNs` is how long that reaction takes (R388). -/
def detect (m : Mach) (b : Nat) (c : Cause) (sev lastNs : Nat) : Mach × Bool :=
  let busy := reacting m b
  let act := !busy || (getBlk m b).reactSev < sev
  let until_ := m.dev.now + min lastNs (sec 1)
  (forAll m (blocksOf b) fun m b => modBlk m b fun w =>
      let w := blkRecord w (codeOf c) sev (nowMs m) m.dev.aonTick busy
      if act && 4 ≤ sev then { w with reactSev := sev, reactUntil := some until_ } else w, act)

/-- A condition of block `b` becomes or ceases to be present (the LIVE field of R376). -/
def setLive (m : Mach) (b : Nat) (c : Cause) (sev : Nat) (on : Bool) : Mach :=
  forAll m (blocksOf b) fun m b => modBlk m b fun w =>
    let rest := w.live.filter fun x => x.1 ≠ codeOf c
    { w with live := if on then rest ++ [(codeOf c, sev)] else rest }

/-- A cause is LIVE in a block. -/
def isLive (m : Mach) (b : Nat) (code : Nat) : Bool := (getBlk m b).live.any fun x => x.1 = code

/-- CAUSE bits written as 1 are cleared; at 0 FIRST, SEV and the details go too (R381). The always-on copy of CUTOFF goes
with its cause. -/
def causeClear (m : Mach) (b mask : Nat) : Mach :=
  let m := if b = blkStore && bit mask 7 then { m with pwr := { m.pwr with cutoff := false } } else m
  modBlk m b fun w =>
    let st := w.sticky.filter fun x => !bit mask (catOf x.1)
    if w.sticky.isEmpty then w
    else if st.isEmpty then
      { w with sticky := [], first := 0, sev := 0, details := [], occur := 0, maxSev := 0, merged := 0, firstMs := 0,
               firstTick := 0 }
    else { w with sticky := st }

/-! ### Consequence windows (R391 to R393) -/

/-- The dependent detectors of R391. -/
inductive Dep where
  | uv (p : Nat) | pdTimeout (p : Nat) | passExcess (p : Nat) | sysUv1 | limitEvents (i : Nat)
  | dischargeStep | chgOc | port (p : Nat)
deriving DecidableEq, Repr

/-- Whether a window masks a detector. -/
def covers (w : Window) : Dep → Bool
  | .uv p => (w.kind = .port && w.unit = p) || (w.kind = .die && p / 24 = w.unit)
  | .passExcess p => (w.kind = .port && w.unit = p) || (w.kind = .die && p / 24 = w.unit)
  | .pdTimeout p => (w.kind = .port && w.unit = p) || (w.kind = .die && p / 24 = w.unit)
      || (w.kind = .pdCore && w.ports.contains p)
  | .sysUv1 => w.kind = .input || w.kind = .store
  | .limitEvents i => w.kind = .input && w.unit ≠ i
  | .dischargeStep => w.kind = .store
  | .chgOc => w.kind = .store
  | .port p => w.kind = .die && p / 24 = w.unit

/-- The block of the fence whose window masks the detector now. -/
def maskedBy (m : Mach) (d : Dep) : Option Nat :=
  (m.grd.windows.find? fun w => m.dev.now < w.endAt && covers w d).map (·.origin)

/-- A consequential event: in the detail list alone, with ORIGIN (R392). -/
def consequential (m : Mach) (b : Nat) (c : Cause) (origin : Nat) : Mach :=
  forAll m (blocksOf b) fun m b => modBlk m b fun w =>
    { w with details := detailAdd w.details (codeOf c) true false origin (nowMs m) }

/-- The length of a fence's window (R391). -/
def windowLen : WinKind → Nat
  | .port => ms 50
  | .input => ms 20
  | .store => ms 20
  | .pdCore => ms 100
  | .die => ms 200

/-- A fence opens its window. -/
def openWindow (m : Mach) (origin : Nat) (k : WinKind) (unit_ : Nat) (ports : List Nat) : Mach :=
  { m with grd := { m.grd with windows := m.grd.windows ++
      [{ origin := origin, kind := k, unit := unit_, endAt := m.dev.now + windowLen k, ports := ports }] } }

/-- A detection by a dependent detector: consequential inside a window, else `detect`. -/
def detectDep (m : Mach) (d : Dep) (b : Nat) (c : Cause) (sev lastNs : Nat) : Mach × Bool :=
  match maskedBy m d with
  | some o => (consequential m b c o, false)
  | none => detect m b c sev lastNs

/-! ### The journal (R469 to R473) -/

/-- The number after a SEQ (R470). -/
def seqNext (n : Nat) : Nat := if n = 0xFFFFFFFF then 1 else n + 1

/-- A journal entry whose work has not ended. -/
def unfinished (e : JEntry) : Bool := e.st = .accepted || e.st = .executing

/-- The ring has room for one more entry (R25): fewer than 1024, or the oldest has finished. -/
def ringRoom (r : List JEntry) : Bool :=
  r.length < 1024 || match r with
    | [] => true
    | e :: _ => !unfinished e

/-- An entry appended; the oldest leaves a full ring. -/
def ringPush (r : List JEntry) (e : JEntry) : List JEntry :=
  if r.length < 1024 then r ++ [e] else r.drop 1 ++ [e]

/-- Entry `seq` changed. -/
def ringMod (r : List JEntry) (seq : Nat) (f : JEntry → JEntry) : List JEntry :=
  r.map fun e => if e.seq = seq then f e else e

/-- Entry `seq` of the ring. -/
def ringFind (r : List JEntry) (seq : Nat) : Option JEntry := r.find? fun e => e.seq = seq

/-- Waiting INTERNAL entries written while the ring has room (R473). -/
def flushWaiting (x : Mbx) : Nat → Mbx
  | 0 => x
  | n + 1 =>
    match x.waiting with
    | [] => x
    | e :: t =>
      if ringRoom x.ring then
        flushWaiting { x with ring := ringPush x.ring { e with seq := x.nextSeq }, nextSeq := seqNext x.nextSeq,
                              waiting := t } n
      else x

/-- An INTERNAL entry (R473): CODE 0xFF00 plus a cause code, DETAIL the block. -/
def journal (m : Mach) (c : Cause) (b : Nat) : Mach :=
  let e : JEntry := { seq := 0, acceptMs := nowMs m, doneMs := nowMs m, code := 0xFF00 + codeOf c, result := 0,
                      cls := 2, slot := 5, st := .done, detail := b, answered := true }
  if m.mbx.waiting.isEmpty && ringRoom m.mbx.ring then
    { m with mbx := { m.mbx with ring := ringPush m.mbx.ring { e with seq := m.mbx.nextSeq },
                                 nextSeq := seqNext m.mbx.nextSeq } }
  else if m.mbx.waiting.length < 64 then { m with mbx := { m.mbx with waiting := m.mbx.waiting ++ [e] } }
  else { m with mbx := { m.mbx with lost := satTo 65535 (m.mbx.lost + 1) } }

/-- An entry whose work continued ends: DONE with OK or ACCEPTED kept, FAILED otherwise (R469, R470); the room it
leaves is taken by waiting entries. -/
def closeEntry (m : Mach) (seq result detail : Nat) : Mach :=
  let ok := result = 0 || result = 1
  let r := ringMod m.mbx.ring seq fun e =>
    if unfinished e then
      { e with st := if ok then .done else .failed, result := result, doneMs := nowMs m, detail := detail }
    else e
  { m with mbx := flushWaiting { m.mbx with ring := r } 64 }

/-! ### Converters -/

/-- Converter k serves a port (R15). -/
def isPc (k : Nat) : Bool := k < 48

/-- A bay holds a pack: CC1 reads neither open nor shorted (R301). -/
def packPresent (m : Mach) (p : Nat) : Bool :=
  match (getBay m p).st with
  | .empty | .idFault => false
  | _ => true

/-- The bay reads empty, so its contact may be discharged (R300). -/
def bayEmpty (m : Mach) (p : Nat) : Bool := (getBay m p).st = .empty

/-- A bay that starts no charge: washdown, or a WET or CORRODED finding (R250, R302). -/
def bayHeld (m : Mach) (p : Nat) : Bool :=
  m.ui.washdown || (getPort m p).finding = .wet || (getPort m p).finding = .corroded

/-- The port is a pack bay (R231). -/
def isBay (m : Mach) (p : Nat) : Bool := (getPort m p).mode = 2

/-- A Type-C port is attached (R487). -/
def attachedTypeC (m : Mach) (p : Nat) : Bool :=
  match (getPort m p).tc with
  | .attachedSrc | .attachedSnk => true
  | _ => false

/-- Settings of R132 that wait are applied: at a resolution, or when the converter stops. -/
def protSettle (p : Prot) : Prot :=
  match p.cfgPend with
  | some (a, b, c, d) => { p with ovPermille := a, ovMinMv := b, uvPermille := c, uvTimeMs := d, cfgPend := none }
  | none => p

/-- A stop of a converter (R544): its PWM pins go to mid-level. A sourcing port converter also opens VBG and
discharges VBUS, but on a bay whose CC1 shows a pack; a sinking one leaves VBG as its Type-C state requires. -/
def stopConv (m : Mach) (k : Nat) : Mach :=
  let bayPack := isPc k && isBay m k && !bayEmpty m k
  modCv m k fun c =>
    { c with
      run := false, starting := false
      vbg := if isPc k && c.reverse then c.vbg else false
      vbd := if isPc k && !c.reverse && !bayPack then true else c.vbd
      inter := []
      ph := tmap c.ph fun _ y => { y with tripped := false, fencedPer := none }
      prot := protSettle { c.prot with pulseSkip := false, stableAt := none }
      ctrl := { c.ctrl with bank := {}, loaded := false, resolved := false, recovery := [], softStart := false
                            frozen := false, idlePer := false, cfg := c.ctrl.cfgPend.getD c.ctrl.cfg, cfgPend := none } }

/-- The phases the declaration names: own phases, then spare phases in the order of SPARE_MASK (R145, R543). -/
def declaredPhases (d : Decl) : Nat :=
  if d.topo = 0 then 0 else d.phases + ((List.range 4).filter fun s => bit d.spareMask s).length

/-- The phases in service, by index. -/
def livePhases (c : Conv) : List Nat :=
  (List.range (declaredPhases c.decl)).filter fun i => (tget c.ph {} i).st = .inService

/-- The even channel of phase `i` of converter `k`; the odd one follows (R15). -/
def phaseChan (m : Mach) (k i : Nat) : Nat :=
  let d := (getCv m k).decl
  if i < d.phases then
    (if k < 48 then 4 * k + 2 * i else if k < 54 then 192 + 8 * (k - 48) + 2 * i else 240 + 2 * i)
  else
    let sp := (List.range 4).filter fun s => bit d.spareMask s
    248 + 2 * (sp.getD (i - d.phases) 0)

/-- The TMON group of a channel (R71). -/
def tmonOf (ch : Nat) : Nat := ch / 16

/-- Converters with a declared phase on TMON group `j`. -/
def groupConvs (m : Mach) (j : Nat) : List Nat :=
  (List.range 55).filter fun k =>
    (List.range (declaredPhases (getCv m k).decl)).any fun i => tmonOf (phaseChan m k i) = j

/-- The converter has its own block fenced. -/
def cnvFenced (m : Mach) (k : Nat) : Bool := ((getBlk m (cnvBlk k)).fence).isSome

/-- The sourcing port converters that run, the inputs' converters that run. -/
def runningSources (m : Mach) : List Nat := (List.range 48).filter fun k => (getCv m k).run && !(getCv m k).reverse
def runningSinks (m : Mach) : List Nat := (List.range 48).filter fun k => (getCv m k).run && (getCv m k).reverse
def runningInputs (m : Mach) : List Nat := (List.range 6).filter fun i => (getCv m (48 + i)).run

/-! ### Perturbations (R520, R521) -/

/-- The sum of the perturbations of a kind that stand on a target; 0 without one. -/
def ptbValue (m : Mach) (kind target : Nat) : Int :=
  ((m.svc.ptbs.filter fun b => b.kind = kind && b.target = target).map fun b => b.value).foldl (· + ·) 0

/-- A perturbation of KIND 1, 2 or 3 stands (R521). -/
def ptbLow (m : Mach) : Bool := m.svc.ptbs.any fun b => 1 ≤ b.kind && b.kind ≤ 3

/-- A source whose session is up sends its offer afresh (R270). -/
def offerAgain (m : Mach) (p : Nat) : Mach :=
  let x := getPd m p
  if (getPort m p).tc = .attachedSrc && x.pe ≠ .off && x.pe ≠ .noPd && x.hrStopAt.isNone && x.recoverAt.isNone then
    modPd m p fun x => { x with capsAt := some m.dev.now }
  else m

/-- The perturbations changed: EVENT is LIVE on block 0x8A while any stands (R522), and every offer follows where the limit of
R521 comes or goes. -/
def ptbPut (m : Mach) (l : List Ptb) : Mach :=
  let low := ptbLow m
  let m := { m with svc := { m.svc with ptbs := l } }
  let m := setLive m blkPtb .event 1 (!l.isEmpty)
  if low = ptbLow m then m else forAll m (List.range 48) offerAgain

/-- A perturbation ends, journalled (R522). -/
def ptbEnd (m : Mach) (id : Nat) : Mach :=
  if m.svc.ptbs.any fun b => b.id = id then
    journal (ptbPut m (m.svc.ptbs.filter fun b => b.id ≠ id)) .event blkPtb
  else m

/-- Every perturbation ends. -/
def ptbEndAll (m : Mach) : Mach := forAll m (m.svc.ptbs.map fun b => b.id) ptbEnd

/-! ### The policy processor -/

/-- The processor that holds the Bib and runs (R394). -/
def holder (m : Mach) : Option Nat :=
  if m.grd.owner = 1 then some 0 else if m.grd.owner = 2 then some 1 else none

/-- A Bib holder is running (R467). -/
def holderRuns (m : Mach) : Bool :=
  match holder m with
  | some a => (getProc m a).running && !(getProc m a).halted
  | none => false

end Machine
end Sys2Proof
end

