-- ==== Sys2Proof/Machine/Operands.lean ====
section
/-! DEFINITION. Sys2Proof/Machine/Operands.lean: the operand forms of the commands: the fields of a mailbox payload
(R461), the answers a command gives (R462, R465, R470), the passing of time, and the event timers. -/
namespace Sys2Proof
namespace Machine

/-! ### Time -/

/-- `n` ns pass: the always-on counter of R538 takes its AONCLK ticks, the WDH count of R404 its ticks of 1 us (held at
CLOSE, where WDH_EXPIRY acts), and a pending first key of R413 ages. -/
def advance (m : Mach) (n : Nat) : Mach :=
  let d := m.dev
  let f := d.aonFrac + n * 32768
  let k := if d.aonclk then f / 1000000000 else 0
  let acc := d.aonAcc + 1000 * k
  let d' : Dev := { d with
    now := d.now + n
    aonFrac := if d.aonclk then f % 1000000000 else d.aonFrac
    aonAcc := acc % 32768
    aonMs := (d.aonMs + acc / 32768) % 4294967296
    aonTick := if acc / 32768 = 0 then d.aonTick + k else acc % 32768 / 1000 }
  let w := m.wdh
  let runs := d.mclk && w.st ≠ .off && !w.waiting && m.pwr.st ≠ .standby
  let w' : Wdh := { w with
    presc := if runs then (w.presc + n) % 1000 else w.presc
    count := if runs then min w.close (w.count + (w.presc + n) / 1000) else w.count
    firstKey := w.firstKey.map fun c => c + n / 5 }
  { m with dev := d', wdh := w', nvm := { m.nvm with fast := { m.nvm.fast with runNs := m.nvm.fast.runNs + n } } }

/-- Time up to `t`, where `t` lies ahead. -/
def advanceTo (m : Mach) (t : Nat) : Mach := advance m (t - m.dev.now)

/-- One MCLK cycle: 5 ns. -/
def tick (m : Mach) : Mach := advance m 5

/-- A timer's event (log entry 2): it occurs where the timer runs, at its deadline, or now where that is past. -/
def fire (m : Mach) (t : Option Nat) (f : Mach → Mach) : Mach :=
  match t with
  | none => m
  | some d => f (advanceTo m d)

/-! ### Payload fields

Voltages are unsigned and in mV, currents signed and in mA (R3, R4), powers in mW (R5); temperatures and their signs are R6's;
a time field counts the unit its name ends in (R7). -/

/-- The little-endian number of `n` bytes at `off` of a payload. -/
def pU (p : List Byte) (off n : Nat) : Nat := ofLe ((p.drop off).take n)

/-- The signed number of `n` bytes at `off`. -/
def pI (p : List Byte) (off n : Nat) : Int := toSigned n (pU p off n)

/-- The bytes from `off`. -/
def bytesAt (p : List Byte) (off n : Nat) : List Byte := (p.drop off).take n

/-- Where slot `s` begins: R451 for the host slots; the Stavska slot has no host address. -/
def slotBase (s : Nat) : Nat := 0x1000 + 0x400 * s

/-- `n` bytes of slot `s` from `off`. -/
def slotBytes (m : Mach) (s off n : Nat) : List Byte := amGetAll 0 m.mbx.mem (slotBase s + off) n

/-- LEN of the frame in slot `s` (R461). -/
def frameLen (m : Mach) (s : Nat) : Nat := ofLe (slotBytes m s 8 2)

/-- The payload of the frame in slot `s`. -/
def payload (m : Mach) (s : Nat) : List Byte := slotBytes m s 16 (frameLen m s)

/-- Slot bytes written; a 64-bit word written to is readable again (R28). -/
def slotPut (m : Mach) (s off : Nat) (bs : List Byte) : Mach :=
  let lo := slotBase s + off
  { m with mbx := { m.mbx with
      mem := amPutAll 0 m.mbx.mem lo bs
      eccBad := m.mbx.eccBad.filter fun a => a + 8 ≤ lo || lo + bs.length ≤ a } }

/-! ### Answers -/

/-- Status codes of R465. -/
inductive Status where
  | ok | accepted | badCrc | badLen | unknownCmd | privilege | busy | nvmBusy | fenced | outOfRange | duplicate
  | locked | notInState | tagConflict
deriving DecidableEq, Repr

def statusCode : Status → Nat
  | .ok => 0x0000 | .accepted => 0x0001 | .badCrc => 0x0100 | .badLen => 0x0101 | .unknownCmd => 0x0102
  | .privilege => 0x0103 | .busy => 0x0104 | .nvmBusy => 0x0105 | .fenced => 0x0106 | .outOfRange => 0x0107
  | .duplicate => 0x0108 | .locked => 0x0109 | .notInState => 0x010A | .tagConflict => 0x010B

/-- What a command's own rules decide: done with a payload, done and an outcome DETAIL beside it, started (ACCEPTED, the
outcome is journalled later), begun with an answer that comes later, or refused. -/
inductive Ans where
  | ok (m : Mach) (out : List Byte)
  | okDetail (m : Mach) (out : List Byte) (detail : Nat)
  | accepted (m : Mach)
  | wait (m : Mach)
  | refuse (st : Status)

/-- A response frame (R462) to a request with these first eight bytes: CODE, RESPONSE and SLOT, TAG, LEN, STATUS, CRC, JSEQ and
the payload. -/
def responseFrame (req : List Byte) (s : Nat) (st : Status) (jseq : Nat) (out : List Byte) : List Byte :=
  let hdr := bytesAt req 0 2 ++ [1#8, BitVec.ofNat 8 s] ++ bytesAt req 4 4 ++ le 2 out.length ++ le 2 (statusCode st)
  hdr ++ le 4 (crc32 (hdr ++ le 4 jseq ++ out)) ++ le 4 jseq ++ out

/-- A frame sent on the serial stream behind its sync bytes (R510), while the link runs (R514). -/
def streamOut (m : Mach) (frame : List Byte) : Mach :=
  if m.svc.link = 3 then { m with svc := { m.svc with out := [0xC3#8, 0x5A#8] ++ frame } } else m

/-- The response of R462 written over the request. The Stavska slot's goes out on the stream and leaves its slot EMPTY (R510). -/
def writeResponse (m : Mach) (s : Nat) (st : Status) (jseq : Nat) (out : List Byte) : Mach :=
  let frame := responseFrame (slotBytes m s 0 8) s st jseq out
  let m := slotPut m s 0 frame
  if s = 4 then streamOut (modSlot m s fun x => { x with st := .empty }) frame else modSlot m s fun x => { x with st := .done }

/-- A command's answer: its entry's new state first (R470), then its response, and its place in the order of execution
is free (R467). -/
def answer (m : Mach) (s : Nat) (st : Status) (out : List Byte) (detail : Nat) : Mach :=
  let seq := (getSlot m s).jseq
  let m :=
    if st = .accepted then
      { m with mbx := { m.mbx with ring := ringMod m.mbx.ring seq fun e => { e with result := 1, answered := true } } }
    else
      let m := closeEntry m seq (statusCode st) detail
      { m with mbx := { m.mbx with ring := ringMod m.mbx.ring seq fun e => { e with answered := true } } }
  let m := { m with mbx := { m.mbx with accepted := m.mbx.accepted.filter fun x => x ≠ s } }
  writeResponse (modSlot m s fun x => { x with deferred := false }) s st seq out

/-- The frame in slot `s` is the next accepted command to execute, of this code, and a Bib holder runs (R467). -/
def ready (m : Mach) (code s : Nat) : Bool :=
  holderRuns m && m.mbx.accepted.head? = some s && (getSlot m s).st = .executing && (getSlot m s).code = code
    && !(getSlot m s).deferred

/-- The machine as a command's rules find it: the command's entry is EXECUTING (R470). -/
def begun (m : Mach) (s : Nat) : Mach :=
  { m with mbx := { m.mbx with ring := ringMod m.mbx.ring (getSlot m s).jseq fun e => { e with st := .executing } } }

/-- What the machine does with the answer a command's rules give: `m` is the machine before the command began. -/
def settle (m : Mach) (s : Nat) : Ans → Mach
  | .ok m' out => answer m' s .ok out 0
  | .okDetail m' out d => answer m' s .ok out d
  | .accepted m' => answer m' s .accepted [] 0
  | .wait m' => modSlot m' s fun x => { x with deferred := true }
  | .refuse st => answer (begun m s) s st [] 0

/-- A mailbox command executed: its entry becomes EXECUTING, its rules judge it, and it answers (R467, R470, R541). -/
def execute (m : Mach) (code s : Nat) (h : Mach → Nat → List Byte → Ans) : Mach :=
  if ready m code s then settle m s (h (begun m s) s (payload m s)) else m

/-- The meaning of a mailbox command row: the slots are 0 to 4. -/
def command (code slot : Nat) (h : Mach → Nat → List Byte → Ans) (s : State) : Host.Outcome State Fault Refusal :=
  guardUnit (slot < 5) s fun m => execute m code slot h

/-- Refusals in the order of R541: the first condition that holds decides. -/
def refuseFirst (l : List (Bool × Status)) (k : Ans) : Ans :=
  match l with
  | [] => k
  | (c, st) :: t => if c then .refuse st else refuseFirst t k

/-- The submitter's class: SERVICE for the Stavska slot after authentication (R466, R511). -/
def isService (m : Mach) (s : Nat) : Bool := s = 4 && m.svc.service

/-- Reserved bytes of a payload at 0 (R8 holds the host to it; R541 makes no rule refuse them). -/
def within (x lo hi : Nat) : Bool := lo ≤ x && x ≤ hi

/-- A signed value in a range. -/
def withinI (x lo hi : Int) : Bool := lo ≤ x && x ≤ hi

/-! ### Retention writes -/

/-- A page write enters the controller's queue (R434). -/
def nvmEnqueue (m : Mach) (w : PageWrite) : Mach := { m with nvm := { m.nvm with queue := m.nvm.queue ++ [w] } }

/-- A configuration or pack identity item is to be written to its paired slot with this payload (R430, R438). A queued
write of the same item is replaced by the later content (R450). The page is private to the firmware: item writes carry
page 4096, which names none. -/
def saveItem (m : Mach) (code key : Nat) (data : List Byte) : Mach :=
  let q := m.nvm.queue.filter fun w => w.item ≠ some (code, key)
  { m with nvm := { m.nvm with
      queue := q ++ [{ page := 4096, bytes := some data, kind := .config, item := some (code, key) }] } }

end Machine
end Sys2Proof
end

