-- ==== Sys2Proof/Machine/Crypto.lean ====
section
/-! DEFINITION. Sys2Proof/Machine/Crypto.lean: what the public-key engine computes: SHA-256 and ECDSA on P-256 (R307,
R308, R493, R512). The constants are those of the published standards (PRESUMED, log entry 12). Numbers of 32 bytes are
little-endian, as every multi-byte field (R303, R461). -/
namespace Sys2Proof
namespace Machine

/-! ### SHA-256 -/

def shaK0 : List Word := [0x428A2F98, 0x71374491, 0xB5C0FBCF, 0xE9B5DBA5,
  0x3956C25B, 0x59F111F1, 0x923F82A4, 0xAB1C5ED5,
  0xD807AA98, 0x12835B01, 0x243185BE, 0x550C7DC3,
  0x72BE5D74, 0x80DEB1FE, 0x9BDC06A7, 0xC19BF174]
def shaK1 : List Word := [0xE49B69C1, 0xEFBE4786, 0x0FC19DC6, 0x240CA1CC,
  0x2DE92C6F, 0x4A7484AA, 0x5CB0A9DC, 0x76F988DA,
  0x983E5152, 0xA831C66D, 0xB00327C8, 0xBF597FC7,
  0xC6E00BF3, 0xD5A79147, 0x06CA6351, 0x14292967]
def shaK2 : List Word := [0x27B70A85, 0x2E1B2138, 0x4D2C6DFC, 0x53380D13,
  0x650A7354, 0x766A0ABB, 0x81C2C92E, 0x92722C85,
  0xA2BFE8A1, 0xA81A664B, 0xC24B8B70, 0xC76C51A3,
  0xD192E819, 0xD6990624, 0xF40E3585, 0x106AA070]
def shaK3 : List Word := [0x19A4C116, 0x1E376C08, 0x2748774C, 0x34B0BCB5,
  0x391C0CB3, 0x4ED8AA4A, 0x5B9CCA4F, 0x682E6FF3,
  0x748F82EE, 0x78A5636F, 0x84C87814, 0x8CC70208,
  0x90BEFFFA, 0xA4506CEB, 0xBEF9A3F7, 0xC67178F2]

def shaK : List Word := shaK0 ++ shaK1 ++ shaK2 ++ shaK3

def shaInit : List Word := [0x6A09E667, 0xBB67AE85, 0x3C6EF372, 0xA54FF53A,
  0x510E527F, 0x9B05688C, 0x1F83D9AB, 0x5BE0CD19]

def rotr (x : Word) (n : Nat) : Word := x.rotateRight n

/-- The words of a message schedule, newest first, `n` more of them. -/
def shaSchedule : Nat → List Word → List Word
  | 0, w => w
  | n + 1, w =>
    let a := w.getD 1 0
    let b := w.getD 14 0
    let s1 := rotr a 17 ^^^ rotr a 19 ^^^ (a >>> 10)
    let s0 := rotr b 7 ^^^ rotr b 18 ^^^ (b >>> 3)
    shaSchedule n ((s1 + w.getD 6 0 + s0 + w.getD 15 0) :: w)

/-- One round on the eight working words. -/
def shaRound (s : List Word) (kw : Word × Word) : List Word :=
  match s with
  | [a, b, c, d, e, f, g, h] =>
    let t1 := h + (rotr e 6 ^^^ rotr e 11 ^^^ rotr e 25) + ((e &&& f) ^^^ (~~~e &&& g)) + kw.1 + kw.2
    let t2 := (rotr a 2 ^^^ rotr a 13 ^^^ rotr a 22) + ((a &&& b) ^^^ (a &&& c) ^^^ (b &&& c))
    [t1 + t2, a, b, c, d + t1, e, f, g]
  | s => s

/-- The big-endian number of some bytes. -/
def ofBe (bs : List Byte) : Nat := bs.foldl (fun acc b => 256 * acc + b.toNat) 0

/-- `n` big-endian bytes. -/
def be (n v : Nat) : List Byte := (le n v).reverse

/-- One block of 64 bytes. -/
def shaBlock (h : List Word) (b : List Byte) : List Word :=
  let w0 := (List.range 16).map fun i => BitVec.ofNat 32 (ofBe ((b.drop (4 * i)).take 4))
  let w := (shaSchedule 48 w0.reverse).reverse
  (h.zip ((shaK.zip w).foldl shaRound h)).map fun x => x.1 + x.2

/-- The message padded to whole blocks. -/
def shaPad (b : List Byte) : List Byte :=
  b ++ [0x80#8] ++ List.replicate ((119 - b.length % 64) % 64) 0#8 ++ be 8 (8 * b.length)

/-- The digest of a message: 32 bytes. -/
def sha256 (b : List Byte) : List Byte :=
  let p := shaPad b
  let h := (List.range (p.length / 64)).foldl (fun h i => shaBlock h ((p.drop (64 * i)).take 64)) shaInit
  h.flatMap fun w => be 4 w.toNat

/-! ### P-256 -/

def p256P : Nat := 0xFFFFFFFF00000001000000000000000000000000FFFFFFFFFFFFFFFFFFFFFFFF
def p256N : Nat := 0xFFFFFFFF00000000FFFFFFFFFFFFFFFFBCE6FAADA7179E84F3B9CAC2FC632551
def p256B : Nat := 0x5AC635D8AA3A93E7B3EBBD55769886BC651D06B0CC53B0F63BCE3C3E27D2604B
def p256G : Nat × Nat := (0x6B17D1F2E12C4247F8BCE6E563A440F277037D812DEB33A0F4A13945D898C296,
  0x4FE342E2FE1A7F9B8EE7EB4A7C0F9E162BCE33576B315ECECBB6406837BF51F5)

/-- A power modulo `m`. -/
def modPow (b e m : Nat) : Nat :=
  (List.range 256).foldl (fun r i => let q := r * r % m; if e.testBit (255 - i) then q * b % m else q) 1

def inv (a m : Nat) : Nat := modPow a (m - 2) m

/-- The right side of the curve's equation. -/
def curveRhs (x : Nat) : Nat := (x * x * x + (p256P - 3) * x + p256B) % p256P

/-- The coordinates are a point of the curve. -/
def onCurve (x y : Nat) : Bool := x < p256P && y < p256P && y * y % p256P = curveRhs x

/-- The point with this x and parity of y, if there is one. -/
def decompress (x parity : Nat) : Option (Nat × Nat) :=
  let y := modPow (curveRhs x) ((p256P + 1) / 4) p256P
  let y := if y % 2 = parity % 2 then y else (p256P - y) % p256P
  if onCurve x y && y % 2 = parity % 2 then some (x, y) else none

/-- The sum of two points; none is the point at infinity. -/
def ecAdd (a b : Option (Nat × Nat)) : Option (Nat × Nat) :=
  match a, b with
  | none, q => q
  | q, none => q
  | some (x1, y1), some (x2, y2) =>
    if x1 = x2 && (y1 + y2) % p256P = 0 then none
    else
      let l := if x1 = x2 then (3 * x1 * x1 + p256P - 3) * inv (2 * y1) p256P % p256P
        else (y2 + p256P - y1) * inv ((x2 + p256P - x1) % p256P) p256P % p256P
      let x := (l * l + 2 * p256P - x1 - x2) % p256P
      some (x, (l * (x1 + p256P - x) + p256P - y1) % p256P)

/-- A multiple of a point. -/
def ecMul (k : Nat) (q : Option (Nat × Nat)) : Option (Nat × Nat) :=
  (List.range 256).foldl (fun r i => let d := ecAdd r r; if k.testBit (255 - i) then ecAdd d q else d) none

/-- A signature (r, s) of a message by a key. -/
def ecdsaOk (key : Nat × Nat) (msg : List Byte) (r s : Nat) : Bool :=
  0 < r && r < p256N && 0 < s && s < p256N &&
    (let w := inv s p256N
     let h := ofBe (sha256 msg)
     match ecAdd (ecMul (h * w % p256N) (some p256G)) (ecMul (r * w % p256N) (some key)) with
     | some (x, _) => x % p256N = r
     | none => false)

/-- A signature of 64 bytes, r then s. -/
def sigOk (key : Nat × Nat) (msg sig : List Byte) : Bool := ecdsaOk key msg (ofLe (sig.take 32)) (ofLe (sig.drop 32))

end Machine
end Sys2Proof
end

