-- ==== Sys2Proof/Machine/F32.lean ====
section
/-! DEFINITION. Sys2Proof/Machine/F32.lean: IEEE 754 single precision (R325) on its bit patterns: the exact result of an
operation, rounded to nearest with ties to even. A finite value is m * 2^e with an integer m. -/
namespace Sys2Proof
namespace Machine

def fNaN : F32 := 0x7FC00000#32
def fInf (neg : Bool) : F32 := if neg then 0xFF800000#32 else 0x7F800000#32
def fZero (neg : Bool) : F32 := if neg then 0x80000000#32 else 0#32

def fNeg? (x : F32) : Bool := x.getLsbD 31
def fExp (x : F32) : Nat := x.toNat / 2 ^ 23 % 256
def fFrac (x : F32) : Nat := x.toNat % 2 ^ 23
def fIsNaN (x : F32) : Bool := fExp x = 255 && fFrac x ≠ 0
def fIsInf (x : F32) : Bool := fExp x = 255 && fFrac x = 0
def fFinite (x : F32) : Bool := fExp x ≠ 255

/-- The magnitude m and exponent e of a finite value. -/
def fMag (x : F32) : Nat × Int :=
  if fExp x = 0 then (fFrac x, -149) else (fFrac x + 2 ^ 23, (fExp x : Int) - 150)

/-- m * 2^e, with `sticky` for a nonzero remainder below it, rounded to nearest, ties to even. -/
def fRound (neg : Bool) (m : Nat) (e : Int) (sticky : Bool) : F32 :=
  if m = 0 then fZero neg
  else
    let l : Int := Nat.log2 m
    let sh := max (l - 23) (-149 - e)
    let (q, e') : Nat × Int :=
      if sh ≤ 0 then (m * 2 ^ (-sh).toNat, e + sh)
      else
        let d := 2 ^ sh.toNat
        let r := m % d
        let up := d < 2 * r || (d = 2 * r && (sticky || m / d % 2 = 1))
        (m / d + (if up then 1 else 0), e + sh)
    let (q, e') := if q = 2 ^ 24 then (2 ^ 23, e' + 1) else (q, e')
    let bits : Nat := if q < 2 ^ 23 then q else
      let x := (e' + 150).toNat
      if 255 ≤ x then 255 * 2 ^ 23 else x * 2 ^ 23 + (q - 2 ^ 23)
    BitVec.ofNat 32 (bits + if neg then 2 ^ 31 else 0)

/-- A signed exact value rounded. -/
def fOfDyadic (m : Int) (e : Int) : F32 := fRound (m < 0) m.natAbs e false

def fSigned (x : F32) : Int × Int := let (m, e) := fMag x; (if fNeg? x then -(m : Int) else m, e)

def fAdd (x y : F32) : F32 :=
  if fIsNaN x || fIsNaN y then fNaN
  else if fIsInf x then (if fIsInf y && fNeg? x ≠ fNeg? y then fNaN else x)
  else if fIsInf y then y
  else
    let (a, ea) := fSigned x
    let (b, eb) := fSigned y
    if a = 0 && b = 0 then fZero (fNeg? x && fNeg? y)
    else
      let e := min ea eb
      fOfDyadic (a * 2 ^ (ea - e).toNat + b * 2 ^ (eb - e).toNat) e

def fNeg (x : F32) : F32 := x ^^^ 0x80000000#32
def fSub (x y : F32) : F32 := fAdd x (fNeg y)

def fMul (x y : F32) : F32 :=
  let neg := fNeg? x ≠ fNeg? y
  if fIsNaN x || fIsNaN y then fNaN
  else
    let zx := fFinite x && (fMag x).1 = 0
    let zy := fFinite y && (fMag y).1 = 0
    if fIsInf x || fIsInf y then (if zx || zy then fNaN else fInf neg)
    else fRound neg ((fMag x).1 * (fMag y).1) ((fMag x).2 + (fMag y).2) false

def fDiv (x y : F32) : F32 :=
  let neg := fNeg? x ≠ fNeg? y
  if fIsNaN x || fIsNaN y then fNaN
  else
    let zx := fFinite x && (fMag x).1 = 0
    let zy := fFinite y && (fMag y).1 = 0
    if fIsInf x then (if fIsInf y then fNaN else fInf neg)
    else if fIsInf y then fZero neg
    else if zy then (if zx then fNaN else fInf neg)
    else
      let n := (fMag x).1 * 2 ^ 60
      let d := (fMag y).1
      fRound neg (n / d) ((fMag x).2 - (fMag y).2 - 60) (n % d ≠ 0)

def fSqrt (x : F32) : F32 :=
  if fIsNaN x then fNaN
  else if fFinite x && (fMag x).1 = 0 then x
  else if fNeg? x then fNaN
  else if fIsInf x then x
  else
    let (m, e) := fMag x
    let (m, e) := if e % 2 = 0 then (m, e) else (2 * m, e - 1)
    let n := m * 2 ^ 60
    let r := isqrt n
    fRound false r ((e - 60) / 2) (r * r ≠ n)

/-- x < y; false where either is not a number. -/
def fLt (x y : F32) : Bool :=
  if fIsNaN x || fIsNaN y then false
  else
    let v (z : F32) : Int := if fNeg? z then -((z.toNat - 2 ^ 31 : Nat) : Int) else z.toNat
    v x < v y

def fAbs (x : F32) : F32 := x &&& 0x7FFFFFFF#32
def fClamp (x lo hi : F32) : F32 := if fLt x lo then lo else if fLt hi x then hi else x

/-- The nearest single to a rational. -/
def fOfRat (q : Rat) : F32 :=
  let n := q.num.natAbs * 2 ^ 200
  fRound (q.num < 0) (n / q.den) (-200) (n % q.den ≠ 0)

def fOfInt (i : Int) : F32 := fOfDyadic i 0

/-- The exact value of a finite single; 0 where it is none. -/
def fToRat (x : F32) : Rat :=
  if fFinite x then
    let (m, e) := fSigned x
    if 0 ≤ e then (m * 2 ^ e.toNat : Int) else (m : Rat) / ((2 ^ (-e).toNat : Nat) : Rat)
  else 0

end Machine
end Sys2Proof
end

