-- ==== Sys2Proof/Machine/Flags.lean ====
section
/-! DEFINITION. Sys2Proof/Machine/Flags.lean: the status words of R376 as computed from the blocks' causes, and the
interrupt lines of R383. -/
namespace Sys2Proof
namespace Machine

/-- Bits of a list of (code, severity) by category (R376). -/
def catBits (l : List (Nat × Nat)) : Nat := bitmap (l.map fun x => catOf x.1)

/-- The LIVE causes of a block: those it holds, EVENT of the mailboxes while a slot is DONE (R463), EVENT of the UI
while its event ring is not empty (R259), and GUARD_HOLD while the hold lasts (R399). -/
def liveOf (m : Mach) (b : Nat) : List (Nat × Nat) :=
  (getBlk m b).live
    ++ (if b = blkMbx ∧ ((List.range 4).any fun s => (getSlot m s).st = .done) then [(0x92, 1)] else [])
    ++ (if b = blkUi ∧ !m.ui.events.isEmpty then [(0x92, 1)] else [])
    ++ (if b = blkGuard ∧ m.grd.hold then [(0x6C, 7)] else [])

/-- CAUSE of a block (R376). -/
def causeBits (m : Mach) (b : Nat) : Nat := catBits (getBlk m b).sticky

/-- LIVE of a block (R376). -/
def liveBits (m : Mach) (b : Nat) : Nat := catBits (liveOf m b)

/-- A block is declared off or unused (R377): a port of MODE 0, a converter of TOPO 0. -/
def blkOff (m : Mach) (b : Nat) : Bool :=
  if b < 0x30 then (getPort m b).mode = 0
  else if b < 0x67 then (getCv m (b - 0x30)).decl.topo = 0
  else false

/-- A unit inside the block is fenced or retired (R377): a phase of a converter, an ADC of the array. -/
def unitDown (m : Mach) (b : Nat) : Bool :=
  if 0x30 ≤ b && b < 0x67 then
    let c := getCv m (b - 0x30)
    (List.range (declaredPhases c.decl)).any fun i => (tget c.ph {} i).st = .fenced
  else if b = blkAdc then (List.range 34).any fun a => (tget m.adc.units {} a).st = .retired
  else false

/-- STATE of a block: the first that applies in the list of R377. -/
def stateOf (m : Mach) (b : Nat) : Nat :=
  let w := getBlk m b
  if blkOff m b then 5
  else if w.resetting then 3
  else if w.fence.isSome then 2
  else if w.updating then 4
  else if unitDown m b || ((liveOf m b).any fun x => 3 ≤ x.2) || (w.sticky.any fun x => x.2 = 3) then 1
  else 0

/-- The status word of block `b` (R376); 0 for an ID that names no block (R11). -/
def statusWord (m : Mach) (b : Nat) : Nat :=
  if isBlock b then
    let w := getBlk m b
    stateOf m b * 2 ^ 28 + w.sev * 2 ^ 24 + w.first * 2 ^ 16 + causeBits m b * 2 ^ 8 + liveBits m b
  else 0

/-- GRD_IRQ_ROUTE of block `b` (R383). -/
def routeWord (m : Mach) (b : Nat) : Nat :=
  if isBlock b then
    let w := getBlk m b
    w.causeEn.toNat * 2 ^ 16 + w.liveEn.toNat * 2 ^ 8 + flag w.en 2 + w.line
  else 0

/-- Block `b` asserts its routed interrupt (R383). -/
def asserts (m : Mach) (b : Nat) : Bool :=
  let w := getBlk m b
  isBlock b && w.en && (Nat.land (causeBits m b) w.causeEn.toNat ≠ 0 || Nat.land (liveBits m b) w.liveEn.toNat ≠ 0)

/-- IRQ`k`_N is pulled low (R383). The lines are released while the device is in its reset phase (R56). -/
def irqLow (m : Mach) (k : Nat) : Bool :=
  !m.dev.resetPhase && (List.range 139).any fun b => asserts m b && (getBlk m b).line = k

/-- GRD_IRQ_LINES (R456). -/
def irqLines (m : Mach) : Nat := bitmap ((List.range 4).filter fun k => irqLow m k)

/-- GRD_ASSERT(k) (R456). -/
def assertWord (m : Mach) (k : Nat) : Nat := bitmap ((List.range 32).filter fun j => asserts m (32 * k + j))

/-- GRD_BIB (R395). -/
def bibWord (m : Mach) : Nat :=
  satTo 255 m.grd.failovers * 2 ^ 24 + satTo 255 m.grd.handovers * 2 ^ 16 + flag m.grd.hold 7
    + flag m.grd.holdParked 6 + flag (getProc m 1).sync 5 + flag (getProc m 0).sync 4 + m.grd.owner

end Machine
end Sys2Proof
end

