-- ==== Sys2Proof/Machine/Nvm.lean ====
section
/-! DEFINITION. Sys2Proof/Machine/Nvm.lean: the retention memory (chapter 16): pages and their groups, the write queue,
spread counters, paired slots, fast-value images, the power-down save, and the retention commands. -/
namespace Sys2Proof
namespace Machine

/-! ### Pages -/

/-- Status of a group as stored: unlisted is BLANK (R429). -/
def groupStat (nv : Nvm) (g : Nat) : GStat := amGet .blank nv.stat g

/-- Stored byte at `page`, `off`; 0xFF in an erased page. -/
def rawByte (nv : Nvm) (page off : Nat) : Byte := amGet 0xFF nv.bytes (64 * page + off)

/-- Pages whose bytes are the device's own affair: factory calibration, configuration and pack identity (R430). -/
def privatePage (page : Nat) : Bool := page < 64 || (184 ≤ page && page < 440) || (984 ≤ page && page < 2008)

/-- The status of group `k` of a page as a read returns it (R431). Private pages are free but for a memory that has
never held an item, whose configuration pages read BLANK. -/
def readStat (nv : Nvm) (page k : Nat) : GStat :=
  if page < 64 then .ok
  else if privatePage page then
    (if nv.items.isEmpty then .blank else if Config.itemGroup (8 * page + k) then .ok else .blank)
  else groupStat nv (8 * page + k)

/-- The byte a read returns (R431). -/
def readByte (nv : Nvm) (page off : Nat) : Byte :=
  if page < 64 then Config.factoryByte (64 * page + off)
  else if privatePage page then
    (if readStat nv page (off / 8) = .blank then 0xFF else Config.cfgByte page off nv.items.length)
  else rawByte nv page off

def statCode : GStat → Nat
  | .ok => 0 | .corrected => 1 | .blank => 2 | .unc => 3

/-- Every group of the page reads BLANK. -/
def pageBlank (nv : Nvm) (page : Nat) : Bool := (List.range 8).all fun k => readStat nv page k = .blank

/-- Every group reads OK or CORRECTED. -/
def pageGood (nv : Nvm) (page : Nat) : Bool :=
  (List.range 8).all fun k => readStat nv page k = .ok || readStat nv page k = .corrected

/-- The 64 bytes of a page. -/
def pageBytes (nv : Nvm) (page : Nat) : List Byte := (List.range 64).map fun o => rawByte nv page o

/-- Group `k` of a page programmed (R432). -/
def programGroup (nv : Nvm) (page k : Nat) (bs : List Byte) : Nvm :=
  { nv with bytes := amPutAll 0xFF nv.bytes (64 * page + 8 * k) ((bs.drop (8 * k)).take 8)
            stat := amPut .blank nv.stat (8 * page + k) .ok }

/-- Group `k` of a page blank. -/
def blankGroup (nv : Nvm) (page k : Nat) : Nvm :=
  { nv with bytes := amPutAll 0xFF nv.bytes (64 * page + 8 * k) (List.replicate 8 0xFF)
            stat := amPut .blank nv.stat (8 * page + k) .blank }

/-- Group `k` uncorrectable, with the raw bytes of Config (R431). -/
def uncGroup (nv : Nvm) (page k n : Nat) : Nvm :=
  { nv with bytes := amPutAll 0xFF nv.bytes (64 * page + 8 * k) (le 8 (Config.uncBytes n).toNat)
            stat := amPut .blank nv.stat (8 * page + k) .unc }

def nvFold (nv : Nvm) (l : List Nat) (f : Nvm → Nat → Nvm) : Nvm := l.foldl f nv

/-- A page erased. -/
def erasePage (nv : Nvm) (page : Nat) : Nvm := nvFold nv (List.range 8) fun nv k => blankGroup nv page k

/-- A page erased and its groups 0 to 7 programmed (R432). -/
def programPage (nv : Nvm) (page : Nat) (bs : List Byte) : Nvm :=
  nvFold nv (List.range 8) fun nv k => programGroup nv page k bs

/-- The bytes of a host write merged into its page, wrapping past offset 63 (R433). -/
def mergeHost (nv : Nvm) (page off : Nat) (data : List Byte) : List Byte :=
  let n := data.length
  (List.range 64).map fun o =>
    let j := (o + 64 - off) % 64
    if j < n then data.getD j 0 else rawByte nv page o

/-! ### Spread counters (R439) -/

/-- The valid copy page `pg` holds. -/
def copyValid (nv : Nvm) (pg : Nat) : Option Nat :=
  let s := groupStat nv (8 * pg)
  let a := ofLe ((List.range 4).map fun o => rawByte nv pg o)
  let b := ofLe ((List.range 4).map fun o => rawByte nv pg (4 + o))
  if (s = .ok || s = .corrected) && a + b = 0xFFFFFFFF then some a else none

/-- The largest valid copy and the index of its page, 7 with none (ctr_read of R439). -/
def ctrRead (nv : Nvm) (c : Nat) : Nat × Nat :=
  let r := (List.range 8).foldl (fun (acc : Option (Nat × Nat)) k =>
    match copyValid nv (64 + 8 * c + k), acc with
    | some v, none => some (v, k)
    | some v, some (b, at_) => if b < v then some (v, k) else some (b, at_)
    | none, acc => acc) none
  match r with
  | some (v, k) => (v, k)
  | none => (0, 7)

/-- The 64 bytes of a counter's copy. -/
def counterBytes (target : Nat) : List Byte := le 4 target ++ le 4 (0xFFFFFFFF - target) ++ List.replicate 56 0xFF

/-- A counter raised to `target` (ctr_raise of R439): never lowered, never repeated. -/
def ctrRaise (nv : Nvm) (c target : Nat) : Nvm :=
  let (v, at_) := ctrRead nv c
  if target ≤ v ∨ 0xFFFFFFFF < target then nv
  else programPage nv (64 + 8 * c + (at_ + 1) % 8) (counterBytes target)

/-! ### Paired slots (R437, R438) -/

/-- A one-page copy is valid: every group good and its CRC right. -/
def copyOk (nv : Nvm) (page : Nat) : Bool :=
  let bs := pageBytes nv page
  pageGood nv page && ofLe (bs.drop 60) = crc32 (bs.take 60)

def pageSeq (nv : Nvm) (page : Nat) : Nat := ofLe ((pageBytes nv page).take 4)

/-- SEQ `b` is newer than `a` (the signed difference of R437). -/
def seqNewer (b a : Nat) : Bool := let d := (b + 4294967296 - a) % 4294967296; d ≠ 0 && d < 2147483648

/-- slot_pick of R437 over two one-page copies: the chosen page, and whether the older copy was taken. -/
def slotPick (nv : Nvm) (a b : Nat) : Option Nat × Bool :=
  match copyOk nv a, copyOk nv b with
  | true, true => (some (if seqNewer (pageSeq nv b) (pageSeq nv a) then b else a), false)
  | true, false => (some a, 1 < pageSeq nv a)
  | false, true => (some b, 1 < pageSeq nv b)
  | false, false => (none, false)

/-- The page a slot write goes to and its SEQ (R438). -/
def slotTarget (nv : Nvm) (a b : Nat) : Nat × Nat :=
  match (slotPick nv a b).1 with
  | none => (a, 1)
  | some c => (if c = a then b else a, (pageSeq nv c + 1) % 4294967296)

/-- An item's slot written with `data` (R438). -/
def itemWrite (items : List CfgItem) (code key : Nat) (data : List Byte) : List CfgItem :=
  let upd (x : CfgItem) : CfgItem :=
    let cur := if x.chosenB then x.b else x.a
    let seq := match cur with
      | some (q, _) => q + 1
      | none => 1
    match cur, x.chosenB with
    | none, _ => { x with a := some (seq, data), chosenB := false, reverted := false }
    | some _, false => { x with b := some (seq, data), chosenB := true, reverted := false }
    | some _, true => { x with a := some (seq, data), chosenB := false, reverted := false }
  if items.any fun x => x.code = code ∧ x.key = key then
    items.map fun x => if x.code = code ∧ x.key = key then upd x else x
  else items ++ [upd { code := code, key := key }]

/-- The copy an item's write goes to is not valid (R435, R438). -/
def tornItem (items : List CfgItem) (code key : Nat) : List CfgItem :=
  let upd (x : CfgItem) : CfgItem :=
    if x.chosenB then { x with a := none } else if x.a.isSome then { x with b := none } else x
  if items.any fun x => x.code = code ∧ x.key = key then
    items.map fun x => if x.code = code ∧ x.key = key then upd x else x
  else items ++ [{ code := code, key := key }]

/-- The data recall finds for an item (R437). -/
def itemData (x : CfgItem) : Option (List Byte) :=
  (match x.a, x.b with
   | some (sa, da), some (sb, db) => some (if seqNewer sb sa then db else da)
   | some (_, da), none => some da
   | none, some (_, db) => some db
   | none, none => none)

/-! ### Learned records (R350): one-page copies at 440 + 2n and 441 + 2n; the content is the estimator's -/

def learnedPages (x : Nat) : Nat × Nat := (440 + 2 * x, 441 + 2 * x)

/-! ### The write queue (R434) -/

/-- The priority of a kind of write (R434). -/
def prio : NvmKind → Nat
  | .save => 0 | .counter => 1 | .config => 2 | .learned => 3 | .checkpoint => 3 | .host => 4 | .hostErase => 4

def isHostWrite (w : PageWrite) : Bool := w.kind = .host || w.kind = .hostErase

/-- The next write: a waiting host write after two others (R434), else the first of the highest priority. -/
def nvmPick (nv : Nvm) : Option PageWrite :=
  match nv.queue.find? isHostWrite with
  | some h => if 2 ≤ nv.sinceHost then some h else best nv.queue
  | none => best nv.queue
where
  best (q : List PageWrite) : Option PageWrite :=
    q.foldl (fun acc w => match acc with
      | none => some w
      | some b => if prio w.kind < prio b.kind then some w else some b) none

/-- A host write begun: the page is read and the new bytes are merged into it (R432, steps 1 and 2). -/
def mergeNow (nv : Nvm) (w : PageWrite) : PageWrite :=
  if w.kind = .host then { w with bytes := w.bytes.map (mergeHost nv w.page w.off) } else w

/-- The controller begins its next write when it is idle and NVMCLK runs (R434). -/
def nvmKick (m : Mach) : Mach :=
  if m.nvm.cur.isNone && m.dev.xin then
    match nvmPick m.nvm with
    | none => m
    | some w =>
      { m with nvm := { m.nvm with
          cur := some { mergeNow m.nvm w with startAt := m.dev.now }, queue := m.nvm.queue.erase w
          sinceHost := if isHostWrite w then 0 else m.nvm.sinceHost + 1 } }
  else m

/-- A page write requested. -/
def nvmSubmit (m : Mach) (w : PageWrite) : Mach := nvmKick (nvmEnqueue m w)

/-- A configuration item requested to be written. -/
def nvmConfig (m : Mach) (code key : Nat) (data : List Byte) : Mach := nvmKick (saveItem m code key data)

/-- A counter's raise requested; `target` is judged when the write is performed (R450). -/
def nvmRaise (m : Mach) (c target : Nat) : Mach := nvmSubmit m { page := target, kind := .counter, ctx := some c }

/-- The page a write programs: a counter's raise goes to the page after its largest copy (R439). -/
def realPage (nv : Nvm) (w : PageWrite) : Nat :=
  if w.kind = .counter then
    let c := w.ctx.getD 0
    64 + 8 * c + ((ctrRead nv c).2 + 1) % 8
  else w.page

/-- How long a page write takes (R432): the erase is skipped on a blank page; an erase alone programs nothing. -/
def writeNs (nv : Nvm) (w : PageWrite) : Nat :=
  if w.kind = .hostErase then 350000 else if pageBlank nv (realPage nv w) then 720000 else 1070000

/-- The two pages of the copy that a write of pack identity record `x` goes to (R430, R438). -/
def recordPages (nv : Nvm) (x : Nat) : List Nat :=
  let b := match nv.items.find? fun y => y.code = 0x0804 ∧ y.key = x with
    | some y => y.a.isSome && !y.chosenB
    | none => false
  let base := 984 + 4 * x + (if b then 2 else 0)
  [base, base + 1]

/-- The perturbation of KIND 7 that tears this write (R520): an erase programs nothing. -/
def tornBy (m : Mach) (w : PageWrite) : Option Ptb :=
  let pages := match w.item with
    | some (c, x) => if c = 0x0804 then recordPages m.nvm x else []
    | none => if w.kind = NvmKind.hostErase then [] else [realPage m.nvm w]
  m.svc.ptbs.find? fun b => b.kind = 7 && pages.contains b.target

/-- The contents of a finished page write. -/
def applyWrite (nv : Nvm) (w : PageWrite) : Nvm :=
  match w.kind, w.bytes with
  | .counter, _ => ctrRaise nv (w.ctx.getD 0) w.page
  | .hostErase, _ => erasePage nv w.page
  | _, some bs =>
    match w.item with
    | some (c, k) => { nv with items := itemWrite nv.items c k bs }
    | none => programPage nv w.page bs
  | _, none => erasePage nv w.page

/-- A write both of whose attempts failed: each group of the page is what Config leaves it (no rule says). -/
def failWrite (m : Mach) (w : PageWrite) : Mach :=
  if w.item.isSome || w.kind = .counter then m
  else
    (List.range 8).foldl (fun m k =>
      let (n, m) := draw m
      let bs := w.bytes.getD (List.replicate 64 0xFF)
      { m with nvm := match (Config.tornChoice n).val with
          | 0 => programGroup m.nvm w.page k bs
          | 1 => blankGroup m.nvm w.page k
          | _ => uncGroup m.nvm w.page k n }) m

/-- The slot whose retention command waits is answered (R448). -/
def answerWriter (m : Mach) (w : PageWrite) (verify : Nat) : Mach :=
  match w.slot with
  | none => m
  | some s =>
    if (getSlot m s).st = .executing && (getSlot m s).deferred then
      answer m s .ok (if w.kind = .hostErase then [] else [BitVec.ofNat 8 verify, 0, 0, 0]) 0
    else m

/-- NVM_PAGE_WRITE_DONE (R432): the write in progress ends with its read-back, after one retry where the first read-back
mismatched; two mismatches record NVM_UNC. Then the controller takes its next write. -/
def pageWriteDone (m : Mach) (ok1 ok2 : Bool) : Mach :=
  match (if m.dev.xin then m.nvm.cur else none) with
  | none => m
  | some w =>
    let once := ok1 || m.nvm.reverify
    let clean := ok1 && !m.nvm.reverify
    -- a second attempt erases and programs once more
    let more := if once then 0 else if w.kind = NvmKind.hostErase then 350000 else 1070000
    let m := advanceTo m (w.startAt + writeNs m.nvm w + more)
    let m :=
      match tornBy m w with
      | some b =>
        -- groups VALUE to 7 stay BLANK, and an item's copy with them is not valid
        let bs := w.bytes.getD (List.replicate 64 0xFF)
        let nv := match w.item with
          | some (c, x) => { m.nvm with items := tornItem m.nvm.items c x }
          | none => nvFold (erasePage m.nvm w.page) (List.range b.value.toNat) fun nv k => programGroup nv w.page k bs
        let m := note { m with nvm := nv } blkNvm .nvmUnc 2
        answerWriter (ptbEnd m b.id) w 2
      | none =>
        if clean || ok2 then
          let m := { m with nvm := applyWrite m.nvm w }
          let m := match w.ctx with
            | some x => if w.kind = NvmKind.learned then
                modCtx m x fun c => { c with learnPending := false, reverted := false } else m
            | none => m
          answerWriter m w (if clean then 0 else 1)
        else answerWriter (note (failWrite m w) blkNvm .nvmUnc 2) w 2
    nvmKick { m with nvm := { m.nvm with cur := none, reverify := false } }

/-- A command in progress is abandoned (R471): its entry, and a host slot returns to EMPTY with ABN set. -/
def abandonSlot (m : Mach) (s : Nat) : Mach :=
  let seq := (getSlot m s).jseq
  let r := ringMod m.mbx.ring seq fun e => { e with st := .abandoned, doneMs := nowMs m }
  let x := { m.mbx with ring := r, accepted := m.mbx.accepted.filter fun x => x ≠ s }
  let m := { m with mbx := flushWaiting x 64 }
  -- what the command had left to answer it is forgotten: a page write, a set map, a self-test
  let free (w : PageWrite) : PageWrite := { w with slot := if w.slot = some s then none else w.slot }
  let m := { m with nvm := { m.nvm with cur := m.nvm.cur.map free, queue := m.nvm.queue.map free } }
  let m := forAll m (List.range 55) fun m k => modCv m k fun c =>
    { c with selftestSlot := if c.selftestSlot = some s then none else c.selftestSlot
             ctrl := { c.ctrl with mapSlot := if c.ctrl.mapSlot = some s then none else c.ctrl.mapSlot } }
  modSlot m s fun x => { x with st := .empty, abn := if s < 4 then true else x.abn, deferred := false }

/-! ### Fast-value images (R441, R442) -/

/-- The 448 data bytes of an image. -/
def imageData (m : Mach) (kind : Nat) : List Byte :=
  let f := m.nvm.fast
  let sat (n : Nat) : Nat := satTo 0xFFFFFFFF n
  [BitVec.ofNat 8 kind, 0, 0, 0] ++ le 4 (f.runNs / 1000000000)
    ++ (f.eIn.flatMap fun e => le 4 (sat e)) ++ le 4 (sat f.ePortOut) ++ le 4 (sat f.ePortIn) ++ le 4 (sat f.eStoChg)
    ++ le 4 (sat f.eStoDsg) ++ le 4 (sat f.eAux) ++ le 4 (nowMs m)
    ++ ((List.range 48).flatMap fun p => le 4 (getPort m p).plugs)
    ++ ((List.range 16).flatMap fun j =>
        let c := getCtx m (256 + j)
        le 2 (c.soc * 10000).floor.toNat ++ le 2 (c.sigma * 10000).floor.toNat ++ le 4 (c.anchorAge / 1000))
    ++ List.replicate 72 0

/-- Page `j` of an image: SEQ, 56 bytes of the data, CRC-32. -/
def imagePage (data : List Byte) (seq j : Nat) : List Byte :=
  let b := le 4 seq ++ (data.drop (56 * j)).take 56
  b ++ le 4 (crc32 b)

/-- The image at `base` is valid: eight valid pages of one SEQ (R441). -/
def imageSeqAt (nv : Nvm) (base : Nat) : Option Nat :=
  let q := pageSeq nv base
  if (List.range 8).all fun j => copyOk nv (base + j) && pageSeq nv (base + j) = q then some q else none

/-- The bases of the four checkpoints and of the save region's image. -/
def imageBases : List Nat := [128, 136, 144, 152, 160]

/-- The newest valid image: its base and SEQ (R442). -/
def newestImage (nv : Nvm) : Option (Nat × Nat) :=
  imageBases.foldl (fun acc b => match imageSeqAt nv b, acc with
    | some q, none => some (b, q)
    | some q, some (ba, qa) => if qa < q then some (b, q) else some (ba, qa)
    | none, acc => acc) none

/-- The data of the image at `base`. -/
def imageRead (nv : Nvm) (base : Nat) : List Byte :=
  (List.range 8).flatMap fun j => ((pageBytes nv (base + j)).drop 4).take 56

/-- The fast values restored from an image (R442). -/
def restoreFast (m : Mach) (d : List Byte) : Mach :=
  let f : Fast := { runNs := pU d 4 4 * 1000000000, eIn := (List.range 6).map fun j => pU d (8 + 4 * j) 4,
                    ePortOut := pU d 32 4, ePortIn := pU d 36 4, eStoChg := pU d 40 4, eStoDsg := pU d 44 4,
                    eAux := pU d 48 4 }
  let m := { m with nvm := { m.nvm with fast := f } }
  let m := forAll m (List.range 48) fun m p => modPort m p fun x => { x with plugs := pU d (56 + 4 * p) 4 }
  forAll m (List.range 16) fun m j => modCtx m (256 + j) fun c =>
    { c with soc := (pU d (248 + 8 * j) 2 : Rat) / 10000, sigma := (pU d (250 + 8 * j) 2 : Rat) / 10000,
             anchorAge := 1000 * pU d (252 + 8 * j) 4 }

/-- The energy totals as the device has metered them when an image is taken (R441): they never fall; no rule says how the
energy is metered, so each has grown by a free value. -/
def energyMeter (m : Mach) : Mach :=
  let n := m.dev.freeCtr
  let f := m.nvm.fast
  let up (e k : Nat) : Nat := satTo 0xFFFFFFFF (e + Config.freeNat (n + k))
  { m with
    dev := { m.dev with freeCtr := n + 11 }
    nvm := { m.nvm with fast := { f with
      eIn := f.eIn.zipIdx.map fun e => up e.1 e.2, ePortOut := up f.ePortOut 6, ePortIn := up f.ePortIn 7
      eStoChg := up f.eStoChg 8, eStoDsg := up f.eStoDsg 9, eAux := up f.eAux 10 } } }

/-- CHECKPOINT (R442): the present fast values go into the next image of the ring. -/
def writeCheckpoint (m : Mach) : Mach :=
  let m := energyMeter m
  let seq := m.nvm.imageSeq + 1
  let data := imageData m 1
  let base := 128 + 8 * m.nvm.ringNext
  let m := forAll m (List.range 8) fun m j =>
    nvmEnqueue m { page := base + j, bytes := some (imagePage data seq j), kind := .checkpoint }
  nvmKick { m with nvm := { m.nvm with imageSeq := seq, ringNext := (m.nvm.ringNext + 1) % 4 } }

/-! ### The power-down save (R444 to R446) -/

/-- The 32 bytes of a journal entry (R469). -/
def entryBytes (e : JEntry) : List Byte :=
  le 4 e.seq ++ le 4 e.acceptMs ++ le 4 e.doneMs ++ le 4 e.tag ++ le 4 e.argCrc ++ le 2 e.code ++ le 2 e.result
    ++ [BitVec.ofNat 8 e.cls, BitVec.ofNat 8 e.slot,
        BitVec.ofNat 8 (match e.st with
          | .accepted => 0 | .executing => 1 | .done => 2 | .failed => 3 | .abandoned => 4), BitVec.ofNat 8 e.dups]
    ++ le 4 e.detail

/-- An entry read back; one saved ACCEPTED or EXECUTING returns ABANDONED (R446). -/
def entryOf (b : List Byte) : JEntry :=
  let st := pU b 26 1
  { seq := pU b 0 4, acceptMs := pU b 4 4, doneMs := pU b 8 4, tag := pU b 12 4, argCrc := pU b 16 4,
    code := pU b 20 2, result := pU b 22 2, cls := pU b 24 1, slot := pU b 25 1,
    st := if st = 2 then .done else if st = 3 then .failed else .abandoned,
    dups := pU b 27 1, detail := pU b 28 4, answered := true }

/-- SAVE_READY of R449: all 24 save pages read BLANK. -/
def saveReady (nv : Nvm) : Bool := (List.range 24).all fun j => pageBlank nv (160 + j)

/-- A save page written: only into a BLANK page, and only while HOLD carries it (R445, R446). -/
def savePage (nv : Nvm) (page : Nat) (bs : List Byte) (hold : Bool) : Nvm :=
  if hold && pageBlank nv page then programPage nv page bs else nv

/-- HOLD before the nth page of the save is at or above 5 880 mV (R445); a save by command takes no reading. -/
def holdFor (hold : List Nat) (n : Nat) : Bool :=
  match hold[n]? with
  | some v => 5880 ≤ v
  | none => hold.isEmpty || (match hold.getLast? with
    | some v => 5880 ≤ v
    | none => true)

/-- The learned record writes that wait, in queue order (R444 step 4). -/
def pendingLearned (nv : Nvm) : List PageWrite := nv.queue.filter fun w => w.kind = .learned

/-- The save region programmed (R444): the fast values, the last 16 journal entries, then up to `cap` waiting learned
records; the retention memory after it and how many records were lost. -/
def saveRegionWrite (m : Mach) (kind : Nat) (hold : List Nat) (cap : Nat) : Nvm × Nat :=
  let seq := m.nvm.imageSeq + 1
  let data := imageData m kind
  let last := (m.mbx.ring.drop (m.mbx.ring.length - 16)).map entryBytes
  let jb : List Byte := last.flatten
  let nJ := (last.length + 1) / 2
  let nv := nvFold m.nvm (List.range 8) fun nv j => savePage nv (160 + j) (imagePage data seq j) (holdFor hold j)
  let nv := nvFold nv (List.range nJ) fun nv j =>
    let b := (jb.drop (64 * j)).take 64
    savePage nv (176 + j) (b ++ List.replicate (64 - b.length) 0xFF) (holdFor hold (8 + j))
  let ln := pendingLearned nv
  let saved := (ln.take cap).zipIdx.filter fun x => holdFor hold (8 + nJ + x.2)
  (saved.foldl (fun nv x => savePage nv (168 + x.2) (x.1.bytes.getD []) true) nv,
    if kind = 3 then 0 else ln.length - saved.length)

/-- POWER_DOWN_SAVE (R444): the page write in progress is completed; then the image, the last 16 entries and the pending
learned records go to the save region, each page only while HOLD lasts. `kind` is 2 on a warning, 3 by command. With NVMCLK
stopped nothing is written. -/
def powerDownSave (m : Mach) (kind : Nat) (hold : List Nat) : Mach :=
  if !m.dev.xin then { m with nvm := { m.nvm with saving := some kind } } else
  let hadCur := m.nvm.cur.isSome
  let m := pageWriteDone m true true
  let m := { m with nvm := { m.nvm with
      queue := (match m.nvm.cur with
        | some w => w :: m.nvm.queue
        | none => m.nvm.queue), cur := none } }
  let m := energyMeter m
  let (nv, lost) := saveRegionWrite m kind hold (if kind = 3 then 8 else if hadCur then 6 else 7)
  let m := { m with nvm := { nv with imageSeq := m.nvm.imageSeq + 1, saving := some kind }
                    est := { m.est with learnLost := m.est.learnLost + lost } }
  let m := if lost = 0 then m else note m blkEst .learnLost 2
  if (imageSeqAt nv 160).isSome then { m with nvm := ctrRaise m.nvm 3 ((ctrRead m.nvm 3).1 + 1) } else m

/-- The save region is erased again (R446): fast values, journal, then the learned pages whose records no longer wait. -/
def eraseSaveRegion (m : Mach) : Mach :=
  let nv := nvFold m.nvm ((List.range 8).map (160 + ·) ++ (List.range 8).map (176 + ·)) erasePage
  let waiting := !(pendingLearned nv).isEmpty || (match nv.cur with
    | some w => w.kind = .learned
    | none => false)
  let nv := if waiting then nv else nvFold nv ((List.range 8).map (168 + ·)) erasePage
  { m with nvm := { nv with saving := none } }

/-- The contents of one group of a page whose write stopped while that group was being written (R435). -/
def tornGroup (m : Mach) (page k : Nat) (keep : Nvm → Nvm) : Mach :=
  let (n, m) := draw m
  { m with nvm := match (Config.tornChoice n).val with
      | 0 => keep m.nvm
      | 1 => blankGroup m.nvm page k
      | _ => uncGroup m.nvm page k n }

/-- The write in progress stops here (R435): each group of its page reads old, new, BLANK or UNC by how far the write had
come; the open choices are free values. An item's copy that was not finished is not valid. -/
def tornPage (m : Mach) (w : PageWrite) : Mach :=
  let t := m.dev.now - w.startAt
  let page := realPage m.nvm w
  let erase := if pageBlank m.nvm page && w.kind ≠ .hostErase then 0 else 350000
  let done := t ≥ writeNs m.nvm w
  if w.kind = .counter && w.page ≤ (ctrRead m.nvm (w.ctx.getD 0)).1 then m
  else if done then { m with nvm := applyWrite m.nvm w }
  else match w.item with
    | some (c, k) => { m with nvm := { m.nvm with items := tornItem m.nvm.items c k } }
    | none =>
      let bs := if w.kind = .counter then counterBytes w.page else w.bytes.getD (List.replicate 64 0xFF)
      if t < erase then forAll m (List.range 8) fun m k => tornGroup m page k id
      else
        let g := (t - erase) / 90000
        forAll m (List.range 8) fun m k =>
          if k < g then { m with nvm := programGroup m.nvm page k bs }
          else if k = g then tornGroup m page k fun nv => programGroup nv page k bs
          else { m with nvm := blankGroup m.nvm page k }

/-- Power fails: the write in progress is torn and the queue is gone (R434, R435). A write that NVMCLK stopped has been
torn then. -/
def tearWrite (m : Mach) : Mach :=
  let m := match m.nvm.cur with
    | some w => if m.dev.xin then tornPage m w else m
    | none => m
  { m with nvm := { m.nvm with cur := none, queue := [] } }

/-! ### Status (R449) -/

def nvmStatWord (m : Mach) : Nat :=
  let nv := m.nvm
  flag m.dev.recallDone 31 + flag (m.dev.recallDone && saveReady nv) 30 + flag m.dev.holdOk 29 + flag nv.cur.isSome 28
    + flag nv.saveUsed 27 + flag nv.saveTorn 26 + flag nv.reverted 25 + flag nv.unc 24
    + satTo 255 nv.queue.length * 2 ^ 16 + satTo 65535 nv.corrected

def nvmStatWrite (m : Mach) (w : Nat) : Mach :=
  { m with nvm := { m.nvm with
      saveUsed := m.nvm.saveUsed && !bit w 27, saveTorn := m.nvm.saveTorn && !bit w 26
      reverted := m.nvm.reverted && !bit w 25, unc := m.nvm.unc && !bit w 24 } }

/-! ### Commands (R448) -/

/-- NVM_READ: the status of the eight groups and the bytes in the order of R433; CORRECTED groups are counted and an UNC
group of a device-managed page records NVM_UNC (R431). -/
def cmdNvmRead (m : Mach) (_ : Nat) (p : List Byte) : Ans :=
  let page := pU p 0 2
  let off := pU p 2 1
  let len := pU p 3 1
  refuseFirst [(4096 ≤ page || 64 ≤ off || !within len 1 64, .outOfRange)] <|
    let st := (List.range 8).map fun k => readStat m.nvm page k
    let stat := st.zipIdx.foldl (fun acc x => acc + statCode x.1 * 4 ^ x.2) 0
    let cor := (st.filter fun x => x = .corrected).length
    let unc := page < 3072 && st.contains .unc
    let m := { m with nvm := { m.nvm with corrected := satTo 65535 (m.nvm.corrected + cor),
                                          unc := m.nvm.unc || unc } }
    let m := if unc then note m blkNvm .nvmUnc 2 else m
    .ok m (le 2 stat ++ [0, 0] ++ (List.range len).map fun j => readByte m.nvm page ((off + j) % 64))

/-- NVM_WRITE: queued behind the device's writes; answered when the page is programmed. -/
def cmdNvmWrite (m : Mach) (s : Nat) (p : List Byte) : Ans :=
  let page := pU p 0 2
  let off := pU p 2 1
  let len := pU p 3 1
  refuseFirst [(page < 3072, .privilege), (4096 ≤ page || 64 ≤ off || !within len 1 64, .outOfRange)] <|
    .wait (nvmSubmit m { page := page, bytes := some (bytesAt p 4 len), off := off, kind := .host, slot := some s })

/-- NVM_ERASE. -/
def cmdNvmErase (m : Mach) (s : Nat) (p : List Byte) : Ans :=
  let page := pU p 0 2
  refuseFirst [(page < 3072, .privilege), (4096 ≤ page, .outOfRange)] <|
    .wait (nvmSubmit m { page := page, kind := .hostErase, slot := some s })

/-- NVM_COUNTER_GET. -/
def cmdNvmCounterGet (m : Mach) (_ : Nat) (p : List Byte) : Ans :=
  let c := pU p 0 1
  refuseFirst [(8 ≤ c, .outOfRange)] <|
    let r := ctrRead m.nvm c
    let valid := bitmap ((List.range 8).filter fun k => (copyValid m.nvm (64 + 8 * c + k)).isSome)
    .ok m (le 4 (if 4 ≤ c then 0 else r.1) ++ [BitVec.ofNat 8 valid, BitVec.ofNat 8 ((r.2 + 1) % 8), 0, 0])

/-- NVM_SAVE: answered once the last page of the save is written; the checkpoint and the erase of R446 follow. -/
def cmdNvmSave (m : Mach) (_ : Nat) (_ : List Byte) : Ans :=
  refuseFirst [(!saveReady m.nvm, .notInState)] <| .ok (powerDownSave m 3 []) []

/-- NVM_PDW_SET: takes effect at once, and is configuration. -/
def cmdNvmPdwSet (m : Mach) (_ : Nat) (p : List Byte) : Ans :=
  refuseFirst [(!within (pU p 0 2) 4800 30000, .outOfRange)] <|
    .ok (nvmConfig { m with nvm := { m.nvm with pdwSysMv := pU p 0 2 } } 0x0D06 0 p) []

def execNvmRead (slot : Nat) (s : State) := command 0x0D01 slot cmdNvmRead s
def execNvmWrite (slot : Nat) (s : State) := command 0x0D02 slot cmdNvmWrite s
def execNvmErase (slot : Nat) (s : State) := command 0x0D03 slot cmdNvmErase s
def execNvmCounterGet (slot : Nat) (s : State) := command 0x0D04 slot cmdNvmCounterGet s
def execNvmSave (slot : Nat) (s : State) := command 0x0D05 slot cmdNvmSave s
def execNvmPdwSet (slot : Nat) (s : State) := command 0x0D06 slot cmdNvmPdwSet s

/-! ### Events -/

/-- NVM_PAGE_WRITE_DONE (R432). -/
def execNvmPageWriteDone (ok1 ok2 : Bool) (s : State) : Host.Outcome State Fault Refusal :=
  next s (pageWriteDone s.m ok1 ok2)

/-- CHECKPOINT (R442): every 15 min of powered time. -/
def execCheckpoint (s : State) : Host.Outcome State Fault Refusal :=
  next s <| fire s.m s.m.nvm.checkpointAt fun m =>
    let m := writeCheckpoint m
    { m with nvm := { m.nvm with checkpointAt := after m (sec 900) } }

/-- SAVE_REGION_ERASE (R446): after a recall, and after a save not followed by a reset, for which the present fast
values are checkpointed first. -/
def execSaveRegionErase (s : State) : Host.Outcome State Fault Refusal :=
  next s <| when (!saveReady s.m.nvm && s.m.dev.recallDone && s.m.dev.borDue.isNone) s.m fun m =>
    eraseSaveRegion (if m.nvm.saving.isSome then writeCheckpoint m else m)

/-- XIN_RETURN (R434): the controller resumes with the read-back of the interrupted page, which mismatches; the page
takes its one further erase and program, and the queue goes on. The clocks of the core PLL stay as they are (R33). -/
def execXinReturn (s : State) : Host.Outcome State Fault Refusal :=
  next s <| when (!s.m.dev.xin) s.m fun m =>
    let m := { m with dev := { m.dev with xin := true } }
    match m.nvm.cur with
    | some w => { m with nvm := { m.nvm with cur := some { w with startAt := m.dev.now }, reverify := true } }
    | none => nvmKick m

end Machine
end Sys2Proof
end

