-- ==== Sys2Proof/Machine/Learn.lean ====
section
/-! DEFINITION. Sys2Proof/Machine/Learn.lean: the learned values of a context and their records (R345 to R350). -/
namespace Sys2Proof
namespace Machine

/-- The rational x / y rounded to nearest, ties away from zero, for positive y. -/
def roundRat (q : Rat) : Int := roundDivI q.num q.den

/-! ### Learned values (R346 to R350) -/

/-- SOH_PCT (R345). -/
def sohPct (c : Ctx) : Nat :=
  let a := if c.qNom = 0 then 0 else 100 * c.qFull / c.qNom
  let b := if c.zsNew = 0 then 100 else 200 - 100 * c.zs / c.zsNew
  min 100 (min a b)

/-- The default resistances of R348 from Q_NOM. -/
def defaultZ (c : Ctx) : Ctx :=
  let zs := if c.qNom = 0 then 0 else roundDivN 10000000 c.qNom
  let zp := zs / 2
  { c with zs := satTo 65535 zs, zp := satTo 65535 zp, cp := if zp = 0 then 65535 else satTo 65535 (roundDivN 2000000 zp) }

/-- Learned values of a context that has none (R348). -/
def defaultLearned (c : Ctx) (qNom : Nat) : Ctx :=
  defaultZ { c with qNom := qNom, qFull := qNom, zsNew := 0, ocvOfs := 0, cycles := 0, cycAcc := 0
                    z := List.replicate 5 {}, eisAge := none }

def ageS (ms_ : Nat) : Nat := satTo 0xFFFFFFFF (ms_ / 1000)

/-- The 64-byte learned record (R350). -/
def learnedRecord (c : Ctx) (x seq : Nat) : List Byte :=
  let b := le 4 seq ++ le 2 x ++ [BitVec.ofNat 8 c.anchorKind, BitVec.ofNat 8 (sohPct c)] ++ le 4 c.qFull ++ le 4 c.qNom
    ++ le 2 c.zs ++ le 2 c.zsNew ++ le 2 c.zp ++ le 2 c.cp ++ leI 2 (roundRat (10 * c.ocvOfs)) ++ le 2 (satTo 65535 c.cycles)
    ++ le 4 (c.cycAcc / 3600000) ++ (c.z.flatMap fun z => leI 2 z.re ++ leI 2 z.im)
    ++ le 4 (match c.eisAge with
        | some a => ageS a
        | none => 0xFFFFFFFF) ++ le 4 (ageS c.anchorAge)
  b ++ le 4 (crc32 b)

/-- Learned values read back from a record. -/
def learnedParse (c : Ctx) (b : List Byte) : Ctx :=
  { c with
    hasSlot := true, anchorKind := pU b 6 1, qFull := pU b 8 4, qNom := pU b 12 4, zs := pU b 16 2, zsNew := pU b 18 2
    zp := pU b 20 2, cp := pU b 22 2, ocvOfs := (pI b 24 2 : Rat) / 10, cycles := pU b 26 2, cycAcc := 3600000 * pU b 28 4
    z := (List.range 5).map fun i => { re := pI b (32 + 4 * i) 2, im := pI b (34 + 4 * i) 2 }
    eisAge := if pU b 52 4 = 0xFFFFFFFF then none else some (1000 * pU b 52 4), anchorAge := 1000 * pU b 56 4 }

/-- A context's learned values queued for its slot (R349): one page write; a queued one is replaced. Zs takes the
filter's (R347). -/
def learnWrite (m : Mach) (x : Nat) : Mach :=
  let m := modCtx m x fun c =>
    { c with zs := if c.active then (clampI 0 65535 (roundRat (100000 * fToRat c.fzs))).toNat else c.zs, actMs := 0
             learnPending := true }
  let (pa, pb) := learnedPages x
  let (page, seq) := match m.nvm.cur with
    | some w => if w.kind = NvmKind.learned ∧ w.ctx = some x then
        (if w.page = pa then pb else pa, (slotTarget m.nvm pa pb).2 + 1) else slotTarget m.nvm pa pb
    | none => slotTarget m.nvm pa pb
  let q := m.nvm.queue.filter fun w => !(w.kind = NvmKind.learned && w.ctx = some x)
  let w : PageWrite := { page := page, bytes := some (learnedRecord (getCtx m x) x seq), kind := .learned, ctx := some x }
  nvmKick { m with nvm := { m.nvm with queue := q ++ [w] } }

end Machine
end Sys2Proof
end

