-- ==== Sys2Proof/Machine/Conv.lean ====
section
/-! DEFINITION. Sys2Proof/Machine/Conv.lean: what the converter chapters share: scheduled loads (R81, R118), limits and
references (R88, R140, R159, R545), the ladder (R158), sessions and passes closed by a stop, and the fences of R385. -/
namespace Sys2Proof
namespace Machine

/-! ### Admission loads -/

/-- ADC load of one declaration in samples per 16 ms (R79, R81): loop, VBS and ripple samples, and one phase-current sample per
channel every second period. -/
def adcLoad (k : Nat) (d : Decl) : Nat :=
  if d.topo = 0 then 0
  else
    let ch := 2 * declaredPhases d
    let f := d.fswKhz
    (if k < 48 then 18 * f else if k < 54 then 48 * f else 32 * f) + 9 * f * ch

/-- What halving a converter's phase-current rate saves (R84). -/
def adcSaved (d : Decl) : Nat := if d.topo = 0 then 0 else 2 * declaredPhases d * 4 * d.fswKhz

/-- The ADC array's load at full rates: converters, Store current while an input is declared, SYS fold monitor while a port is
declared, housekeeping (R81). -/
def adcFull (m : Mach) : Nat :=
  (List.range 55).foldl (fun acc k => acc + adcLoad k (getCv m k).decl) 0
    + (if (List.range 6).any fun j => (getCv m (48 + j)).decl.topo ≠ 0 then 3200 else 0)
    + (if (List.range 48).any fun p => (getCv m p).decl.topo ≠ 0 then 64000 else 0) + 320

/-- The scheduled load: some phase-current rates may be halved (R84). -/
def adcTotal (m : Mach) : Nat := adcFull m - (m.adc.halved.map fun k => adcSaved (getCv m k).decl).sum

/-- ADCs not retired (R85). -/
def adcHealthy (m : Mach) : Nat := ((List.range 34).filter fun a => (tget m.adc.units {} a).st ≠ .retired).length

/-- The capacity of the ADCs in service, in samples per 16 ms. -/
def adcCap (m : Mach) : Nat := min 32 (adcHealthy m) * 80000

/-- The array's scheduled load in per mille of the ADCs in service, rounded down (R81). -/
def adcPermille (m : Mach) : Nat := adcTotal m * 1000 / adcCap m

/-- The load exceeds the admission limit of 850 per mille (R81). -/
def adcOver (m : Mach) : Bool := 850 * adcCap m < 1000 * adcTotal m

/-- Engine cycles per second of one converter in units of 250 (R118, R119): 11 per executing loop, in every `updateDiv`th
period, and 11 of overhead in every period. -/
def engLoad (k : Nat) (d : Decl) (c : LoopCfg) : Nat :=
  if d.topo = 0 then 0
  else
    let en (j : Nat) : Nat := if bit c.loopEn j then 1 else 0
    let v := c.updateDiv
    -- executions in 2 `updateDiv` ms; IOUT of ICi follows the 200 kHz samples of STORE_SHUNT (R91)
    let ex :=
      if 48 ≤ k ∧ k < 54 then 2 * d.fswKhz * (en 0 + en 2 + en 3) + 2 * min d.fswKhz (200 * v) * en 1
      else d.fswKhz * (2 * en 0 + en 1 + en 2 + 2 * en 3)
    if v = 2 then 11 * (4 * d.fswKhz + ex) else 22 * (2 * d.fswKhz + ex)

/-- The engine's scheduled load, at every converter's configured divider. -/
def engTotal (m : Mach) : Nat :=
  (List.range 55).foldl (fun acc k => acc + engLoad k (getCv m k).decl (getCv m k).ctrl.cfg) 0

/-- The load exceeds 1 440 M cycles/s (R119). -/
def engOver (m : Mach) : Bool := 4 * 1440000 < engTotal m

/-- SCHED_PERMILLE of R123. -/
def engPermille (m : Mach) : Nat := engTotal m * 1000 / (4 * 1600000)

/-! ### Limits of the phases -/

/-- The combined IRATE_MA of the phases in service (R140). -/
def irateTotal (m : Mach) (k : Nat) : Nat := (livePhases (getCv m k)).length * (getCv m k).decl.irateMa

/-- I_PK of R68 in 10 uA: PK_PCT of the rating, capped by the channel's maximum in the limits table. -/
def peakI (m : Mach) (k ch : Nat) : Nat :=
  let d := (getCv m k).decl
  min (d.irateMa * d.pkPct) (100 * m.grd.limits.peaks.getD ch 60000)

/-- The comparator's DAC code for a threshold in units of 10 pV (R68): step 1 800 / 1 024 mV, rounded down. The DAC has 10 bits:
a threshold above 1 800 mV takes code 1023 (DESIGN CHOICE, log entry 101). -/
def dacCode (v : Nat) : Nat := satTo 1023 (v / 175781250)

/-- The threshold of a channel of converter `k` for a current in 10 uA, in units of 10 pV: IMON_ZERO_MV plus (in reverse, less)
gain times current; R520's KIND 3 moves it by the same voltage as the readings. -/
def peakThr (m : Mach) (k ch cur : Nat) : Int :=
  let c := getCv m k
  let z := ((c.decl.imonZeroMv : Int) + ptbValue m 3 ch) * 100000000
  let g : Int := c.decl.imonGain * 10 * cur
  if c.reverse then z - g else z + g

/-- The code of R68 in force for a channel. In reverse it is rounded down too, and a threshold below 0 mV takes code 0 (DESIGN
CHOICE, log entry 101). -/
def peakCode (m : Mach) (k ch : Nat) : Nat := dacCode (peakThr m k ch (peakI m k ch)).toNat

/-- The code of the comparator-test pulses (R77): 25 % of the rating. -/
def testCode (m : Mach) (k ch : Nat) : Nat := dacCode (peakThr m k ch ((getCv m k).decl.irateMa * 25)).toNat

/-- The switching period in PWMCLK cycles (R63). -/
def periodCyc (fsw : Nat) : Nat := roundDivN 800000 fsw

/-- The phase-0 offset of a converter in degrees times 10 (R76). -/
def phase0 (k : Nat) : Nat := if k < 48 then 75 * k else if k < 54 then 150 * (k - 48) else 75

/-- The offset of the nth of `n` phases in service in interleave steps (R18, R76). -/
def phaseOffset (k idx n steps : Nat) : Nat :=
  roundDivN ((phase0 k * n + 3600 * idx) * steps) (3600 * n) % steps

/-- The interleave of the phases now in service: each with its offset in steps of 78.125 ps (R18, R76). -/
def interleave (k : Nat) (c : Conv) : List (Nat × Nat) :=
  let l := livePhases c
  l.zipIdx.map fun x => (x.1, phaseOffset k x.2 l.length (16 * periodCyc c.decl.fswKhz))

/-! ### References -/

/-- A loop reference in 1/65536 of its unit. -/
def fx (v : Nat) : Int := (v : Int) * 65536

/-- The loop whose limit a thermal LIMIT halves (R368): IOUT, for ICi ISRC. -/
def thmLoop (k : Nat) : Nat := if 48 ≤ k ∧ k < 54 then 2 else 1

/-- What a loop's reference goes to. -/
def goal (l : LoopSt) : Int := l.want.getD (l.target.getD l.ref)

/-- A reference as the loop may take it: IOUT and ISRC within the phases in service (R140), and held to 50 % of that under a thermal
LIMIT, the full value kept for its end (R368). -/
def limHold (m : Mach) (k j v : Nat) : Mach × Nat :=
  let lim := if j = 1 ∨ j = 2 then min v (irateTotal m k) else v
  if (getCv m k).prot.thmLim.isSome && j = thmLoop k then
    (modCv m k fun c => { c with prot := { c.prot with thmLim := some v } }, lim / 2)
  else (m, lim)

/-- Loop `j` of converter `k` given a new reference, latched at the next resolution (R105), V then as a target that the
generator of R103 approaches; a stopped converter takes either at once. A new voltage of a port ends pulse skipping (R367). -/
def setRef (m : Mach) (k j v : Nat) : Mach :=
  let (m, lim) := limHold m k j v
  modCv m k fun c =>
    let moves := j = 0 && k < 48 && c.run && goal (tget c.ctrl.loops {} 0) ≠ fx lim
    { c with
      prot := { c.prot with pulseSkip := c.prot.pulseSkip && !moves }
      ctrl := { c.ctrl with loops := tupd c.ctrl.loops j fun l =>
        if !c.run then { l with ref := fx lim, target := none, want := none }
        else if j = 0 then { l with want := some (fx lim) }
        else { l with target := some (fx lim) } } }

/-- A loop's reference stands on its target, and no other waits. -/
def settled (l : LoopSt) : Bool := l.target.isNone && l.want.isNone

/-- The target of a loop, or its reference where none waits, in whole units. -/
def refNow (m : Mach) (k j : Nat) : Nat :=
  let l := tget (getCv m k).ctrl.loops {} j
  (goal l / 65536).toNat

/-- VINS_INi: the FOLD loop's last sample while ICi runs, else the last event's reading. -/
def vinOf (m : Mach) (i : Nat) : Nat :=
  let c := getCv m (48 + i)
  let y := ((tget c.ctrl.loops {} 3).y.headD 0 / 65536).toNat
  if c.run && y ≠ 0 then y else (getInp m i).vinMv

/-- Input `i` takes part in the ladder (R158): enabled, present, not parked, not fenced. -/
def inputLive (m : Mach) (i : Nat) : Bool :=
  let x := getInp m i
  x.typ ≠ 0 && x.enable && x.present && !x.parked && !cnvFenced m (48 + i)

/-- The effective ranks of R158: solar inputs first, then DC supplies and unparked vehicles, by RANK, ties by index. -/
def rankRecompute (m : Mach) : Mach :=
  let key (i : Nat) : Nat :=
    let x := getInp m i
    (if x.typ = 2 then 0 else 100) + 10 * x.rank + i
  let inputs := (List.range 6).filter fun i => inputLive m i
  forAll m (List.range 6) fun m i => modInp m i fun x =>
    { x with effRank := if inputs.contains i then (inputs.filter fun j => key j < key i).length else 0xFF }

/-- The V reference of the converter at effective rank `r` (R159), by the battery FET's mode. -/
def ladderV (m : Mach) (r : Nat) : Nat :=
  let p := m.path
  -- R151: on the way to ON the inputs slew SYS to the Store
  if p.toMode = some .on && p.transAt.isSome then p.vstsMv + 20 - r * p.vStep
  else match p.mode with
  | .on => (getChg m 0).vChg - r * p.vStep
  | .diode => max p.sysMin (p.vstsMv + p.diodeOfs) - r * p.vStep
  | .linear => p.sysMin + (6 - r) * p.vStep
  | .off => p.sysTgt - r * p.vStep

/-- The Store-current reference at effective rank `r` (R159). -/
def ladderI (m : Mach) (r : Nat) : Nat :=
  match m.path.mode with
  | .on => (getChg m 0).iNow - r * m.path.iStep
  | _ => 262143

/-- The references of R153 and R159 given to every input converter and sinking port. -/
def ladderApply (m : Mach) : Mach :=
  let m := forAll m (List.range 6) fun m i =>
    let x := getInp m i
    if x.effRank ≤ 5 then
      let k := 48 + i
      -- R169: an input with a start path holds SYS 500 mV above its source
      let m := setRef m k 0 (if x.startPath then max (ladderV m x.effRank) (vinOf m i + 500) else ladderV m x.effRank)
      setRef (setRef (setRef m k 1 (ladderI m x.effRank)) k 2 x.ilimMa) k 3 x.floorNow
    else m
  forAll m (List.range 48) fun m p => if (getCv m p).reverse then setRef m p 0 (ladderV m 6) else m

/-! ### Messages (R264, R268) and Type-C currents (R237, R272, R243) -/

/-- tReceive, tSinkEPRKeepAlive, tSourceEPRKeepAlive, tSenderResponse (R264, R268). -/
def tReceive : Nat := ms 1
def tSinkEprKeepAlive : Nat := ms 375
def tSourceEprKeepAlive : Nat := ms 900
def tSenderResponse : Nat := ms 30

/-- Bytes of the payload of an extended message whose size the rules give (R267): four for each object. -/
def extBytes : PdMsg → Nat
  | .sourceCaps objs true => 4 * objs.length
  | _ => 0

/-- The chunks a message takes: 26 bytes each (R267; log entry 108). -/
def chunksOf (g : PdMsg) : Nat := max 1 (ceilDiv (extBytes g) 26)

/-- A message sent: it awaits its GoodCRC, takes the next MessageID, and restarts a sink's keep-alive (R264, R279); the
session record is rewritten (R289). -/
def pdSend (x : Sess) (m : Mach) (g : PdMsg) : Sess :=
  { x with lastTx := some g, txAt := after m tReceive, retries := 0, seq := wrap32 (x.seq + 1)
           msgIdTx := if g = .softReset ∨ g = .hardReset then 0 else (x.msgIdTx + chunksOf g) % 8
           msgIdRx := if g = .softReset ∨ g = .hardReset then none else x.msgIdRx
           chunks := chunksOf g
           sent := (if x.sent.length < 8 then x.sent else x.sent.drop 1) ++ [g]
           keepAliveAt := x.keepAliveAt.map fun _ => m.dev.now + tSinkEprKeepAlive }

/-- A message sent on a port. -/
def pdTell (m : Mach) (p : Nat) (g : PdMsg) : Mach := modPd m p fun x => pdSend x m g

/-- The open outcome of a PD_DR_SWAP_REQ whose swap is dropped is a failure (R295). -/
def closeSwap (m : Mach) (p : Nat) : Mach :=
  match (getPd m p).drSeq with
  | some q => modPd (closeEntry m q (statusCode .notInState) 0) p fun x => { x with drSeq := none }
  | none => m

/-- Soft_Reset sent: an Accept is due within tSenderResponse; the contract stands (R265, R291). -/
def softResetOut (m : Mach) (p : Nat) : Mach :=
  modPd (closeSwap m p) p fun x =>
    pdSend { x with softResets := satTo 65535 (x.softResets + 1), senderAt := after m tSenderResponse, psTransAt := none
                    transAt := none, pendReq := none, drPending := false, pe := .softReset } m .softReset

/-- Current of an Rp level in mA: Default USB Power 500, 1.5 A, 3.0 A. -/
def rpMa (rp : Nat) : Nat := if rp = 0 then 500 else if rp = 1 then 1500 else 3000

/-- The port current limit of R272: the current plus 10 %, and at least plus 150 mA. -/
def portLimit (ma : Nat) : Nat := ma + max (ma / 10) 150

/-- VBUS stands in vSafe5V behind a sourcing converter that has left soft start. -/
def vSafe5V (m : Mach) (p : Nat) : Bool :=
  let c := getCv m p
  let l := tget c.ctrl.loops {} 0
  c.run && !c.reverse && !c.ctrl.softStart && settled l && l.ref = fx 5000

/-- DCP as R243 has it, and DP and DM open otherwise. -/
def dcpEval (m : Mach) (p : Nat) : Mach :=
  let x := getPort m p
  let on := x.tc = .attachedSrc && vSafe5V m p && bit x.flags 1 && 7500 ≤ (getHold m p).grant
    && !(m.svc.link ≠ 0 && m.svc.port = p)
  modPort m p fun y => { y with dcp := on }

/-- Before a contract, Rp matches the grant up to RP_MAX once VBUS is in vSafe5V, and the IOUT limit follows it (R237,
R545); Default without that. -/
def typeCSettle (m : Mach) (p : Nat) : Mach :=
  let x := getPort m p
  if x.tc ≠ .attachedSrc || (getPd m p).contract then dcpEval m p
  else
    let g := (getHold m p).grant
    let lvl := if !vSafe5V m p then 0 else min x.rpMax (if 15000 ≤ g then 2 else if 7500 ≤ g then 1 else 0)
    let m := modPort m p fun y => { y with rp := lvl }
    let m := if (getCv m p).run then setRef m p 1 (portLimit (rpMa lvl)) else m
    dcpEval m p

/-! ### What a port gives up -/

/-- A holder's pass released (R385, R481). -/
def dropPass (m : Mach) (h : Nat) : Mach := modHold m h fun _ => {}

/-- The pass of a sourcing port at the park level (R214): from attach, and after a Hard Reset (R281). -/
def parkMw : Nat := 2500
def parkPass (m : Mach) (p : Nat) : Mach :=
  modHold m p fun x => { held := true, req := parkMw, grant := parkMw, since := if x.held then x.since else m.dev.now }

/-- A PD session closed without messages (R385, R481): contract, offer, partner's capabilities, timers and counters of
the attachment go; configuration, the statistics and a planned move of the port stay (R297). -/
def closeSession (m : Mach) (p : Nat) : Mach :=
  modPd (closeOutcomes m p) p fun x =>
    { pdoMask := x.pdoMask, drPol := x.drPol, eprEn := x.eprEn, pmaxMw := x.pmaxMw, imaxMa := x.imaxMa,
      snkEpr := x.snkEpr, snkPmax := x.snkPmax, snkVmin := x.snkVmin, snkVmax := x.snkVmax, seq := wrap32 (x.seq + 1),
      hardResets := x.hardResets, softResets := x.softResets, txFail := x.txFail, lastAbort := x.lastAbort
      migTo := x.migTo, migAt := x.migAt }
where
  /-- the commands of R295 whose outcome is open end with the session. -/
  closeOutcomes (m : Mach) (p : Nat) : Mach :=
    let x := getPd m p
    let m := match x.drSeq with
      | some q => closeEntry m q (statusCode .notInState) 0
      | none => m
    match x.rstSeq with
    | some q => closeEntry m q (statusCode .notInState) 0
    | none => m

/-- A map pending on a converter that is fenced is cancelled and answered FENCED (R101). -/
def cancelMap (m : Mach) (k : Nat) : Mach :=
  let c := (getCv m k).ctrl
  let m := modCv m k fun x => { x with ctrl := { x.ctrl with pendMap := none, mapSlot := none } }
  match c.mapSlot with
  | some s => answer m s .fenced [] 0
  | none => m

/-- A pending map takes effect at once on a stop without a fence, and is answered OK (R101). -/
def flushMap (m : Mach) (k : Nat) : Mach :=
  let c := (getCv m k).ctrl
  match c.pendMap with
  | none => m
  | some mp =>
    let m := modCv m k fun x => { x with ctrl := { x.ctrl with map := mp, pendMap := none, mapSlot := none } }
    match c.mapSlot with
    | some s => answer m s .ok [] 0
    | none => m

/-- A stop without a fence (R544). -/
def stopRun (m : Mach) (k : Nat) : Mach := flushMap (stopConv m k) k

/-- The Stavska link ends (R514): the pull-up and the function go, SERVICE and the unlock drop, and the perturbations
end; `reason` is LAST_FAIL of R515. -/
def endLink (m : Mach) (reason : Nat) : Mach :=
  if m.svc.link = 0 then m
  else
    let m := ptbEndAll m
    { m with svc := { m.svc with
        link := 0, port := 0xFF, service := false, testPerm := false, lastFail := reason, nonce := none, nonceAt := none,
        techId := List.replicate 8 0, idleAt := none, swapAt := none, noPdAt := none, enumAt := none, frameAt := none, frameBuf := [],
        configured := false, pullup := false, unlockAt := none, lockoutAt := none, authFails := 0 } }

/-! ### Charge machines -/

/-- A state of a charge machine entered (R183). -/
def chgEnter (m : Mach) (c : Nat) (st : ChgSt) : Mach :=
  modChg m c fun x =>
    let keep := x.st = .softstart && st = .cc
    { x with
      st := st, condRun := if keep then x.condRun else 0, termRun := 0, entered := m.dev.now, mark := tget m.est.acc 0 c
      rampMa := if st = .softstart then 0 else x.rampMa, maintChg := false, fullReq := false
      vChg := if st = .off then 0 else x.vChg
      ccSince := if (st = .cc || st = .cv) && !(x.st = .cc || x.st = .cv) then m.dev.now else x.ccSince }

/-- The machine is in a charging state (R183). -/
def chgRunning (x : ChgM) : Bool :=
  match x.st with
  | .precharge | .softstart | .cc | .cv | .topoff | .maint => true
  | _ => false

/-! ### Fences (R59, R385) -/

/-- A block's words set to FENCED with a cause, its reaction opened (R388). Recording is the caller's. -/
def markFence (m : Mach) (b : Nat) (code : Nat) : Mach := modBlk m b fun w => { w with fence := some code }

/-- A transition in progress is abandoned: LAST_ABORT of R294, and an entry in the journal (R286, R287). -/
def abortBy (m : Mach) (p code : Nat) : Mach :=
  let x := getPd m p
  if x.pe = .transition || x.pe = .snkTransition then journal (modPd m p fun x => { x with lastAbort := code }) .cmd p else m

/-- A bay port's fence queues its pack's learned values (R349). -/
def bayLearn (m : Mach) (p : Nat) : Mach :=
  match (getBay m p).record with
  | some x => learnWrite m x
  | none => m

/-- What a port fence does beyond its words: converter stopped, DP and DM open, session closed, pass and donor
capability 0, window opened. -/
def portFenceEffects (m : Mach) (p : Nat) : Mach :=
  let m := bayLearn (abortBy m p 5) p
  let m := modCv (stopConv m p) p fun c => { c with vbg := false, vbd := !isBay m p || bayEmpty m p }
  let m := modPort m p fun x => { x with dcp := false, vconn := false }
  let m := dropPass (closeSession m p) p
  let m := { m with path := { m.path with donors := m.path.donors.filter fun q => q ≠ p } }
  let m := chgEnter m (p + 1) .off
  let m := if m.svc.link ≠ 0 && m.svc.port = p then endLink m 6 else m
  openWindow (cancelMap m p) p .port p []

/-- A converter fenced (R385): a port fence for PCp; the input, or AUX, for the others. -/
def fenceConv (m : Mach) (k : Nat) (code : Nat) : Mach :=
  if k < 48 then portFenceEffects (markFence (markFence m (cnvBlk k) code) k code) k
  else
    let m := cancelMap (stopConv (markFence m (cnvBlk k) code) k) k
    if k < 54 then
      let m := modInp m (k - 48) fun x => { x with scanning := false, scanEndAt := none, restartAt := none }
      openWindow (ladderApply (rankRecompute m)) (cnvBlk k) .input (k - 48) []
    else dropPass { m with aux := { m.aux with running := false } } 48

/-- A detected cause that fences converter `k` (R389). -/
def fault (m : Mach) (k : Nat) (c : Cause) (sev : Nat) : Mach :=
  let (m, act) := detect m (cnvBlk k) c sev 10000
  if act then fenceConv m k (codeOf c) else m

/-- A limit before a thermal LIMIT halves it. -/
def limNow (m : Mach) (k j : Nat) : Nat :=
  if j = thmLoop k then (getCv m k).prot.thmLim.getD (refNow m k j) else refNow m k j

/-- The limits follow the phases in service (R140); the interleave follows at the next period boundary (R18). -/
def shedLimits (m : Mach) (k : Nat) : Mach :=
  let m := setRef m k 1 (limNow m k 1)
  setRef m k 2 (limNow m k 2)

/-- The phases that were in service when the running period began: those still in service, and those fenced in it (R141). -/
def periodPhases (c : Conv) : List Nat :=
  (List.range (declaredPhases c.decl)).filter fun i =>
    let y := tget c.ph {} i
    y.st = .inService || (y.st = .fenced && c.run && y.fencedPer = some c.ctrl.period)

/-- The cause a converter is fenced with when its last phase goes: that of the lowest-numbered phase fenced in this period
(R140, R141). -/
def lastCause (c : Conv) (code : Nat) : Nat :=
  match (periodPhases c).head? with
  | some i => (tget c.ph {} i).cause
  | none => code

/-- A phase fenced with a cause; the converter goes on with the rest, or is fenced (R140); a port that sheds while its converter
runs enters the derate interval of R142, or as a sink sends a new Request (R143). -/
def fencePhase (m : Mach) (k idx : Nat) (c : Cause) (sev : Nat) : Mach :=
  let m := (detect m (cnvBlk k) c sev 10000).1
  let m := modCv m k fun x =>
    { x with ph := tupd x.ph idx fun y =>
               { y with st := .fenced, cause := codeOf c, fencedPer := if x.run then some x.ctrl.period else none }
             prot := { x.prot with shedCount := wrap32 (x.prot.shedCount + 1) } }
  if (livePhases (getCv m k)).isEmpty then fenceConv m k (lastCause (getCv m k) (codeOf c))
  else
    let m := shedLimits m k
    if k < 48 && ((getCv m k).run || ((getCv m k).reverse && (getPd m k).contract)) then
      let m := modCv m k fun x =>
        { x with prot := { x.prot with derateMa := some (irateTotal m k), derateAt := after m (ms 100) } }
      let p := getPd m k
      if !(getCv m k).reverse && p.contract then
        -- R266: Alert with OCP, and the new offer of R142
        let m := if p.rev = 3 then pdTell m k (.alert 4) else m
        modPd m k fun x => { x with capsAt := some m.dev.now }
      else m
    else m

/-- The charge-current loops freeze (R174): the IOUT loop of every running input holds its output until the next resolution, which
gives it the reference of the OFF row. -/
def freezeIout (m : Mach) : Mach :=
  forAll m (runningInputs m) fun m i => modCv m (48 + i) fun c =>
    { c with ctrl := { c.ctrl with frozen := true, bank := { c.ctrl.bank with exec := c.ctrl.bank.exec.set 1 false } } }

/-- The Store fenced (R385): battery FET OFF within 1 us, A_ST and E_AVAIL 0, charge machine OFF. A Store that was connected leaves
its last voltage as SYS_TGT (R166, R174). -/
def fenceStore (m : Mach) (code : Nat) : Mach :=
  let was := m.path.mode ≠ .off
  let m := freezeIout (markFence m blkStore code)
  let m := { m with path := { m.path with mode := .off, toMode := none, transAt := none
                                          sysTgt := if was then m.path.sysMv else m.path.sysTgt
                                          sysTgtSet := was || m.path.sysTgtSet }
                    lft := { m.lft with aSt := 0, eAvail := 0 } }
  let m := { m with path := { m.path with storePresent := false, joining := false, linCapped := false } }
  let m := chgEnter m 0 .off
  openWindow (ladderApply m) blkStore .store 0 []

/-- The ports a PD core serves (R23). -/
def corePorts (m : Mach) (k : Nat) : List Nat := (List.range 48).filter fun p => tget m.serves 99 p = k

/-- A PD core runs: not fenced, not under reset. -/
def coreOk (m : Mach) (k : Nat) : Bool :=
  k < 8 && ((getBlk m (0x70 + k)).fence).isNone && !(getBlk m (0x70 + k)).resetting && !(getCore m k).updating

/-- The sibling on the same die with the fewest ports that can take one more (R23, R288). -/
def siblingFor (m : Mach) (k : Nat) : Option Nat :=
  let c := (List.range 8).filter fun j => j / 4 = k / 4 && j ≠ k && coreOk m j && (corePorts m j).length < 12
  c.foldl (fun acc j => match acc with
    | none => some j
    | some b => if (corePorts m j).length < (corePorts m b).length then some j else some b) none

/-- A port's service moved to a core (R288). -/
def serveBy (m : Mach) (p k : Nat) : Mach := { m with serves := tupd m.serves p fun _ => k }

/-- An authentication in progress on a bay whose link moves starts again with a fresh nonce (R319): its exchange is dropped
and the next attempt is due at once. -/
def bayRestart (m : Mach) (p : Nat) : Mach :=
  modBay m p fun b =>
    if (1 ≤ b.reqType && b.reqType ≤ 3) || b.verdictAt.isSome then
      { b with reqType := 0, retries := 0, replyAt := none, verdictAt := none, retryAt := some m.dev.now }
    else b

/-- The ports of a fenced core moved to siblings (R291); a port that no sibling can take stays without PD at vSafe5V. -/
def movePorts (m : Mach) (k : Nat) : Mach :=
  forAll m (corePorts m k) fun m p =>
    let m := bayRestart m p
    match siblingFor m k with
    | some j =>
      let m := serveBy m p j
      let x := getPd m p
      if x.senderAt.isSome ∨ x.psTransAt.isSome ∨ x.transAt.isSome then softResetOut m p else m
    | none =>
      if !attachedTypeC m p then m
      else
        let src := (getPort m p).tc = .attachedSrc
        let m := if src then parkPass (setRef m p 0 5000) p else m
        modPd (closeSession m p) p fun x =>
          pdSend { x with hardResets := satTo 65535 (x.hardResets + 1), pe := .noPd, dfp := src, grantMw := if src then parkMw else 0 } m
            .hardReset

/-- A move of core `k` has ended for every port: its command is journalled, DETAIL the ports left behind (R296). -/
def migrationDone (m : Mach) (k : Nat) : Mach :=
  let c := getCore m k
  if (corePorts m k).any fun p => (getPd m p).migTo.isSome then m
  else match c.migSeq with
    | some q => modCore (closeEntry m q 0 c.migFailed) k fun c => { c with migSeq := none, migFailed := 0 }
    | none => modCore m k fun c => { c with migFailed := 0 }

/-- A PD core fenced: its ports move within 10 ms, and a planned move of them is over (R291). -/
def fenceCore (m : Mach) (k : Nat) (code : Nat) : Mach :=
  let ports := corePorts m k
  let m := forAll m ports fun m p => modPd m p fun x => { x with migTo := none, migAt := none }
  openWindow (movePorts (migrationDone (markFence m (0x70 + k) code) k) k) (0x70 + k) .pdCore k ports

/-- FE-W under a fence or a reset: no tap reading stands until a full round after it has rejoined, and the Store's charge is
suspended at once (R21, R183, R484). -/
def feWLost (m : Mach) : Mach :=
  let m := { m with sto := { m.sto with tapsRead := false } }
  if chgRunning (getChg m 0) then
    ladderApply (modChg (chgEnter m 0 .suspended) 0 fun x => { x with cause := 7, iNow := 0, rise := false })
  else m

/-- A front-end die fenced (R20, R402): its ports read FENCED, sessions close, passes and donor capability go to 0. The core side
acts on the PWM pins; VBG, VBD, CC, DP and DM are the die's own, 100 us later (R59). -/
def fenceDie (m : Mach) (d : Nat) (code : Nat) : Mach :=
  let m := markFence m (blkLinkE + d) code
  let m := forAll m ((List.range 24).map (24 * d + ·)) fun m p =>
    let x0 := getPort m p
    if x0.mode = 0 then m
    else
      let m := markFence (markFence m p code) (cnvBlk p) code
      let (g, b) := ((getCv m p).vbg, (getCv m p).vbd)
      let m := modCv (stopConv m p) p fun c => { c with vbg := g, vbd := b }
      let m := bayLearn (dropPass (closeSession (abortBy m p 5) p) p) p
      let m := modPort m p fun x =>
        { x with debounceAt := none, toggleAt := none, tryAt := none, recoverAt := none
                 checkEndAt := none, checkOk := false, checkAt := none, tc := if x.mode = 2 then .bay else .disabled }
      let m := if x0.mode = 2 then chgEnter m (p + 1) .off else m
      cancelMap { m with path := { m.path with donors := m.path.donors.filter fun q => q ≠ p } } p
  let m := if d = 1 then feWLost m else m
  openWindow (modPwr m d) (blkLinkE + d) .die d []
where
  /-- the automatic FER one second later, at most three in an hour (R484). -/
  modPwr (m : Mach) (d : Nat) : Mach :=
    let recent := (tget m.pwr.ferTimes [] d).filter fun t => nowMs m < t + 3600000
    { m with pwr := { m.pwr with
        ferTimes := tupd m.pwr.ferTimes d fun _ => recent
        ferAuto := tupd m.pwr.ferAuto d fun _ => if recent.length < 3 then after m (sec 1) else none } }

end Machine
end Sys2Proof
end

