-- ==== Sys2Proof/Machine/Phase.lean ====
section
/-! DEFINITION. Sys2Proof/Machine/Phase.lean: phase channels, declarations, self-tests, TMON lines and the ADC array
(chapter 3), with the identification of a faulted stage (R139). -/
namespace Sys2Proof
namespace Machine

/-- The port holds an attachment of any kind, a pack in a bay included. -/
def attached (m : Mach) (p : Nat) : Bool :=
  match (getPort m p).tc with
  | .attachedSrc | .attachedSnk => true
  | .bay => packPresent m p
  | _ => false

/-- A boundary-scan instruction that holds every start is current (R518). -/
def scanHolds (m : Mach) : Bool := m.svc.tap = 0x00 || m.svc.tap = 0x04 || m.svc.tap = 0x05

/-- Converter `k` is asked to start: its pre-bias check follows (R126), the self-test of a released phase first
(R385). Nothing starts that is off, fenced, or without its clocks (R33). -/
def requestStart (m : Mach) (k : Nat) : Mach :=
  let c := getCv m k
  if c.decl.topo = 0 || cnvFenced m k || c.run || m.grd.clkLost ≠ 0 || !m.dev.configApplied then m
  else
    let pend := (List.range (declaredPhases c.decl)).any fun j => (tget c.ph {} j).st = .pending
    modCv m k fun c => { c with starting := true, parked := false
                                selftest := if pend then max c.selftest 1 else c.selftest
                                prot := { c.prot with prebiasTries := 0, prebiasAt := none } }

/-! ### CNV_DECLARE (R73, R74) -/

/-- The declaration a payload gives, defaults taken for zeros. -/
def declOf (p : List Byte) : Decl :=
  let k := pU p 0 1
  let d (v dflt : Nat) : Nat := if v = 0 then dflt else v
  if pU p 1 1 = 0 then {}
  else
    { topo := pU p 1 1, phases := pU p 2 1, spareMask := pU p 3 1
      fswKhz := d (pU p 4 2) (if 48 ≤ k ∧ k < 54 then 200 else 500), lNh := pU p 6 2, irateMa := pU p 8 2
      imonGain := pU p 10 2, imonZeroMv := pU p 12 2, blankNs := d (pU p 14 1) 40, pkPct := d (pU p 15 1) 150 }

/-- The declaration's own ranges (R73). -/
def declInRange (k : Nat) (d : Decl) : Bool :=
  d.topo = 0 ||
    (d.topo ≤ 3 && within d.phases 1 (if k < 48 then 2 else 4) && d.spareMask < 16
      && (if 48 ≤ k ∧ k < 54 then within d.fswKhz 100 500 else within d.fswKhz 250 1000)
      && 100 ≤ d.lNh && within d.irateMa 1000 40000 && within d.imonGain 100 10000 && within d.imonZeroMv 100 1700
      && within d.blankNs 20 120 && within d.pkPct 50 200)

/-- The spare phases may join this converter: inputs and AC alone, each to one converter (R17). -/
def sparesOk (m : Mach) (k : Nat) (d : Decl) : Bool :=
  d.spareMask = 0 ||
    (48 ≤ k && (List.range 4).all fun s => !bit d.spareMask s ||
      (match tget m.spares none s with
       | none => true
       | some o => o = k))

/-- What a record of R543 keeps of a phase through a declaration: the counters, which only POR and BOR clear, and the zeros. -/
def keptPhase (y : Phase) : Phase :=
  { trips := y.trips, skips := y.skips, dropped := y.dropped, zeroA := y.zeroA, zeroB := y.zeroB, zeroAt := y.zeroAt }

/-- With fewer than 32 ADCs and over 900 per mille, phase-current rates are halved in descending frequency order until
the load fits; under 24 the Guard fences every converter (R84). -/
def adcShortage (m : Mach) : Mach :=
  let h := adcHealthy m
  if h < 24 then forAll m ((List.range 55).filter fun k => (getCv m k).decl.topo ≠ 0) fun m k =>
    if cnvFenced m k then m
    else fenceConv (detect m (cnvBlk k) .adcMismatch 7 10000).1 k (codeOf .adcMismatch)
  else if h < 32 then
    let ks := (List.range 55).filter fun k => (getCv m k).decl.topo ≠ 0
    let rec ins (x : Nat) : List Nat → List Nat
      | [] => [x]
      | y :: t => if (getCv m y).decl.fswKhz < (getCv m x).decl.fswKhz then x :: y :: t else y :: ins x t
    let r := (ks.foldr ins []).foldl (fun (acc : Nat × List Nat) k =>
      if 900 * adcCap m < 1000 * acc.1 then (acc.1 - adcSaved (getCv m k).decl, acc.2 ++ [k]) else acc) (adcFull m, [])
    { m with adc := { m.adc with halved := r.2 } }
  else { m with adc := { m.adc with halved := [] } }

/-- The declaration in force: spare phases taken and freed, phases idle but for those fenced before, wherever a moved spare was
fenced (R74). -/
def declare (m : Mach) (k : Nat) (d : Decl) : Mach :=
  let old := getCv m k
  let oldPh := (List.range (declaredPhases old.decl)).map fun j => (phaseChan m k j, tget old.ph {} j)
  let fencedBefore : List (Nat × Nat) := old.staleFences ++
    (oldPh.filter fun x => x.2.st = .fenced).map fun x => (x.1, x.2.cause)
  let sp := tmap m.spares fun s o => if bit d.spareMask s then some k else if o = some k then none else o
  let m := { m with spares := sp }
  let m := modCv m k fun c => { c with decl := d, ph := Vector.replicate 8 {}, inter := [] }
  let chans := (List.range (declaredPhases d)).map fun j => phaseChan m k j
  let elsewhere := ((List.range 55).filter fun j => j ≠ k).flatMap fun j => (getCv m j).staleFences
  let m := forAll m (List.range (declaredPhases d)) fun m j =>
    let ch := phaseChan m k j
    let y := match oldPh.find? fun x => x.1 = ch with
      | some x => keptPhase x.2
      | none => {}
    let y := match (fencedBefore ++ elsewhere).find? fun x => x.1 = ch with
      | some x => { y with st := .fenced, cause := x.2 }
      | none => y
    modCv m k fun c => { c with ph := tupd c.ph j fun _ => y }
  let m := forAll m (List.range 55) fun m j => modCv m j fun c => { c with
    staleFences := (if j = k then fencedBefore else c.staleFences).filter fun x => !chans.contains x.1 }
  adcShortage (modCv m k fun c => { c with selftest := if d.topo = 0 then 0 else 1, starting := false })

/-- CNV_DECLARE without its retention write: R73, R74. A response to TOPO 0 gives PERIOD_CYC 0 (DESIGN CHOICE, log entry
101). -/
def setDeclare (m : Mach) (p : List Byte) : Ans :=
  let k := pU p 0 1
  let d := declOf p
  let trial := modCv m k fun c => { c with decl := d }
  refuseFirst
    [(54 < k || 3 < pU p 1 1 || !declInRange k d || !sparesOk m k d, .outOfRange),
     (d.topo ≠ 0 && (adcOver trial || engOver trial), .outOfRange),
     (d.topo ≠ 0 && 1000000 < 2 * (getCv m k).ctrl.cfg.specLeadNs * d.fswKhz, .outOfRange),
     ((getCv m k).run || (k < 48 && attached m k), .notInState),
     (k < 48 && isBay m k && (d.topo = 0 || d.topo = 3), .notInState)] <|
    let m := declare m k d
    .ok m (le 2 (if d.topo = 0 then 0 else periodCyc d.fswKhz) ++ le 2 (adcPermille m))

/-- An accepted configuration command is written to its paired slot. -/
def persist (code key : Nat) (p : List Byte) (a : Ans) : Ans :=
  match a with
  | .ok m out => .ok (nvmConfig m code key p) out
  | a => a

def cmdCnvDeclare (m : Mach) (_ : Nat) (p : List Byte) : Ans := persist 0x1102 (pU p 0 1) p (setDeclare m p)

def execCnvDeclare (slot : Nat) (s : State) := command 0x1102 slot cmdCnvDeclare s

/-! ### Self-test (R77, R78) -/

/-- Test-pulse on-time in steps of 78.125 ps: 0.25 IRATE L / V_IN, to the nearest step (R77). -/
def testSteps (d : Decl) (vinMv : Nat) : Nat := roundDivN (32 * d.irateMa * d.lNh) (10 * vinMv)

/-- One drive of a phase's legs in its self-test: when it begins, in steps of 78.125 ps, and what each leg is driven to. -/
structure TestStep where
  atStep : Nat
  inputHigh : Bool
  outputHigh : Bool
  /-- both legs at mid-level instead. -/
  mid : Bool := false
deriving DecidableEq, Repr

/-- The drives of steps 2 and 3 of R77: four test pulses 2 us (25 600 steps) apart, then the two comparator-test pulses with t_on
doubled. A pulse drives input-side leg high and output-side leg low for t_on, the reverse for twice t_on, then both to mid-level.
The comparator-test pulses follow at the same spacing (DESIGN CHOICE, log entry 101). -/
def testPattern (d : Decl) (vinMv : Nat) : List TestStep :=
  (List.range 6).flatMap fun n =>
    let t := testSteps d vinMv * (if n < 4 then 1 else 2)
    let a := 25600 * n
    [{ atStep := a, inputHigh := true, outputHigh := false }, { atStep := a + t, inputHigh := false, outputHigh := true },
     { atStep := a + 3 * t, inputHigh := false, outputHigh := false, mid := true }]

/-- The result byte of one phase's self-test: the first failure in the order of R78; a TMON fault ends the test at any
moment. A comparator-test pulse is ended by its comparator before its scheduled end of twice t_on. -/
def selftestResult (k : Nat) (d : Decl) (tmonBad : Bool) (x : SelftestMeas) : Nat :=
  let zeroOk (z : Nat) : Bool := d.imonZeroMv ≤ z + 50 && z ≤ d.imonZeroMv + 50
  let want := x.vinMv * testSteps d x.vinMv * 78125
  let peakOk (pk : Int) : Bool :=
    let got := pk * 10 * d.lNh * 1000000
    (7 * want : Nat) ≤ got && got ≤ (13 * want : Nat)
  if 48 ≤ k && k < 54 && x.vinMv < 5000 then 7
  else if tmonBad || x.tmonMv < 100 || 2400 < x.tmonMv then 5
  else if !zeroOk x.zeroA || !zeroOk x.zeroB then 6
  else if !x.peaks.all peakOk then 1
  else if !x.edgesOk then 2
  else if d.irateMa < 20 * x.partnerMa then 4
  else if !x.compSteps.all (fun t => t < 2 * testSteps d x.vinMv) then 3
  else 0

/-- The phase under test of a stopped converter whose self-test runs: its declared phases in turn (R77). -/
def underTest (m : Mach) (k : Nat) : Option Nat :=
  let c := getCv m k
  if c.selftest = 1 && !c.run && m.dev.configApplied then
    (List.range (declaredPhases c.decl)).find? fun j => !(tget c.ph {} j).tested
  else none

/-- PHASE_SELFTEST (R19, R77): one declared phase of a converter whose self-test is due, with the port's VBG off. A pass admits an
idle or released phase; a failure fences a phase that is not fenced; a fenced phase stays fenced (R78). -/
def phaseSelftest (m : Mach) (k idx : Nat) (x : SelftestMeas) : Mach :=
  let c := getCv m k
  let t := getTmon m (tmonOf (phaseChan m k idx))
  let r := selftestResult k c.decl (t.open_ || t.fault) x
  let old := (tget c.ph {} idx).st
  let m := modCv m k fun c => { c with vbg := c.vbg && 48 ≤ k, ph := tupd c.ph idx fun y =>
    { y with result := r, zeroA := if r = 7 then y.zeroA else x.zeroA, zeroB := if r = 7 then y.zeroB else x.zeroB
             zeroAt := m.dev.now, tested := true
             st := if r = 0 && y.st ≠ .fenced then .inService else y.st } }
  if r = 7 then modCv m k fun c => { c with selftest := 2 }
  else if r = 0 || old = .fenced then m
  else
    -- R86, R390: SELFTEST is first, IMON_ZERO an additional cause of the same moment
    let m := (detect m (cnvBlk k) .selftest 5 10000).1
    let m := if r = 6 then forAll m (blocksOf (cnvBlk k)) fun m b => modBlk m b fun w =>
        blkRecord w (codeOf .imonZero) 5 (nowMs m) m.dev.aonTick true
      else m
    modCv m k fun c =>
      { c with ph := tupd c.ph idx fun y => { y with st := .fenced, cause := codeOf .selftest }
               prot := { c.prot with shedCount := wrap32 (c.prot.shedCount + 1) } }

/-- A self-test begins once the configuration is applied (R55); it takes eight peaks and two comparator-test pulses (R77). -/
def execPhaseSelftest (conv phase : Nat) (meas : SelftestMeas) (s : State) : Host.Outcome State Fault Refusal :=
  guardUnit (conv < 55 && phase < 8) s fun m =>
    when ((getCv m conv).selftest ≠ 0 && !(getCv m conv).run && phase < declaredPhases (getCv m conv).decl
        && m.dev.configApplied && meas.peaks.length = 8 && meas.compSteps.length = 2) m
      fun m => phaseSelftest m conv phase meas

/-- The answer to a waiting PHS_SELFTEST: one byte per declared phase (R78). -/
def answerSelftest (m : Mach) (k : Nat) : Mach :=
  let c := getCv m k
  match c.selftestSlot with
  | none => m
  | some s =>
    let out := (List.range (declaredPhases c.decl)).map fun j => BitVec.ofNat 8 (tget c.ph {} j).result
    let m := modCv m k fun c => { c with selftestSlot := none }
    if (getSlot m s).st = .executing && (getSlot m s).deferred then answer m s .ok out 0 else m

/-- SELFTEST_DONE (R78): every declared phase has been tested; with none that passed the converter is fenced. An attached sink's
VBG closes again. -/
def selftestDone (m : Mach) (k : Nat) : Mach :=
  let c := getCv m k
  let m := modCv m k fun c => { c with ph := tmap c.ph fun _ y => { y with tested := false }
                                       vbg := c.vbg || (k < 48 && (getPort m k).tc = .attachedSnk) }
  if c.selftest = 2 then answerSelftest m k
  else
    let m := modCv m k fun c => { c with selftest := 0 }
    let m := if (livePhases c).isEmpty && declaredPhases c.decl ≠ 0 && !cnvFenced m k then
        fenceConv m k (codeOf .selftest) else m
    answerSelftest m k

def execSelftestDone (conv : Nat) (s : State) : Host.Outcome State Fault Refusal :=
  guardUnit (conv < 55) s fun m => when ((getCv m conv).selftest ≠ 0 && !(getCv m conv).run) m
    fun m => selftestDone m conv

/-- SELFTEST_DEFERRED_RUN (R78): the source has risen above 5 000 mV. -/
def execSelftestDeferredRun (input vinMv : Nat) (s : State) : Host.Outcome State Fault Refusal :=
  guardRead (input < 6) (vinMv ≤ 170000) s fun m =>
    when ((getCv m (48 + input)).selftest = 2 && 5000 < vinMv) m
      fun m => modCv m (48 + input) fun c => { c with selftest := 1 }

/-- PHS_SELFTEST (R78): answered at the end of the test. -/
def cmdPhsSelftest (m : Mach) (s : Nat) (p : List Byte) : Ans :=
  let k := pU p 0 1
  let c := getCv m k
  refuseFirst
    [(54 < k, .outOfRange),
     (c.run || c.starting || c.decl.topo = 0 || (k < 48 && attached m k), .notInState)] <|
    .wait (modCv m k fun c => { c with selftest := 1, selftestSlot := some s
                                       ph := tmap c.ph fun _ y => { y with tested := false } })

def execPhsSelftest (slot : Nat) (s : State) := command 0x1103 slot cmdPhsSelftest s

/-! ### PHS_STATUS_GET (R543) -/

def phStCode : PhSt → Nat
  | .idle => 0 | .inService => 1 | .parked => 2 | .fenced => 3 | .pending => 4 | .testing => 5

/-- The temperature of a TMON group in units of R6; 0x8000 where it is invalid. -/
def groupTemp (m : Mach) (j : Nat) : Nat :=
  let t := getTmon m j
  if t.open_ then 0x8000 else (t.temp % 65536).toNat

/-- STATE of a phase (R543). An admitted phase of a converter that does not run stands at mid-level: idle (R62, R86). -/
def phaseState (m : Mach) (k j : Nat) : PhSt :=
  let y := tget (getCv m k).ph {} j
  if underTest m k = some j && y.st ≠ .fenced then .testing
  else if y.st = .inService && !(getCv m k).run then .idle else y.st

/-- A phase's record (R543). -/
def phaseRecord (m : Mach) (k j : Nat) : List Byte :=
  let y := tget (getCv m k).ph {} j
  let st := phaseState m k j
  [BitVec.ofNat 8 (phStCode st), BitVec.ofNat 8 (if y.st = .fenced then y.cause else 0)]
    ++ le 2 y.zeroA ++ le 2 y.zeroB ++ le 2 (groupTemp m (tmonOf (phaseChan m k j)))
    ++ le 4 y.trips ++ le 4 y.skips ++ le 4 y.dropped

def cmdPhsStatusGet (m : Mach) (_ : Nat) (p : List Byte) : Ans :=
  let k := pU p 0 1
  refuseFirst [(54 < k, .outOfRange)] <|
    let c := getCv m k
    let n := declaredPhases c.decl
    .ok m ([BitVec.ofNat 8 k, BitVec.ofNat 8 n, 0, 0] ++ le 4 c.peakPeriods ++ le 4 c.skipPeriods
      ++ (List.range n).flatMap (phaseRecord m k))

def execPhsStatusGet (slot : Nat) (s : State) := command 0x1104 slot cmdPhsStatusGet s

/-! ### Current sense and TMON -/

/-- On-time of a duty in steps of 78.125 ps (R63). -/
def onSteps (d : Decl) (duty : Nat) : Nat := roundDivN (duty * (16 * periodCyc d.fswKhz)) 65536

/-- The energising interval of the running period, in steps: the switching leg's on-time, in transition the input leg's, which
M_BK fixes (R95). -/
def energise (c : Conv) : Nat :=
  if c.ctrl.modeApplied = 1 then
    max (onSteps c.decl c.ctrl.dutyEff) (roundDivN (c.ctrl.cfg.mBk * (16 * periodCyc c.decl.fswKhz)) 1000)
  else onSteps c.decl c.ctrl.dutyEff

/-- A reading crosses a leg's threshold (R68): at or above it, in reverse below it. The code is in steps of 1 757.8125 uV. -/
def crosses (m : Mach) (k ch imonUv : Nat) : Bool :=
  let thr := 28125 * peakCode m k ch
  if (getCv m k).reverse then 16 * imonUv < thr else thr ≤ 16 * imonUv

/-- The comparator is heard (R69, R70): past BLANK_NS after the edge that started the on-time, and no later than the PWMCLK cycle
of its scheduled end. 1 ns is 12.8 steps. -/
def heard (c : Conv) (sinceNs : Nat) : Bool :=
  c.decl.blankNs ≤ sinceNs && c.ctrl.dutyEff ≠ 0 && 64 * sinceNs ≤ 5 * (energise c + 16)

/-- PEAK_TRIP (R69, R70): the on-time of the whole phase ends until the next period; a period counts once for the converter. -/
def peakTrip (m : Mach) (k idx : Nat) : Mach :=
  let c := getCv m k
  let first := !((List.range 8).any fun j => (tget c.ph {} j).tripped)
  modCv m k fun c =>
    { c with peakPeriods := if first then wrap32 (c.peakPeriods + 1) else c.peakPeriods
             ph := tupd c.ph idx fun y =>
               { y with tripped := true, trips := if y.tripped then y.trips else wrap32 (y.trips + 1) } }

def execPeakTrip (conv : Nat) (hit : PeakHit) (s : State) : Host.Outcome State Fault Refusal :=
  guardUnit (conv < 55 && hit.phase < 8) s fun m =>
    when ((getCv m conv).run && (tget (getCv m conv).ph {} hit.phase).st = .inService && heard (getCv m conv) hit.sinceNs
        && crosses m conv (phaseChan m conv hit.phase + (if hit.legB then 1 else 0)) hit.imonUv) m
      fun m => peakTrip m conv hit.phase

/-- SENSE_SPLIT (R67): the two readings of a phase differ by more than 10 % of its rating. -/
def execSenseSplit (conv phase : Nat) (aMa bMa : Int) (s : State) : Host.Outcome State Fault Refusal :=
  guardUnit (conv < 55 && phase < 8) s fun m =>
    when ((tget (getCv m conv).ph {} phase).st = .inService
        && ((getCv m conv).decl.irateMa : Int) < 10 * (aMa - bMa).natAbs) m
      fun m => note m (cnvBlk conv) .senseSplit 2

/-- The temperature a TMON reading stands for, in units of R6: (V - 600 mV) / 8 mV per degree, clamped at 175 (R72). The table
leaves out 100 to 200 mV, decoded by the same line, and readings above 2 400 mV, clamped as those below (DESIGN CHOICE, log
entry 101). -/
def tmonTemp (mv : Nat) : Int := min 1400 ((mv : Int) - 600)

/-- A reading of TMONj by the round or a fast lane (R72): the line is no longer open or shorted, and gives its temperature. -/
def tmonRead (m : Mach) (j mv : Nat) : Mach :=
  if mv < 100 then modTmon m j fun t => { t with mv := mv }
  else
    let was := (getTmon m j).open_
    let m := modTmon m j fun t => { t with mv := mv, open_ := false, temp := tmonTemp mv }
    if was then forAll m (groupConvs m j) fun m k => setLive m (cnvBlk k) .tmonOpen 2 false else m

/-- A converter of the group, or one of its phases in the group, is fenced by command (R502). -/
def cmdFencedIn (m : Mach) (j : Nat) : Option Nat :=
  (groupConvs m j).find? fun k =>
    (getBlk m (cnvBlk k)).fence = some (codeOf .cmd) ||
      (List.range (declaredPhases (getCv m k).decl)).any fun i =>
        let y := tget (getCv m k).ph {} i
        tmonOf (phaseChan m k i) = j && y.st = .fenced && y.cause = codeOf .cmd

/-- The mask of R502 stands on a group. -/
def tmonMasked (m : Mach) (j : Nat) : Bool :=
  (cmdFencedIn m j).isSome && (match (getTmon m j).maskUntil with
    | some t => m.dev.now < t
    | none => false)

/-- TMON_OPEN (R72). -/
def tmonOpen (m : Mach) (j mv : Nat) : Mach :=
  if tmonMasked m j then note m (cnvBlk ((cmdFencedIn m j).getD 0)) .tmonOpen 1
  else
    let m := modTmon m j fun t => { t with mv := mv, open_ := true }
    forAll m (groupConvs m j) fun m k => setLive (note m (cnvBlk k) .tmonOpen 2) (cnvBlk k) .tmonOpen 2 true

def execTmonOpen (group mv : Nat) (s : State) : Host.Outcome State Fault Refusal :=
  guardUnit (group < 16) s fun m => when (mv < 100 && m.dev.adcclk) m fun m => tmonOpen m group mv

/-- STAGE_FAULT (R72): every converter of the group records it, and the identification of R139 begins. -/
def stageFault (m : Mach) (j mv : Nat) : Mach :=
  if tmonMasked m j then note m (cnvBlk ((cmdFencedIn m j).getD 0)) .stageFault 1
  else
    let m := modTmon m j fun t => { t with mv := mv, fault := true, temp := tmonTemp mv }
    forAll m (groupConvs m j) fun m k => setLive (note m (cnvBlk k) .stageFault 2) (cnvBlk k) .stageFault 2 true

def execStageFault (group mv : Nat) (s : State) : Host.Outcome State Fault Refusal :=
  guardUnit (group < 16) s fun m => when (2400 < mv && m.dev.adcclk) m fun m => stageFault m group mv

/-- The identification ends: STAGE_FAULT is no longer present. -/
def stageClear (m : Mach) (j : Nat) : Mach :=
  let m := modTmon m j fun t => { t with fault := false, toPark := [], parkEnd := none }
  forAll m (groupConvs m j) fun m k => setLive m (cnvBlk k) .stageFault 2 false

/-- Every converter with a channel in the group is fenced (R139 step 4). -/
def stageFenceAll (m : Mach) (j : Nat) : Mach :=
  let m := forAll m (groupConvs m j) fun m k =>
    fenceConv (detect m (cnvBlk k) .stageFault 6 10000).1 k (codeOf .stageFault)
  modTmon m j fun t => { t with fault := false, toPark := [], parkEnd := none }

/-- A phase's parking begins (R139 step 2): mid-level for 200 us; a converter with one phase in service stops. -/
def parkBegin (m : Mach) (j k i : Nat) : Mach :=
  let m := modTmon m j fun t => { t with parkEnd := after m 200000 }
  if (livePhases (getCv m k)).length ≤ 1 then modCv (stopRun m k) k fun c => { c with parked := true }
  else modCv m k fun c => { c with ph := tupd c.ph i fun y => { y with st := .parked } }

/-- The phases in service of a group, lowest channel first; a converter in its hiccup off-time is skipped (R144). -/
def groupPhases (m : Mach) (j : Nat) : List (Nat × Nat) :=
  let all := (groupConvs m j).flatMap fun k =>
    if (getCv m k).prot.hiccupAt.isSome || !(getCv m k).run then []
    else ((livePhases (getCv m k)).filter fun i => tmonOf (phaseChan m k i) = j).map fun i => (k, i)
  let rec ins (x : Nat × Nat) : List (Nat × Nat) → List (Nat × Nat)
    | [] => [x]
    | y :: t => if phaseChan m x.1 x.2 < phaseChan m y.1 y.2 then x :: y :: t else y :: ins x t
  all.foldr ins []

/-- Phases of a parking round that are still in service, from the first such on: one fenced meanwhile is left out. -/
def stillLive (m : Mach) (l : List (Nat × Nat)) : List (Nat × Nat) :=
  l.filter fun x => (tget (getCv m x.1).ph {} x.2).st = .inService

/-- STAGE_IDENTIFY (R139 steps 1 and 2): a channel that met a criterion has its phase fenced; with none the group's
phases are parked in turn, and with none to park every converter of the group is fenced. -/
def stageIdentify (m : Mach) (j : Nat) (found : List Nat) : Mach :=
  let hit := (groupConvs m j).flatMap fun k =>
    ((List.range (declaredPhases (getCv m k).decl)).filter fun i =>
      (tget (getCv m k).ph {} i).st ≠ .fenced
        && (found.contains (phaseChan m k i) || found.contains (phaseChan m k i + 1))).map fun i => (k, i)
  if !hit.isEmpty then stageClear (hit.foldl (fun m x => fencePhase m x.1 x.2 .stageFault 5) m) j
  else
    match groupPhases m j with
    | [] => stageFenceAll m j
    | (k, i) :: t => parkBegin (modTmon m j fun x => { x with toPark := (k, i) :: t }) j k i

def execStageIdentify (group : Nat) (found : List Nat) (s : State) : Host.Outcome State Fault Refusal :=
  guardUnit (group < 16) s fun m =>
    when ((getTmon m group).fault && (getTmon m group).parkEnd.isNone) m fun m => stageIdentify m group found

/-- The parked phase goes on, or its stopped converter starts again. -/
def unpark (m : Mach) (k i : Nat) : Mach :=
  if (getCv m k).parked then requestStart m k
  else modCv m k fun c => { c with ph := tupd c.ph i fun y =>
    { y with st := if y.st = .parked then .inService else y.st } }

/-- PHASE_PARK_END (R139 steps 3 and 4). -/
def phaseParkEnd (m : Mach) (j mv : Nat) : Mach :=
  match (getTmon m j).toPark with
  | [] => m
  | (k, i) :: t =>
    if mv < 2400 then stageClear (fencePhase (unpark m k i) k i .stageFault 5) j
    else
      let m := unpark m k i
      let t := stillLive m t
      let m := modTmon m j fun x => { x with toPark := t, parkEnd := none }
      match t with
      | [] => stageFenceAll m j
      | (k', i') :: _ => parkBegin m j k' i'

def execPhaseParkEnd (group mv : Nat) (s : State) : Host.Outcome State Fault Refusal :=
  guardUnit (group < 16) s fun m => fire m (getTmon m group).parkEnd fun m => phaseParkEnd m group mv

/-- TMON_MASK_EXPIRE (R502): 300 s after the fence, R72 and R139 apply again. -/
def execTmonMaskExpire (group : Nat) (s : State) : Host.Outcome State Fault Refusal :=
  guardUnit (group < 16) s fun m => fire m (getTmon m group).maskUntil fun m =>
    modTmon m group fun t => { t with maskUntil := none }

/-- IMON_ZERO_CHECK (R86): the zeros of an idle phase; one out of IMON_ZERO_MV +- 50 mV fences the phase. -/
def imonZeroCheck (m : Mach) (k idx za zb : Nat) : Mach :=
  let d := (getCv m k).decl
  let ok (z : Nat) : Bool := d.imonZeroMv ≤ z + 50 && z ≤ d.imonZeroMv + 50
  -- R520: an offset of KIND 3 on the readings of either leg
  let za := ((za : Int) + ptbValue m 3 (phaseChan m k idx)).toNat
  let zb := ((zb : Int) + ptbValue m 3 (phaseChan m k idx + 1)).toNat
  let m := modCv m k fun c => { c with ph := tupd c.ph idx fun y =>
    { y with zeroA := za, zeroB := zb, zeroAt := m.dev.now } }
  if ok za && ok zb then m else fencePhase m k idx .imonZero 5

def execImonZeroCheck (conv phase zeroA zeroB : Nat) (s : State) : Host.Outcome State Fault Refusal :=
  guardUnit (conv < 55 && phase < 8) s fun m =>
    when (!(getCv m conv).run && (tget (getCv m conv).ph {} phase).st = .inService) m
      fun m => imonZeroCheck m conv phase zeroA zeroB

/-! ### The ADC array (R79 to R85) -/

/-- The streams of a converter whose samples fall in its period `n` (R79): 0 V (and an input's or AC's other loop samples) every
period, 2 phase current every second, 3 VBS of a port every eighth, 4 ripple every sixteenth. -/
def streamsIn (k n : Nat) : List Nat :=
  [0] ++ (if n % 2 = 0 then [2] else []) ++ (if k < 48 && n % 8 = 0 then [3] else []) ++ (if n % 16 = 0 then [4] else [])

/-- Requests in the order of R80 within one 200 ns interval: by class, then by instant. -/
def apOrder (l : List ApReq) : List ApReq :=
  let rec ins (x : ApReq) : List ApReq → List ApReq
    | [] => [x]
    | y :: t => if x.cls < y.cls || (x.cls = y.cls && x.atNs ≤ y.atNs) then x :: y :: t else y :: ins x t
  l.foldr ins []

/-- The arbitration of R80 over consecutive 200 ns intervals: `cap` apertures are granted in each, a displaced sample moves to the
next, up to 400 ns after its instant; what no slot has taken by then is dropped but for loop voltage and Store current samples, the
fold monitor and VBS, which wait on (DESIGN CHOICE, log entry 101). Answers the dropped requests. -/
def arbitrate (cap : Nat) (reqs : List ApReq) : Nat → Nat → List ApReq → List ApReq
  | 0, _, _ => []
  | n + 1, i, waiting =>
    let now := apOrder (waiting ++ reqs.filter fun r => r.atNs / 200 = i)
    let left := now.drop cap
    let late (r : ApReq) : Bool := r.atNs + 400 < 200 * (i + 2) && (r.cls = 2 || 4 ≤ r.cls)
    left.filter late ++ arbitrate cap reqs n (i + 1) (left.filter fun r => !late r)

/-- The samples that a round's contention drops are counted: phase current and ripple on their phase (R543), housekeeping on the
array (R80). -/
def apDrops (m : Mach) (reqs : List ApReq) : Mach :=
  let last := (reqs.map fun r => r.atNs / 200).foldl max 0
  let dropped := if reqs.isEmpty then [] else arbitrate (min 32 (adcHealthy m)) reqs (last + 4) 0 []
  dropped.foldl (fun m r =>
    if r.cls = 5 then { m with adc := { m.adc with hkDropped := wrap32 (m.adc.hkDropped + 1) } }
    else if r.conv < 55 then
      modCv m r.conv fun c => { c with ph := tupd c.ph r.phase fun y => { y with dropped := wrap32 (y.dropped + 1) } }
    else m) m

def adcUnit (m : Mach) (a : Nat) : AdcUnit := tget m.adc.units {} a
def modAdc (m : Mach) (a : Nat) (f : AdcUnit → AdcUnit) : Mach :=
  { m with adc := { m.adc with units := tupd m.adc.units a f } }

/-- The first ADC in a state. Where two are ready, the lower index is the ready ADC of R82 (DESIGN CHOICE, log entry 101). -/
def adcIn (m : Mach) (st : AdcSt) : Option Nat := (List.range 34).find? fun a => (adcUnit m a).st = st

/-- The next ADC in service from `adc.next` on, round robin (R82). -/
def adcNext (m : Mach) : Option Nat :=
  ((List.range 34).map fun j => (m.adc.next + j) % 34).find? fun a => (adcUnit m a).st = .inService

/-- One step of the rotation (R82): an ADC leaves, and the ready one becomes its stand-in. With 32 healthy ADCs the
rotation stops (R84). -/
def adcStep (m : Mach) : Mach :=
  if adcHealthy m < 33 || m.adc.leaving.isSome || m.adc.retry then m
  else
    match adcNext m, adcIn m .ready with
    | some l, some r =>
      modAdc { m with adc := { m.adc with leaving := some l, standin := some r, next := (l + 1) % 34 } } r
        fun x => { x with st := .standin }
    | _, _ => m

/-- ADC_ROTATION (R82): every 10 s. -/
def adcRotation (m : Mach) : Mach := adcStep { m with adc := { m.adc with rotateAt := after m (sec 10) } }

def execAdcRotation (s : State) : Host.Outcome State Fault Refusal :=
  next s (when s.m.dev.adcclk s.m fun m => fire m m.adc.rotateAt adcRotation)

/-- Ready ADCs enter service while fewer than 32 are in it. -/
def adcFill (m : Mach) : Mach :=
  if 32 ≤ ((List.range 34).filter fun a => (adcUnit m a).st = .inService).length then m
  else match adcIn m .ready with
    | some r => modAdc m r fun x => { x with st := .inService }
    | none => m

/-- ADC_HANDOVER (R82, R83). A failed stand-in is withdrawn, and the step waits for the next calibration. Where both have failed
the rule gives the leaving ADC to calibration and keeps it in service: it goes to calibration, and a ready ADC, where there is one,
takes its place (DESIGN CHOICE, log entry 101). -/
def adcHandover (m : Mach) (disagree : List Nat) (leavingErr standinErr : Nat) : Mach :=
  match m.adc.leaving, m.adc.standin with
  | some l, some r =>
    let bad := disagree.any fun n => 4 < n
    let m := if bad then note { m with adc := { m.adc with mismatch := true } } blkAdc .adcMismatch 1 else m
    let m := { m with adc := { m.adc with leaving := none, standin := none } }
    if bad && 4 < standinErr then
      let m := modAdc { m with adc := { m.adc with next := l, retry := true } } r fun x => { x with st := .withdrawn }
      if 4 < leavingErr then adcFill (modAdc m l fun x => { x with st := .calibrating }) else m
    else modAdc (modAdc m r fun x => { x with st := .inService }) l fun x => { x with st := .calibrating }
  | _, _ => m

def execAdcHandover (disagree : List Nat) (leavingErr standinErr : Nat) (s : State) :
    Host.Outcome State Fault Refusal :=
  next s (adcHandover s.m disagree leavingErr standinErr)

/-- ADC_CAL_DONE (R82, R83): the calibrating ADC (or a withdrawn one) becomes ready, or is retired at its second failure
in a row; a step that a failed stand-in has held up is then retried. -/
def adcCalDone (m : Mach) (pass : Bool) : Mach :=
  match (adcIn m .calibrating).or (adcIn m .withdrawn) with
  | none => m
  | some a =>
    let held := m.adc.retry
    let m := { m with adc := { m.adc with retry := false } }
    let m := if pass then adcFill (modAdc m a fun x => { x with st := .ready, fails := 0 })
      else if 1 ≤ (adcUnit m a).fails then adcShortage (modAdc m a fun x => { x with st := .retired })
      else modAdc m a fun x => { x with st := .calibrating, fails := 1 }
    if held then adcStep m else m

def execAdcCalDone (pass : Bool) (s : State) : Host.Outcome State Fault Refusal := next s (adcCalDone s.m pass)

/-- PHS_ADC_STAT (R85). -/
def adcStatWord (m : Mach) : Nat :=
  adcPermille m * 2 ^ 22 + ((adcIn m .calibrating).getD 0x3F) * 2 ^ 16 + (m.adc.standin.getD 0x3F) * 2 ^ 10
    + adcHealthy m * 2 ^ 4 + flag m.adc.mismatch 3

def adcStatWrite (m : Mach) (w : Nat) : Mach :=
  { m with adc := { m.adc with mismatch := m.adc.mismatch && !bit w 3 } }

end Machine
end Sys2Proof
end

