-- ==== Sys2Proof/Machine/Schuss.lean ====
section
/-! DEFINITION. Sys2Proof/Machine/Schuss.lean: the Schuss control engine (chapter 4). Efforts are Q1.31 integers, errors
Q1.15 integers in LSB, coefficients Q3.20 integers, duties 16-bit fractions, samples and references 1/65536 mV or mA.
For PCp and AC the samples IOUT and ISRC of a command are the inductor current, from which R90 estimates both.
Each converter has one loop slot (R24); a fence wins over a shadow load and events meet as R65 and R125 say. Choices of this
chapter stand in log entry 102. -/
namespace Sys2Proof
namespace Machine

def modCtrl (m : Mach) (k : Nat) (f : Ctrl → Ctrl) : Mach := modCv m k fun c => { c with ctrl := f c.ctrl }
def ctrlOf (m : Mach) (k : Nat) : Ctrl := (getCv m k).ctrl

/-! ### Arithmetic -/

/-- Q1.31 saturation (R92). -/
def satQ31 (x : Int) : Int := clampI (-2147483648) 2147483647 x

/-- Q1.15 saturation (R89). -/
def satQ15 (x : Int) : Int := clampI (-32768) 32767 x

/-- The error of a loop in its LSB (R89): V reference less measurement at 2 mV; IOUT and ISRC limit less measurement at
8 mA; FOLD measurement less floor at 2 mV; rounded to nearest, ties away from zero, then saturated. -/
def errorOf (j : Nat) (ref y : Int) : Int :=
  if j = 0 then satQ15 (roundDivI (ref - y) 131072)
  else if j = 3 then satQ15 (roundDivI (y - ref) 131072)
  else satQ15 (roundDivI (ref - y) 524288)

/-- The feed-forward voltage limited to VFF_NOM / 4 to 4 VFF_NOM, in mV (R95). -/
def vinLim (c : LoopCfg) (vin : Int) : Rat :=
  let v : Rat := (vin : Rat) / 65536
  let n : Rat := c.vffNomMv
  max (n / 4) (min (4 * n) v)

/-- K_FF of R95: acts in buck alone. -/
def kff (c : LoopCfg) (mode : Nat) (vin : Int) : Rat := if mode = 0 then (c.vffNomMv : Rat) / vinLim c vin else 1

/-- The duty of the switching leg, a 16-bit fraction, for an effort (R95): rounded to nearest and limited to 0 to 65 535, which the
spec leaves open (DESIGN CHOICE, log entry 102). -/
def toDuty (c : LoopCfg) (mode : Nat) (u : Int) (vin : Int) : Nat :=
  (clampI 0 65535 (roundRat ((u : Rat) / 2147483648 * kff c mode vin * 65536))).toNat

/-- The effort equivalent of a duty at the actual V_in (R115). -/
def toEffort (c : LoopCfg) (mode : Nat) (d : Nat) (vin : Int) : Int :=
  satQ31 (roundRat ((d : Rat) / 65536 / kff c mode vin * 2147483648))

/-- The effort limited by the clamps of the set in force (R94). -/
def clampU (c : LoopCfg) (mode : Nat) (s : CoefSet) (u : Int) (vin : Int) : Int :=
  clampI (toEffort c mode s.dmin vin) (toEffort c mode s.dmax vin) u

/-- Which clamp an effort lies at: 0 none, 1 the lower, 2 the upper. -/
def clampState (c : LoopCfg) (mode : Nat) (s : CoefSet) (u : Int) (vin : Int) : Nat :=
  if u < toEffort c mode s.dmin vin then 1 else if toEffort c mode s.dmax vin < u then 2 else 0

/-- Coefficient `n` of loop `j`: b0 to b3, then a1 to a3 (R98). -/
def coefAt (s : CoefSet) (j n : Nat) : Int := s.coef.getD (7 * j + n) 0

/-- The three-pole, three-zero compensator of R92 on the error `e` and the committed histories. -/
def dfi (s : CoefSet) (j : Nat) (l : LoopSt) (e : Int) : Int :=
  let b (n : Nat) : Int := coefAt s j n
  let eh (n : Nat) : Int := l.e.getD n 0
  let uh (n : Nat) : Int := l.u.getD n 0
  let acc := 65536 * (b 0 * e + b 1 * eh 0 + b 2 * eh 1 + b 3 * eh 2)
    - (b 4 * uh 0 + b 5 * uh 1 + b 6 * uh 2)
  -- a sum outside the 56-bit accumulator has no stated value
  satQ31 (if withinI acc (-(2 ^ 55)) (2 ^ 55 - 1) then roundDivI acc 1048576 else Config.accOverflow acc)

/-- The set in force for a mode and the update divider (R100, R102). -/
def setIn (c : Ctrl) (mode : Nat) : CoefSet :=
  let idx := c.map.getD (if c.div = 2 then 3 + mode else mode) 0xFF
  tget c.sets {} idx

/-- Modes a converter can enter (R96); for one declared TOPO 0 all three (DESIGN CHOICE, log entry 102). -/
def modesOf (d : Decl) : List Nat := if d.topo = 2 then [0] else if d.topo = 3 then [2] else [0, 1, 2]

/-- The selected loop: the enabled loop of lowest effort, in the order FOLD, ISRC, IOUT, V among equals (R93). -/
def selectLoop (en : Nat) (us : List Int) : Nat :=
  ([3, 2, 1, 0].filter fun j => bit en j).foldl (fun best j =>
    if best = 4 then j else if us.getD j 0 < us.getD best 0 then j else best) 4

/-- The conversion ratio an effort stands for (R95), with V_in / VFF_NOM `x`. -/
def ratioOf (c : LoopCfg) (mode : Nat) (x : Rat) (u : Int) : Rat :=
  let v : Rat := (u : Rat) / 2147483648
  if mode = 0 then v / x
  else if mode = 1 then (c.mBk : Rat) / 1000 / (1 - v)
  else 1 / (1 - v)

/-- The effort of a mode for a conversion ratio (R97), limited by the set's clamps; a ratio that no effort of the mode
reaches takes the lower clamp. -/
def effortFor (c : LoopCfg) (mode : Nat) (s : CoefSet) (x : Rat) (vin : Int) (r : Rat) : Int :=
  let u : Rat :=
    if mode = 0 then r * x
    else if r ≤ 0 then -1
    else if mode = 1 then 1 - (c.mBk : Rat) / 1000 / r
    else 1 - 1 / r
  clampU c mode s (satQ31 (roundRat (u * 2147483648))) vin

/-- The conversion ratio a duty of the switching leg stands for (R95). -/
def ratioD (c : LoopCfg) (mode d : Nat) : Rat :=
  let v : Rat := (d : Rat) / 65536
  if mode = 0 then v else if mode = 1 then (c.mBk : Rat) / 1000 / (1 - v) else 1 / (1 - v)

/-- The effort equivalent of a duty of the switching leg that stands in `mode`, in the units of the mode in force (R97, R115). -/
def effortOf (c : Ctrl) (mode d : Nat) (vin : Int) : Int :=
  if mode = c.mode then toEffort c.cfg mode d vin
  else effortFor c.cfg c.mode (setIn c c.mode) (vinLim c.cfg vin / (c.cfg.vffNomMv : Rat)) vin (ratioD c.cfg mode d)

/-! ### Cadence (R91, R102) -/

/-- The loop aperture of the converter's period `n` (R109, R112) in fifths of a step of 78.125 ps since the station epoch:
SPEC_LEAD_NS before the boundary that ends the period, half a period with speculation off. 1 ns is 64 such units. -/
def aperture (d : Decl) (c : Ctrl) (n : Nat) : Nat :=
  let per := 80 * periodCyc d.fswKhz
  5 * c.origin + (n + 1) * per - (if c.cfg.specEn && !c.specOff then 64 * c.cfg.specLeadNs else per / 2)

/-- A STORE_SHUNT sample is new in period `n` (R91): a point of the 5 us grid, 320 000 units, which the station epoch starts,
lies after the previous executing period's loop aperture and at or before this one's. Period 0 has no previous aperture: its
sample is new (DESIGN CHOICE, log entry 102). -/
def newStoreSample (d : Decl) (c : Ctrl) (n : Nat) : Bool :=
  n < c.div || aperture d c n / 320000 ≠ aperture d c (n - c.div) / 320000

/-- Which loops execute in the converter's period (R91, R102). -/
def execNow (k : Nat) (d : Decl) (c : Ctrl) : List Bool :=
  let on := c.div = 1 || c.period % 2 = 0
  (List.range 4).map fun j =>
    on && bit c.cfg.loopEn j &&
      (if 48 ≤ k ∧ k < 54 then (j ≠ 1 || (!c.frozen && newStoreSample d c c.period))
       else (j = 0 || j = 3 || c.period / c.div % 2 = 0))

/-- The next resolution is the following period's. -/
def ahead (c : Ctrl) : Bool := c.loaded || c.resolved

/-- The loops that execute in the period of the next resolution. -/
def execNext (k : Nat) (d : Decl) (c : Ctrl) : List Bool :=
  execNow k d (if ahead c then { c with period := c.period + 1 } else c)

/-- A held period: no loop executes (R102, R113). -/
def heldPeriod (ex : List Bool) : Bool := !ex.any id

/-! ### Estimates (R90) -/

/-- The samples of R88 from what the command carries: for PCp and AC, output-side and source-side current from I_L at the
duty and in the mode applied in the current period. A sinking port's phase sum is negative (R66) and is taken as a magnitude. -/
def estimate (k : Nat) (rev : Bool) (c : Ctrl) (y : List Int) : List Int :=
  if 48 ≤ k ∧ k < 54 then y
  else
    let il (j : Nat) : Int := if rev then -(y.getD j 0) else y.getD j 0
    let d : Int := c.dutyEff
    let out := if c.modeApplied = 0 then il 1 else roundDivI ((65536 - d) * il 1) 65536
    let src := if c.modeApplied = 0 then roundDivI (d * il 2) 65536
      else if c.modeApplied = 1 then roundDivI ((c.cfg.mBk : Int) * il 2) 1000 else il 2
    [y.getD 0 0, out, src, y.getD 3 0, y.getD 4 0]

/-! ### The reference generator (R103) -/

/-- One advance of the V reference: the slew in 0.1 V/ms times the period, rounded down to 1/65536 mV. -/
def slewStep (d : Decl) (slew : Nat) : Int :=
  -- 0.1 V/ms is 1/10000 mV per ns; the period is 1.25 ns times its PWMCLK cycles
  (slew * periodCyc d.fswKhz * 125 * 65536 / (100 * 10000) : Nat)

/-- The V loop's reference one period further, and whether that ends a soft start (R103, R104). -/
def advanceRef (d : Decl) (c : Ctrl) : LoopSt × Bool :=
  let l := tget c.loops {} 0
  match l.target with
  | none => (l, c.softStart)
  | some t =>
    let st := slewStep d (if c.softStart then c.cfg.ssSlew else if c.srcPort then min c.cfg.vslew 300 else c.cfg.vslew)
    if l.ref < t then
      (if t - l.ref ≤ st then ({ l with ref := t, target := none }, c.softStart)
       else ({ l with ref := l.ref + st }, false))
    else (if l.ref - t ≤ st then ({ l with ref := t, target := none }, c.softStart)
       else ({ l with ref := l.ref - st }, false))

/-- The references the next resolution uses: past the boundary's advance where it is the following period's (R105). -/
def refsFor (d : Decl) (c : Ctrl) : List Int :=
  let v := if ahead c then (advanceRef d c).1.ref else (tget c.loops {} 0).ref
  v :: [1, 2, 3].map fun j => (tget c.loops {} j).ref

/-! ### Speculation (R109 to R111) -/

/-- The speculation of a period from the committed state: predicted samples (R110), errors, selection and duty. -/
def speculate (k : Nat) (rev : Bool) (d : Decl) (c : Ctrl) (early : List (Option Int)) : SpecBank :=
  let ex := execNext k d c
  let actual := estimate k rev c (early.map fun v => v.getD 0)
  let refs := refsFor d c
  let pred (h : List Int) : Int := if c.cfg.predict then 2 * h.getD 0 0 - h.getD 1 0 else h.getD 0 0
  let y := (List.range 4).map fun j =>
    match early.getD j none with
    | some _ => actual.getD j 0
    | none => pred (tget c.loops {} j).y
  let vin := match early.getD 4 none with
    | some v => v
    | none => pred c.vinHist
  let e := (List.range 4).map fun j => errorOf j (refs.getD j 0) (y.getD j 0)
  let s := setIn c c.mode
  let us := (List.range 4).map fun j =>
    if ex.getD j false then dfi s j (tget c.loops {} j) (e.getD j 0) else (tget c.loops {} j).held
  let sel := selectLoop c.cfg.loopEn us
  let u := us.getD sel 0
  { ready := true, exec := ex, e := e, refs := refs, vin := vin, sel := sel, clamp := clampState c.cfg c.mode s u vin,
    duty := toDuty c.cfg c.mode (clampU c.cfg c.mode s u vin) vin }

/-- Speculation is on for a converter (R107, R122). -/
def specOn (c : Ctrl) : Bool := c.cfg.specEn && !c.specOff

/-- The loop aperture of the converter's next resolution. -/
def nextAperture (d : Decl) (c : Ctrl) : Nat := aperture d c (if ahead c then c.period + 1 else c.period)

/-- A speculation is ready to run (R111): the previous period's committed state exists, at the shadow load after a commit and at
the end of the recovery after a squash. -/
def specReady (k : Nat) (cv : Conv) : Bool :=
  let c := cv.ctrl
  cv.run && specOn c && c.recovery.isEmpty && !c.bank.ready && !(c.resolved && c.committed && !c.loaded)
    && !heldPeriod (execNext k cv.decl c)

/-- How many of the speculations that are ready go before converter `k`'s, by sample arrival, then by index. -/
def specBefore (m : Mach) (k : Nat) : Nat :=
  let t (j : Nat) : Nat := nextAperture (getCv m j).decl (getCv m j).ctrl
  ((List.range 55).filter fun j =>
    j ≠ k && specReady j (getCv m j) && (t j < t k || (t j = t k && j < k))).length

/-- SPECULATION (R111): it starts only once the previous period's committed state exists, and the four scheduled lanes take the
speculations whose samples arrive first. -/
def execSpeculation (conv : Nat) (early : List (Option Int)) (s : State) : Host.Outcome State Fault Refusal :=
  guardUnit (conv < 55) s fun m =>
    when (specReady conv (getCv m conv) && specBefore m conv < 4 && m.dev.ceclk) m fun m =>
      let cv := getCv m conv
      modCtrl m conv fun c => { c with bank := speculate conv cv.reverse cv.decl c early }

/-! ### Histories (R94, R110) -/

/-- The histories advance: executing loops take their actual error, sample and the applied effort; their own outputs are
held for the periods in which they do not execute. -/
def advanceHist (c : Ctrl) (ex : List Bool) (e us y : List Int) (vin uApp : Int) : Ctrl :=
  let loops := tmap c.loops fun j l =>
    if ex.getD j false then
      { l with e := (e.getD j 0 :: l.e).take 4, u := (uApp :: l.u).take 3, held := us.getD j 0
               y := (y.getD j 0 :: l.y).take 2 }
    else l
  { c with loops := loops, vinHist := (vin :: c.vinHist).take 2 }

/-- The selected loop counted (R120). -/
def countSel (c : Ctrl) (sel : Nat) : Ctrl :=
  if sel = c.sel then c else { c with sel := sel, selChanges := wrap32 (c.selChanges + 1) }

/-- The mode that R96 leads to from the actual samples, if any. -/
def modeWanted (d : Decl) (c : Ctrl) (vout vin : Int) : Nat :=
  let est := vout * 1000
  let ge (b : Nat) : Bool := (b : Int) * vin ≤ est
  let le_ (b : Nat) : Bool := est ≤ (b : Int) * vin
  if d.topo ≠ 1 then c.mode
  else if c.mode = 0 then (if ge c.cfg.mBk then 1 else 0)
  else if c.mode = 1 then
    (if ge c.cfg.mBst then 2 else if le_ (c.cfg.mBk - c.cfg.modeHyst) then 0 else 1)
  else (if le_ (c.cfg.mBst - c.cfg.modeHyst) then 1 else 2)

/-- The count of R96: resolved periods in a row whose samples lead to one other mode. -/
def countMode (d : Decl) (c : Ctrl) (vout vin : Int) : Ctrl :=
  let w := modeWanted d c vout vin
  if w = c.mode then { c with modeDwell := 0, modeNext := c.mode }
  else if w = c.modeNext then { c with modeDwell := c.modeDwell + 1 }
  else { c with modeDwell := 1, modeNext := w }

/-- The accepted options and the pending map govern from the next speculation on: at a resolution, or after a pending recovery
(R101, R108). The eighth Snowplough leaves the map to its fence (R121, R125). -/
def settleCfg (c : Ctrl) : Ctrl :=
  let c := { c with cfg := c.cfgPend.getD c.cfg, cfgPend := none }
  if c.starvedDue then c else { c with map := c.pendMap.getD c.map, pendMap := none }

/-- What latches at every resolution (R101, R105, R108): reference targets, and with no recovery pending options and map. -/
def latch (c : Ctrl) : Ctrl :=
  let loops := tmap c.loops fun j l =>
    if j = 0 then (match l.want with
      | some t => { l with target := some t, want := none }
      | none => l)
    else match l.target with
      | some t => { l with ref := t, target := none }
      | none => l
  let c := { c with loops := loops, frozen := false }
  if c.recovery.isEmpty then settleCfg c else c

/-- RATE_CHANGE (R102): the histories take the latest error and effort, and the new divider governs. The rule names the histories
alone: held outputs stay (DESIGN CHOICE, log entry 102). -/
def rateChange (d : Decl) (c : Ctrl) : Ctrl :=
  match c.rateReq, c.recovery with
  | some v, [] =>
    if v = 2 && !((modesOf d).all fun j => c.map.getD (3 + j) 0xFF ≠ 0xFF) then { c with rateReq := none }
    else
      { c with
        rateReq := none, div := v
        -- V executes in every executing period, so its newest output is the latest applied effort
        loops := tmap c.loops fun _ l =>
          { l with e := List.replicate 4 (l.e.getD 0 0)
                   u := List.replicate 3 ((tget c.loops {} 0).u.getD 0 0) } }
  | _, _ => c

/-- MAP_LATCH (R101): a waiting CNV_SET_MAP is answered once its map has taken effect. -/
def answerMap (m : Mach) (k : Nat) : Mach :=
  match (ctrlOf m k).mapSlot with
  | none => m
  | some s =>
    let m := modCtrl m k fun c => { c with mapSlot := none }
    if (getSlot m s).st = .executing && (getSlot m s).deferred then answer m s .ok [] 0 else m

/-- Residuals beyond their tolerances (R114). -/
def tolOf (c : LoopCfg) (j : Nat) : Nat :=
  if j = 0 then c.tolV else if j = 1 then c.tolIout else if j = 2 then c.tolIsrc else c.tolFold

/-- COMMIT (R114): the speculated duty, corrected at the speculation's own K_FF. -/
def commit (c : Ctrl) (b : SpecBank) (e us y : List Int) (vin : Int) (sel : Nat) : Ctrl :=
  let s := setIn c c.mode
  let u := us.getD sel 0
  let duty := if b.clamp ≠ 0 then b.duty else toDuty c.cfg c.mode u b.vin
  let c := advanceHist c b.exec e us y vin (clampU c.cfg c.mode s u vin)
  countSel { c with dutyNext := duty, dutyMode := c.mode, commits := wrap32 (c.commits + 1), snowRun := 0, bank := {}
                    committed := true } sel

/-- SQUASH (R114): the bank is discarded, the cause counted, the cap set and the recovery queued. -/
def squash (c : Ctrl) (why : Nat) (ex : List Bool) (e us y : List Int) (vin : Int) : Ctrl :=
  let lims := ([1, 2, 3].filter fun j => ex.getD j false).map fun j => toDuty c.cfg c.mode (us.getD j 0) vin
  { c with
    bank := {}, committed := false
    squashes := wrap32 (c.squashes + 1)
    sqLate := if why = 1 then wrap32 (c.sqLate + 1) else c.sqLate
    sqResidual := if why = 2 then wrap32 (c.sqResidual + 1) else c.sqResidual
    sqSelect := if why = 3 then wrap32 (c.sqSelect + 1) else c.sqSelect
    sqClamp := if why = 4 then wrap32 (c.sqClamp + 1) else c.sqClamp
    cap := if why = 1 then 65535 else lims.foldl min 65535
    recovery := c.recovery ++ [{ why := why, e := e, y := y, vin := vin, exec := ex }] }

/-- A Snowplough counted (R114, R120): the eighth in a row starves the converter (R121). -/
def snowed (c c1 : Ctrl) : Ctrl :=
  let run := c.snowRun + 1
  { c1 with snowploughs := wrap32 (c.snowploughs + 1), snowRun := satTo 65535 run, committed := false, bank := {}
            snowRunMax := satTo 65535 (max c.snowRunMax run), starvedDue := c.starvedDue || run = 8 }

/-- The period resolved on its actual samples (R114); with speculation off, computed from them directly (R112), where no period
ends in a commit and R96 takes each period computed in time for one (DESIGN CHOICE, log entry 102). -/
def resolveCtrl (k : Nat) (rev : Bool) (d : Decl) (c : Ctrl) (raw : List Int) : Ctrl :=
  let ex := if c.bank.ready then c.bank.exec else execNow k d c
  if heldPeriod ex then c
  else
    let y := estimate k rev c raw
    let vin := y.getD 4 0
    let refs := if c.bank.ready then c.bank.refs else refsFor d { c with loaded := false, resolved := false }
    let e := (List.range 4).map fun j => errorOf j (refs.getD j 0) (y.getD j 0)
    let s := setIn c c.mode
    let us := (List.range 4).map fun j =>
      if ex.getD j false then dfi s j (tget c.loops {} j) (e.getD j 0) else (tget c.loops {} j).held
    let sel := selectLoop c.cfg.loopEn us
    let u := us.getD sel 0
    let c1 :=
      if !specOn c then
        if c.loaded then
          -- the computation has missed the shadow load: the applied duty stands (R112, R115)
          countSel (snowed c (advanceHist c ex e us y vin (effortOf c c.modeApplied c.dutyApplied vin))) sel
        else
          let uApp := clampU c.cfg c.mode s u vin
          countSel { advanceHist c ex e us y vin uApp with
            dutyNext := toDuty c.cfg c.mode uApp vin, dutyMode := c.mode, snowRun := 0, committed := true, bank := {} } sel
      else
        let b := c.bank
        let why :=
          if !b.ready then 1
          else if (c.cfg.tolVinMv : Int) * 65536 < (vin - b.vin).natAbs then 2
          else if (List.range 4).any fun j =>
              ex.getD j false && decide ((tolOf c.cfg j : Int) < (e.getD j 0 - b.e.getD j 0).natAbs) then 2
          else if sel ≠ b.sel then 3
          else if clampState c.cfg c.mode s u vin ≠ b.clamp then 4
          else 0
        if why = 0 then commit c b e us y vin sel else squash c why ex e us y vin
    rateChange d (latch { (if c1.committed then countMode d c1 (y.getD 0 0) vin else c1) with resolved := true })

/-- The waiting CNV_SET_MAP of a converter whose map has taken effect in `f` is answered. -/
def withMap (m : Mach) (k : Nat) (f : Mach → Mach) : Mach :=
  let had := (ctrlOf m k).pendMap.isSome
  let m := f m
  if had && (ctrlOf m k).pendMap.isNone then answerMap m k else m

/-- RESOLVE (R114): when the last predicted sample is in CECLK; thresholds of R132 that wait are applied. -/
def resolve (m : Mach) (k : Nat) (y : List Int) : Mach :=
  withMap m k fun m => modCv m k fun cv =>
    { cv with ctrl := resolveCtrl k cv.reverse cv.decl cv.ctrl y, prot := protSettle cv.prot }

/-- A period held by pulse skipping (R367): its V error is not positive. -/
def skipHeld (m : Mach) (k : Nat) (y : List Int) : Bool :=
  (getCv m k).prot.pulseSkip && errorOf 0 (tget (ctrlOf m k).loops {} 0).ref (y.getD 0 0) ≤ 0

/-- An input with a start path keeps its SYS target 500 mV above its source while it runs (R169). -/
def startPathHold (m : Mach) (k : Nat) : Mach :=
  let x := getInp m (k - 48)
  if 48 ≤ k && k < 54 && x.startPath && x.effRank ≤ 5 then
    setRef m k 0 (max (ladderV m x.effRank) (vinOf m (k - 48) + 500))
  else m

/-- A period is resolved once (R113), and with speculation on before its shadow load, which the lead leaves time for (R112). -/
def execResolve (conv : Nat) (y : List Int) (s : State) : Host.Outcome State Fault Refusal :=
  guardUnit (conv < 55) s fun m =>
    when ((getCv m conv).run && m.dev.ceclk && !(ctrlOf m conv).resolved
        && !(specOn (ctrlOf m conv) && (ctrlOf m conv).loaded)) m fun m =>
      if skipHeld m conv y then modCtrl m conv fun c => { c with bank := {}, resolved := true, idlePer := true }
      else startPathHold (resolve (modCtrl m conv fun c => { c with idlePer := false }) conv y) conv

/-- The Snowplough duty and its mode (R115): the applied duty, lowered to the cap where that lies below it. After a mode change
the two stand in different modes, and their conversion ratios are compared. -/
def snowDuty (c : Ctrl) : Nat × Nat :=
  if c.modeApplied = c.mode then (min c.dutyApplied c.cap, c.mode)
  else if c.cap < 65535 && ratioD c.cfg c.mode c.cap < ratioD c.cfg c.modeApplied c.dutyApplied then (c.cap, c.mode)
  else (c.dutyApplied, c.modeApplied)

/-- SHADOW_LOAD (R65, R114, R115): the next duty loads; a squash without its recovery loads the Snowplough duty. -/
def shadowLoad (c : Ctrl) : Ctrl :=
  if c.recovery.isEmpty then { c with loaded := true }
  else
    let d := snowDuty c
    { c with loaded := true, dutyNext := d.1, dutyMode := d.2
             recovery := c.recovery.map fun r => if r.snow.isNone then { r with snow := some d.1, snowMode := d.2 } else r }

/-- With speculation on, an executing period has been resolved when its shadow-load point comes (R112, R113). -/
def execShadowLoad (conv : Nat) (s : State) : Host.Outcome State Fault Refusal :=
  guardUnit (conv < 55) s fun m =>
    let c := ctrlOf m conv
    when ((getCv m conv).run && !c.loaded && m.dev.pwmclk
        && (!specOn c || c.resolved || heldPeriod (execNow conv (getCv m conv).decl c))) m
      fun m => modCtrl m conv shadowLoad

/-- RECOVERY (R114, R116, R117): the oldest queued recovery runs on the committed state. In time it gives the duty;
after the shadow load the histories take the Snowplough's effort, and the eighth in a row starves the converter. -/
def recover (d : Decl) (c : Ctrl) : Ctrl :=
  match c.recovery with
  | [] => c
  | r :: t =>
    let s := setIn c c.mode
    let us := (List.range 4).map fun j =>
      if r.exec.getD j false then dfi s j (tget c.loops {} j) (r.e.getD j 0) else (tget c.loops {} j).held
    let sel := selectLoop c.cfg.loopEn us
    let u := us.getD sel 0
    let c1 :=
      match r.snow with
      | none =>
        let uApp := clampU c.cfg c.mode s u r.vin
        { advanceHist c r.exec r.e us r.y r.vin uApp with
          dutyNext := toDuty c.cfg c.mode uApp r.vin, dutyMode := c.mode, snowRun := 0, recovery := t }
      | some sd =>
        let uApp := effortOf c r.snowMode sd r.vin
        { snowed c (advanceHist c r.exec r.e us r.y r.vin uApp) with recovery := t, bank := c.bank }
    let c1 := countSel c1 sel
    if t.isEmpty then rateChange d (settleCfg c1) else c1

/-- The recovery lane's occupancy (R118, R123): (8n + 6) cycles for n executing loops, over the last millisecond. A
window above 900 per mille of its 400 000 cycles sets REC_SAT. -/
def logRecovery (m : Mach) (n : Nat) : Mach :=
  let log := (m.eng.recLog.filter fun x => m.dev.now < x.1 + ms 1) ++ [(m.dev.now, 8 * n + 6)]
  let m := { m with eng := { m.eng with recLog := log } }
  if 360000 < (log.map (·.2)).sum then
    setLive (note { m with eng := { m.eng with recSat := true } } blkEng .recSat 1) blkEng .recSat 1 true
  else m

/-- A queued recovery runs in the recovery lane. -/
def recovery (m : Mach) (k : Nat) : Mach :=
  let c := ctrlOf m k
  match c.recovery with
  | [] => m
  | r :: _ =>
    let d := (getCv m k).decl
    logRecovery (withMap m k fun m => modCtrl m k (recover d)) (r.exec.filter id).length

/-- A recovery can still meet its deadline (R112): its period's shadow load has not passed, and the lead leaves room for
207.5 ns, (8n + 6) CECLK cycles of 2.5 ns and 40 ns. -/
def inTime (c : Ctrl) (r : Pend) : Bool :=
  r.snow.isNone && 415 + 5 * (8 * (r.exec.filter id).length + 6) + 80 ≤ 2 * c.cfg.specLeadNs

/-- The place of a converter's oldest recovery in the queue (R117): those in time first, by deadline, the period's end; the others
by their converter's next loop aperture. -/
def recKey (cv : Conv) (r : Pend) : Nat × Nat :=
  if inTime cv.ctrl r then (0, 5 * cv.ctrl.origin + (cv.ctrl.period + 1) * 80 * periodCyc cv.decl.fswKhz)
  else (1, nextAperture cv.decl cv.ctrl)

/-- Converter `k` holds the head of the recovery queue (R117); equal places go by index. -/
def recHead (m : Mach) (k : Nat) : Bool :=
  let key (j : Nat) : Option (Nat × Nat) :=
    if (getCv m j).run then ((ctrlOf m j).recovery.head?).map (recKey (getCv m j)) else none
  match key k with
  | none => false
  | some a => (List.range 55).all fun j => match key j with
    | none => true
    | some b => j = k || a.1 < b.1 || (a.1 = b.1 && (a.2 < b.2 || (a.2 = b.2 && k < j)))

/-- A recovery ends (R117): the head of the queue; one that cannot be in time ends after the shadow load. -/
def execRecovery (conv : Nat) (s : State) : Host.Outcome State Fault Refusal :=
  guardUnit (conv < 55) s fun m =>
    when ((getCv m conv).run && m.dev.ceclk && recHead m conv
        && ((ctrlOf m conv).recovery.any fun r => r.snow.isSome || inTime (ctrlOf m conv) r)) m fun m => recovery m conv

/-! ### Period boundary (R62 to R65, R103) -/

/-- PULSE_SKIP (R64): a pulse or an off-interval above 0 and under 30 ns (384 steps) is skipped or merged. -/
def skips (d : Decl) (duty : Nat) : Bool :=
  let on := onSteps d duty
  let off := 16 * periodCyc d.fswKhz - on
  (0 < on && on < 384) || (0 < off && off < 384)

/-- The duty as the legs run it (R64): a pulse of under 30 ns is skipped and leaves the leg off, an off-interval of under 30 ns is
merged into the on-time. -/
def effDuty (d : Decl) (duty : Nat) : Nat :=
  if !skips d duty then duty else if onSteps d duty < 384 then 0 else 65536

/-- The edges loaded take effect, at the interleave of the phases in service (R18), skipped pulses are counted, the reference
advances and ends soft start, the period count goes on, and VBD sinks in a falling transition while VCS lies more than 500 mV above
the reference (R274). -/
def boundary (m : Mach) (k : Nat) : Mach :=
  let d := (getCv m k).decl
  let trans := k < 48 && (getPd m k).pe = .transition
  modCv m k fun cv =>
    let c := cv.ctrl
    let (l, ended) := advanceRef d c
    let applied := if c.loaded then c.dutyNext else c.dutyApplied
    let susp := m.eng.suspended
    let sk := skips d applied
    { cv with
      skipPeriods := if sk then wrap32 (cv.skipPeriods + 1) else cv.skipPeriods
      vbd := if c.srcPort then trans && l.ref + fx 500 < l.y.headD 0 else cv.vbd
      ph := tmap cv.ph fun _ y =>
        { y with tripped := false, fencedPer := none, skips := if sk && y.st = .inService then wrap32 (y.skips + 1) else y.skips }
      prot := if ended then { cv.prot with stableAt := after m (sec 1) } else cv.prot
      inter := interleave k cv
      ctrl := { c with dutyApplied := applied, dutyEff := effDuty d applied, loaded := false, resolved := false
                       modeApplied := if c.loaded then c.dutyMode else c.modeApplied
                       specOff := susp, period := c.period + 1
                       loops := tupd c.loops 0 fun _ => l
                       softStart := c.softStart && l.target.isSome } }

/-- A boundary; where it ends the soft start of an attached sourcing port, VBUS stands in vSafe5V: Rp and DCP follow
(R236, R237), and the first Source_Capabilities in tFirstSourceCap, 20 ms (R268, R281). -/
def periodBoundary (m : Mach) (k : Nat) : Mach :=
  let soft := (getCv m k).ctrl.softStart
  let m := boundary m k
  if soft && !(getCv m k).ctrl.softStart && k < 48 && (getPort m k).tc = .attachedSrc then
    let m := modPd m k fun x => if x.pe = .startup then { x with capsAt := after m (ms 20) } else x
    typeCSettle m k
  else m

def execPeriodBoundary (conv : Nat) (s : State) : Host.Outcome State Fault Refusal :=
  guardUnit (conv < 55) s fun m =>
    when ((getCv m conv).run && m.dev.pwmclk) m fun m => periodBoundary m conv

/-! ### Modes (R96, R97) -/

/-- MODE_CHANGE (R96, R97): after four resolved periods, in one that committed and before the next speculation. -/
def modeChange (c : Ctrl) : Ctrl :=
  let vin := c.vinHist.getD 0 0
  let x := vinLim c.cfg vin / (c.cfg.vffNomMv : Rat)
  let s := setIn c c.modeNext
  let tr (u : Int) : Int := effortFor c.cfg c.modeNext s x vin (ratioOf c.cfg c.mode x u)
  let loops := tmap c.loops fun _ l => { l with u := l.u.map tr, held := tr l.held }
  { c with mode := c.modeNext, modeDwell := 0, loops := loops, bank := {} }

def execModeChange (conv : Nat) (s : State) : Host.Outcome State Fault Refusal :=
  guardUnit (conv < 55) s fun m =>
    let c := ctrlOf m conv
    when ((getCv m conv).run && c.resolved && c.committed && !c.bank.ready && 4 ≤ c.modeDwell && c.modeNext ≠ c.mode) m
      fun m => modCtrl m conv modeChange

/-! ### Escalation (R121, R122) -/

/-- CTRL_STARVED (R121): the eighth Snowplough in a row fences the converter. -/
def ctrlStarved (m : Mach) (k : Nat) : Mach :=
  let m := modCtrl m k fun c => { c with starvedDue := false }
  let m := fault m k .ctrlStarved 5
  { m with eng := { m.eng with starvedTimes := (m.eng.starvedTimes.filter fun t => m.dev.now < t + ms 100) ++ [m.dev.now] } }

def execCtrlStarved (conv : Nat) (s : State) : Host.Outcome State Fault Refusal :=
  guardUnit (conv < 55) s fun m => when (ctrlOf m conv).starvedDue m fun m => ctrlStarved m conv

/-- SPEC_SUSPEND (R122): four fences within 100 ms. -/
def execSpecSuspend (s : State) : Host.Outcome State Fault Refusal :=
  next s <| when (!s.m.eng.suspended
      && 4 ≤ (s.m.eng.starvedTimes.filter fun t => s.m.dev.now < t + ms 100).length) s.m fun m =>
    let m := note m blkEng .specSuspended 6
    setLive { m with eng := { m.eng with suspended := true } } blkEng .specSuspended 6 true

def cmdCnvSpecResume (m : Mach) (_ : Nat) (_ : List Byte) : Ans :=
  refuseFirst [(!m.eng.suspended, .notInState)] <|
    .ok (setLive { m with eng := { m.eng with suspended := false, starvedTimes := [] } } blkEng .specSuspended 6 false) []

def execCnvSpecResume (slot : Nat) (s : State) := command 0x110A slot cmdCnvSpecResume s

/-! ### Commands -/

/-- The set a payload gives (R98). -/
def setOf (p : List Byte) : CoefSet :=
  { coef := (List.range 28).map fun j => toSigned 4 (pU p (4 * j) 4), dmin := pU p 112 2, dmax := pU p 114 2,
    mode := pU p 116 1, rate := pU p 117 1 }

def setOk (s : CoefSet) : Bool :=
  (s.coef.all fun c => withinI c (-8388608) 8388607) && s.dmin < s.dmax && s.mode ≤ 2 && s.rate ≤ 1

/-- CNV_COEF_WRITE (R99). -/
def cmdCnvCoefWrite (m : Mach) (_ : Nat) (p : List Byte) : Ans :=
  let k := pU p 0 1
  let n := pU p 1 1
  let st := setOf (p.drop 4)
  let c := ctrlOf m k
  refuseFirst
    [(54 < k || 7 < n || !setOk st, .outOfRange),
     (c.map.contains n || (c.pendMap.getD []).contains n, .notInState)] <|
    .ok (modCtrl m k fun c => { c with sets := tupd c.sets n fun _ => st }) []

def execCnvCoefWrite (slot : Nat) (s : State) := command 0x1106 slot cmdCnvCoefWrite s

/-- The map's rules (R100): the full-rate entry of every mode the converter can enter; each named set's MODE and RATE. -/
def mapOk (d : Decl) (c : Ctrl) (mp : List Nat) : Bool :=
  ((modesOf d).all fun j => mp.getD j 0xFF ≠ 0xFF) &&
    ((List.range 6).all fun j =>
      let n := mp.getD j 0xFF
      n = 0xFF || (n < 8 && (tget c.sets {} n).mode = j % 3 && (tget c.sets {} n).rate = j / 3))

/-- CNV_SET_MAP (R100, R101). -/
def cmdCnvSetMap (m : Mach) (s : Nat) (p : List Byte) : Ans :=
  let k := pU p 0 1
  let mp := (List.range 6).map fun j => pU p (1 + j) 1
  refuseFirst [(54 < k || !mapOk (getCv m k).decl (ctrlOf m k) mp, .outOfRange), (cnvFenced m k, .fenced)] <|
    if (getCv m k).run then .wait (modCtrl m k fun c => { c with pendMap := some mp, mapSlot := some s })
    else .ok (modCtrl m k fun c => { c with map := mp }) []

def execCnvSetMap (slot : Nat) (s : State) := command 0x1107 slot cmdCnvSetMap s

/-- AC's IOUT reference (R204, R205): ILIM_MA, or what CNV_REF_SET put in its place, while the grant is smaller the grant divided by
VOUT_MV. That an override takes the place of ILIM_MA here is a DESIGN CHOICE (log entry 104). -/
def auxIout (m : Mach) : Nat :=
  let a := m.aux
  min (a.iOver.getD a.ilimMa) ((getHold m 48).grant * 1000 / max 1 a.voutMv)

/-- CNV_REF_SET (R106): the references of AC alone; any other CONV is refused with NOT_IN_STATE (R541). -/
def cmdCnvRefSet (m : Mach) (_ : Nat) (p : List Byte) : Ans :=
  let k := pU p 0 1
  let j := pU p 1 1
  let v := pU p 4 4
  refuseFirst
    [(3 < j || !(if j = 0 || j = 3 then within v 5000 60000 else v ≤ 262143), .outOfRange),
     (k ≠ 54, .notInState)] <|
    let m := { m with aux := { m.aux with
      foldOver := m.aux.foldOver || j = 3, iOver := if j = 1 then some v else m.aux.iOver } }
    .ok (setRef m 54 j (if j = 1 then auxIout m else v)) []

def execCnvRefSet (slot : Nat) (s : State) := command 0x1108 slot cmdCnvRefSet s

/-- The loop configuration a payload gives (R107). -/
def loopCfgOf (p : List Byte) : LoopCfg :=
  { loopEn := pU p 1 1, specEn := bit (pU p 2 1) 0, predict := bit (pU p 2 1) 1
    updateDiv := if bit (pU p 2 1) 2 then 2 else 1, specLeadNs := pU p 4 2, vffNomMv := pU p 6 2, mBk := pU p 8 2
    mBst := pU p 10 2, modeHyst := pU p 12 2, tolV := pU p 14 2, tolIout := pU p 16 2, tolIsrc := pU p 18 2
    tolFold := pU p 20 2, tolVinMv := pU p 22 2, vslew := pU p 24 2, ssSlew := pU p 26 2 }

def loopCfgOk (d : Decl) (p : List Byte) : Bool :=
  let c := loopCfgOf p
  c.loopEn < 16 && bit c.loopEn 0 && pU p 2 1 < 8 && within c.specLeadNs 250 600 && c.specLeadNs % 10 = 0
    && (d.topo = 0 || 2 * c.specLeadNs * d.fswKhz ≤ 1000000) && within c.vffNomMv 5000 60000 && within c.mBk 500 950
    && within c.mBst 1050 2000 && within c.modeHyst 5 100 && within c.tolV 1 2047 && within c.tolIout 1 2047
    && within c.tolIsrc 1 2047 && within c.tolFold 1 2047 && within c.tolVinMv 20 5000 && within c.vslew 1 500
    && within c.ssSlew 1 500

/-- CNV_LOOP_CFG (R107, R108): a running converter takes the options of R108 at its next resolution. -/
def cmdCnvLoopCfg (m : Mach) (_ : Nat) (p : List Byte) : Ans :=
  let k := pU p 0 1
  let d := (getCv m k).decl
  let f := loopCfgOf p
  let o := (ctrlOf m k).cfg
  let fixedSame := f.loopEn = o.loopEn && f.updateDiv = o.updateDiv && f.vffNomMv = o.vffNomMv && f.mBk = o.mBk
    && f.mBst = o.mBst && f.modeHyst = o.modeHyst
  let trial := modCtrl m k fun c => { c with cfg := f }
  refuseFirst
    [(54 < k || !loopCfgOk d p || engOver trial, .outOfRange),
     ((getCv m k).run && !fixedSame, .notInState)] <|
    .ok (if (getCv m k).run then modCtrl m k fun c => { c with cfgPend := some f }
      else modCv m k fun c => { c with ctrl := { c.ctrl with cfg := f, cfgPend := none }
                                       prot := { c.prot with thmHalf := c.prot.thmHalf && f.updateDiv = 1 } }) []

def execCnvLoopCfg (slot : Nat) (s : State) := command 0x1105 slot cmdCnvLoopCfg s

/-- CNV_SPEC_STATS_GET (R124). -/
def cmdCnvSpecStatsGet (m : Mach) (_ : Nat) (p : List Byte) : Ans :=
  let k := pU p 0 1
  refuseFirst [(54 < k || 1 < pU p 1 1, .outOfRange)] <|
    let c := ctrlOf m k
    let out := le 4 c.commits ++ le 4 c.squashes ++ le 4 c.snowploughs ++ le 2 c.snowRun ++ le 2 c.snowRunMax
      ++ le 4 c.sqLate ++ le 4 c.sqResidual ++ le 4 c.sqSelect ++ le 4 c.sqClamp ++ le 4 c.selChanges
      ++ [BitVec.ofNat 8 c.sel, BitVec.ofNat 8 c.mode] ++ le 2 c.dutyApplied
    .ok (if pU p 1 1 = 1 then modCtrl m k fun c =>
        { c with commits := 0, squashes := 0, snowploughs := 0, snowRun := 0, snowRunMax := 0, sqLate := 0
                 sqResidual := 0, sqSelect := 0, sqClamp := 0, selChanges := 0 } else m) out

def execCnvSpecStatsGet (slot : Nat) (s : State) := command 0x1109 slot cmdCnvSpecStatsGet s

/-! ### CNV_ENGINE_STAT (R123) -/

/-- REC_PERMILLE: the recovery lane's cycles of the last millisecond in per mille of 400 000. -/
def recPermille (m : Mach) : Nat :=
  (((m.eng.recLog.filter fun x => m.dev.now < x.1 + ms 1).map (·.2)).sum) / 400

def engineStatWord (m : Mach) : Nat :=
  satTo 1023 (engPermille m) * 2 ^ 22 + satTo 1023 (recPermille m) * 2 ^ 12
    + ((List.range 55).filter fun k => (getBlk m (cnvBlk k)).fence = some (codeOf .ctrlStarved)).length * 2 ^ 6
    + flag m.eng.suspended 5 + flag m.eng.recSat 4

def engineStatWrite (m : Mach) (w : Nat) : Mach :=
  if bit w 4 then setLive { m with eng := { m.eng with recSat := false } } blkEng .recSat 1 false else m

end Machine
end Sys2Proof
end

