-- ==== Sys2Proof/Machine/Protect.lean ====
section
/-! DEFINITION. Sys2Proof/Machine/Protect.lean: converter protection and degraded running (chapter 5): the pre-bias check
and the start of R104 and R545, shorts and hiccups, over- and undervoltage, lost phases and senses, derating. -/
namespace Sys2Proof
namespace Machine

def modProt (m : Mach) (k : Nat) (f : Prot → Prot) : Mach := modCv m k fun c => { c with prot := f c.prot }
def protOf (m : Mach) (k : Nat) : Prot := (getCv m k).prot

/-! ### References a start takes (R545) -/

/-- A loop's reference set directly: the converter is stopped. -/
def putRef (m : Mach) (k j v : Nat) : Mach :=
  let (m, v) := limHold m k j v
  modCtrl m k fun c => { c with loops := tupd c.loops j fun l => { l with ref := fx v, target := none, want := none } }

/-- The references of a start whose owner has set none (R545); IOUT and ISRC are also bounded by the phases in service
(R140). Inputs take the ladder's, AC those of R204, which end an override of R106, and bays keep those their owners set. -/
def startRefs (m : Mach) (k : Nat) : Mach :=
  let lim := irateTotal m k
  if k < 48 then
    let x := getPd m k
    if isBay m k then m
    else if (getCv m k).reverse then
      let m := putRef m k 0 (ladderV m 6)
      let m := putRef m k 1 lim
      let m := putRef m k 2 (if x.contract then x.ilim else if m.path.bootSink = some k
        then rpMa (getPort m k).partnerRp - 450 else rpMa (getPort m k).partnerRp)
      putRef m k 3 (if x.contract && 5000 < x.vTarget then x.vTarget * 9 / 10 else 4400)
    else
      let m := putRef m k 0 (if x.contract then x.vTarget else 5000)
      let m := putRef m k 1 (portLimit (if x.contract then x.ilim else rpMa (getPort m k).rp))
      let m := putRef m k 2 lim
      putRef m k 3 m.path.sysFold
  else if k < 54 then ladderApply m
  else
    let m := { m with aux := { m.aux with foldOver := false, iOver := none } }
    let a := m.aux
    let m := putRef m k 0 a.voutMv
    let m := putRef m k 1 (auxIout m)
    let m := putRef m k 2 (ceilDiv (a.ilimMa * a.voutMv) m.path.sysMin)
    putRef m k 3 m.path.sysFold

/-! ### Pre-bias (R126 to R128) -/

/-- The input-side voltage of a converter (R95) in mV: SYS, the input, or the port. -/
def vinMvOf (m : Mach) (k vbs : Nat) : Nat :=
  if 48 ≤ k ∧ k < 54 then (getInp m (k - 48)).vinMv
  else if k < 48 && (getCv m k).reverse then vbs else m.path.sysMv

/-- The overvoltage threshold for a value of the reference in 1/65536 mV, in thousandths of that unit (R132). -/
def ovExact (pr : Prot) (v : Int) : Int := 1000 * v + max (v * pr.ovPermille) (65536000 * (pr.ovMinMv : Int))

/-- The threshold in force: that of the higher of reference and target. -/
def ovNow (m : Mach) (k : Nat) : Int :=
  let l := tget (ctrlOf m k).loops {} 0
  ovExact (protOf m k) (max l.ref (l.target.getD l.ref))

/-- The undervoltage threshold: the lower of reference and target, less its share (R132). -/
def uvNow (m : Mach) (k : Nat) : Int :=
  let l := tget (ctrlOf m k).loops {} 0
  min l.ref (l.target.getD l.ref) * (1000 - (protOf m k).uvPermille)

/-- A reading in mV in the unit of the thresholds. -/
def thrUnit (mv : Nat) : Int := 65536000 * (mv : Int)

/-- The thresholds in mV as R145 reports them, rounded down. -/
def ovThrOf (m : Mach) (k : Nat) : Nat := (ovNow m k / 65536000).toNat
def uvThrOf (m : Mach) (k : Nat) : Nat := (uvNow m k / 65536000).toNat

/-- A start refused: the converter stays stopped, not fenced (R127); a sourcing port reopens VBG and discharges. -/
def refuseStart (m : Mach) (k : Nat) : Mach :=
  let m := stopConv m k
  modCv m k fun c => { c with starting := false, vbg := if isPc k && !c.reverse then false else c.vbg }

/-- The first boundary of a converter's period grid at or after now, in steps of 78.125 ps since the station epoch, which the model
puts at time 0 (R76; DESIGN CHOICE, log entry 102): boundaries lie at its phase-0 offset, one period apart. 1 ns is 12.8 steps. -/
def firstBoundary (m : Mach) (k : Nat) : Nat :=
  let per := 16 * periodCyc (getCv m k).decl.fswKhz
  let off := phaseOffset k 0 (max 1 (livePhases (getCv m k)).length) per
  off + ceilDiv (ceilDiv (m.dev.now * 64) 5 - off) per * per

/-- The start of R104: the reference at the pre-bias mean (1/65536 mV), its target after it at SS_SLEW, error histories 0, output
histories at the pre-bias effort of the starting mode, limited by its set's clamps, and no bump. The measurement histories of the
two currents start at 0: the pre-bias measures none (DESIGN CHOICE, log entry 102). -/
def beginRun (m : Mach) (k : Nat) (mean : Int) (vbs : Nat) : Mach :=
  let d := (getCv m k).decl
  let vin := vinMvOf m k vbs
  let origin := firstBoundary m k
  let susp := m.eng.suspended
  modCv m k fun cv =>
    let c := { cv.ctrl with div := cv.ctrl.cfg.updateDiv }
    let est := mean * 1000
    let mode := if d.topo = 2 then 0 else if d.topo = 3 then 2
      else if est < c.cfg.mBk * fx vin then 0 else if est < c.cfg.mBst * fx vin then 1 else 2
    let x := vinLim c.cfg (fx vin) / (c.cfg.vffNomMv : Rat)
    let st := setIn c mode
    let u := if vin = 0 then 0 else effortFor c.cfg mode st x (fx vin) ((mean : Rat) / fx vin)
    -- FOLD measures the input side of every converter (R88)
    let y (j : Nat) : Int := if j = 0 then mean else if j = 3 then fx vin else 0
    let loops := tmap c.loops fun j l =>
      { l with e := [0, 0, 0, 0], u := [u, u, u], held := u, y := [y j, y j]
               ref := if j = 0 then mean else l.ref, target := if j = 0 then some (goal l) else none, want := none }
    let duty := toDuty c.cfg mode u (fx vin)
    { cv with
      run := true, starting := false, parked := false, vbd := false, inter := interleave k cv
      ctrl := { c with mode := mode, modeDwell := 0, modeNext := mode, loops := loops, bank := {}, recovery := []
                       softStart := true, srcPort := isPc k && !cv.reverse, period := 0, origin := origin, specOff := susp
                       dutyApplied := duty, dutyNext := duty, dutyEff := effDuty d duty, modeApplied := mode, dutyMode := mode
                       loaded := false, resolved := false, committed := false, vinHist := [fx vin, fx vin], starvedDue := false
                       rateReq := if cv.prot.thmHalf then some 2 else none }
      prot := { cv.prot with prebiasTries := 0, prebiasAt := none, prebiasMv := (mean / 65536).toNat, uvRun := 0, shortRun := 0
                             stableAt := none } }

/-- The zeros of step 2: a zero out of window fences its phase with IMON_ZERO (R86). -/
def prebiasZeros (m : Mach) (k : Nat) (zeros : List (Nat × Nat)) : Mach :=
  (zeros.zipIdx).foldl (fun m x =>
    if (tget (getCv m k).ph {} x.2).st = .inService then imonZeroCheck m k x.2 x.1.1 x.1.2 else m) m

/-- PREBIAS_CHECK (R126 to R128): the converter that was asked to start. A start is judged again by R119, and refused
where the map in force lacks an entry of a mode it can enter (R102). -/
def prebiasCheck (m : Mach) (k : Nat) (x : PrebiasMeas) : Mach :=
  let srcPort := isPc k && !(getCv m k).reverse
  let c := ctrlOf m k
  let d := (getCv m k).decl
  let mapOk := (modesOf d).all fun j =>
    c.map.getD j 0xFF ≠ 0xFF && (c.cfg.updateDiv = 1 || c.map.getD (3 + j) 0xFF ≠ 0xFF)
  if srcPort && !isBay m k && (800 ≤ x.vbsMv || (protOf m k).backdrive) then
    let m := note m (cnvBlk k) .backdrive 4
    refuseStart (modProt m k fun p => { p with backdrive := true }) k
  else if !mapOk || engOver m then refuseStart m k
  else
    let m := prebiasZeros m k x.zeros
    if cnvFenced m k then m
    else
      let bay := srcPort && isBay m k
      let m := if srcPort && !bay then modCv m k fun c => { c with vbg := true, vbd := false } else m
      -- R312: a bay soft-starts to VBS with VBG open
      let lim := irateTotal m k
      let m := if bay then modBay m k fun b => { b with startAt := after m (ms 20) } else m
      let m := if bay then putRef (putRef (putRef (putRef m k 0 x.vbsMv) k 1 lim) k 2 lim) k 3 m.path.sysFold
        else startRefs m k
      let lo := x.samples.foldl min (x.samples.getD 0 0)
      let hi := x.samples.foldl max 0
      let sum := x.samples.sum
      if 200 < hi - lo then
        if 2 ≤ (protOf m k).prebiasTries then
          refuseStart (modProt (note m (cnvBlk k) .prebiasUnstable 4) k fun p =>
            { p with prebiasTries := 0, prebiasAt := none }) k
        else
          modProt (note m (cnvBlk k) .prebiasUnstable 2) k fun p =>
            { p with prebiasTries := p.prebiasTries + 1, prebiasAt := after m (ms 10) }
      else if ovExact (protOf m k) (fx (refNow m k 0)) * 4 ≤ thrUnit sum || (48 ≤ k && k < 54 && 4 * 60000 < sum) then
        refuseStart (note m (cnvBlk k) .prebiasHigh 4) k
      else
        let m := beginRun m k (16384 * (sum : Int)) x.vbsMv
        let m := shedLimits m k
        if k = 54 then { m with aux := { m.aux with running := true } } else m

/-- What a start needs besides the converter: an input that takes part and no stop on it (R154, R155); for a sourcing port and AC
no SYS_LOW in force (R167). -/
def startWanted (m : Mach) (k : Nat) : Bool :=
  if 48 ≤ k ∧ k < 54 then inputLive m (k - 48) && (getInp m (k - 48)).stopped = 0
  else (getCv m k).reverse || !(m.path.sysLow || m.path.restartWait)

/-- The check may run: the start is asked for, its self-test is over, and no scan instruction, TMON round or stopped
clock holds it (R518, R144, R33). -/
def mayCheck (m : Mach) (k : Nat) : Bool :=
  let c := getCv m k
  startWanted m k &&  c.starting && !c.run && c.selftest = 0 && !cnvFenced m k && !scanHolds m && m.grd.clkLost = 0 && !m.grd.tsd
    && !((List.range 16).any fun j => (getTmon m j).parkEnd.isSome && (groupConvs m j).contains k)
    && !(livePhases c).isEmpty

def execPrebiasCheck (conv : Nat) (meas : PrebiasMeas) (s : State) : Host.Outcome State Fault Refusal :=
  guardRead (conv < 55) (meas.vbsMv ≤ 60000 && meas.samples.all (· ≤ 65000)) s fun m =>
    when (mayCheck m conv && (protOf m conv).prebiasAt.isNone && meas.samples.length = 4) m fun m => prebiasCheck m conv meas

/-- PREBIAS_RETRY (R127): the check repeated after 10 ms. -/
def execPrebiasRetry (conv : Nat) (meas : PrebiasMeas) (s : State) : Host.Outcome State Fault Refusal :=
  guardRead (conv < 55) (meas.vbsMv ≤ 60000 && meas.samples.all (· ≤ 65000)) s fun m =>
    when (mayCheck m conv && meas.samples.length = 4) m fun m => fire m (protOf m conv).prebiasAt fun m =>
      prebiasCheck (modProt m conv fun p => { p with prebiasAt := none }) conv meas

/-- BACKDRIVE_CLEAR (R126): VBS below 800 mV for 10 ms. -/
def execBackdriveClear (port vbsMv : Nat) (s : State) : Host.Outcome State Fault Refusal :=
  guardRead (port < 48) (vbsMv ≤ 60000) s fun m =>
    when ((protOf m port).backdrive && vbsMv < 800) m fun m =>
      let m := modProt m port fun p => { p with backdrive := false }
      if (getPort m port).tc = .attachedSrc then requestStart m port else m

/-! ### Hard Reset as source (R281) -/

/-- tPSHardReset and tSrcRecover of R265. -/
def tPSHardReset : Nat := ms 30
def tSrcRecover : Nat := ms 750

/-- A Hard Reset sent or received as source: the contract ends, the pass returns to the park level, EPR, data role and
cable current to their attach values; the stop follows after tPSHardReset (R281). -/
def hardResetOut (m : Mach) (p : Nat) : Mach :=
  let m := closeSession.closeOutcomes m p
  let m := modPd m p fun x =>
    { pdoMask := x.pdoMask, drPol := x.drPol, eprEn := x.eprEn, pmaxMw := x.pmaxMw, imaxMa := x.imaxMa
      snkEpr := x.snkEpr, snkPmax := x.snkPmax, snkVmin := x.snkVmin, snkVmax := x.snkVmax, seq := wrap32 (x.seq + 1)
      rev := x.rev, offerMw := x.offerMw, hardCount := x.hardCount, hardResets := satTo 65535 (x.hardResets + 1), softResets := x.softResets
      txFail := x.txFail, lastAbort := if x.pe = .transition then 3 else x.lastAbort, sent := x.sent
      alertBits := x.alertBits, partnerSnk := x.partnerSnk, migTo := x.migTo, migAt := x.migAt, rxHold := x.rxHold
      pe := .hardReset, grantMw := parkMw, hrStopAt := after m tPSHardReset }
  parkPass m p

/-- tNoResponse of R268. -/
def tNoResponse : Nat := sec 5

/-- Hard Reset signalling sent as source (R264, R281). -/
def hardSignal (m : Mach) (p : Nat) : Mach :=
  modPd (hardResetOut m p) p fun y =>
    pdSend { y with hardCount := y.hardCount + 1, noRespAt := after m tNoResponse } m .hardReset

/-! ### Shorts (R129 to R131) -/

/-- A short detected: a stop with a retry after 500 ms, or the fence after the fourth attempt (R130). -/
def hiccup (m : Mach) (k : Nat) : Mach :=
  let m := modProt m k fun p => { p with shortCount := wrap32 (p.shortCount + 1), stableAt := none }
  if 3 ≤ (protOf m k).hiccups then setLive (fault m k .short 5) (cnvBlk k) .short 4 false
  else
    let (m, act) := detect m (cnvBlk k) .short 4 (ms 500)
    if act then
      let m := setLive (stopRun m k) (cnvBlk k) .short 4 true
      modProt m k fun p => { p with hiccupAt := after m (ms 500) }
    else m

/-- An input converter regulates SYS directly (R13): the Store is absent, fenced or precharged linearly. -/
def sysDirect (m : Mach) : Bool := m.path.mode = .off || m.path.mode = .linear

/-- The conditions of R129 beside soft start. -/
def shortCond (m : Mach) (k sampleMv limPermille : Nat) : Bool :=
  fx (sampleMv + 1000) < (tget (ctrlOf m k).loops {} 0).ref && 900 ≤ limPermille && (k < 48 || k = 54 || sysDirect m)

/-- SHORT merged into the fence of an eighth Snowplough (R144). -/
def shortMerged (m : Mach) (k : Nat) : Mach :=
  (detect (modProt m k fun p => { p with shortCount := wrap32 (p.shortCount + 1) }) (cnvBlk k) .short 4 10000).1

/-- SHORT_DETECT (R129, R144): the conditions have held for more than 200 us. -/
def shortDetect (m : Mach) (k sampleMv limPermille : Nat) (ccOpen : Bool) : Mach :=
  if !((ctrlOf m k).softStart && shortCond m k sampleMv limPermille) || (ccOpen && k < 48) then m
  else
    match (if k < 48 then maskedBy m (.port k) else none) with
    | some o => consequential m (cnvBlk k) .short o
    | none => if (ctrlOf m k).starvedDue then shortMerged (ctrlStarved m k) k else hiccup m k

/-- A short in the reaction time of CTRL_STARVED is merged as well. -/
def execShortDetect (conv sampleMv limPermille : Nat) (ccOpen : Bool) (s : State) : Host.Outcome State Fault Refusal :=
  guardRead (conv < 55) (sampleMv ≤ 65000) s fun m =>
    if (getCv m conv).run then shortDetect m conv sampleMv limPermille ccOpen
    else when ((getBlk m (cnvBlk conv)).fence = some (codeOf .ctrlStarved) && reacting m (cnvBlk conv)
        && shortCond m conv sampleMv limPermille && !(ccOpen && conv < 48)) m fun m => shortMerged m conv

/-- HICCUP_RETRY (R130): a start where it is still wanted, for AC by R204. -/
def execHiccupRetry (conv : Nat) (s : State) : Host.Outcome State Fault Refusal :=
  guardUnit (conv < 55) s fun m => fire m (protOf m conv).hiccupAt fun m =>
    let m := modProt m conv fun p => { p with hiccupAt := none, hiccups := p.hiccups + 1 }
    when ((conv < 48 || startWanted m conv) && (conv ≠ 54 || m.aux.wants)) m fun m => requestStart m conv

/-- HICCUP_COUNT_RESET (R130): 1 s of running after soft start. -/
def execHiccupCountReset (conv : Nat) (s : State) : Host.Outcome State Fault Refusal :=
  guardUnit (conv < 55) s fun m => fire m (protOf m conv).stableAt fun m =>
    setLive (modProt m conv fun p => { p with hiccups := 0, stableAt := none }) (cnvBlk conv) .short 4 false

/-! ### Over- and undervoltage (R132 to R135) -/

/-- CNV_PROT_CFG (R132). -/
def cmdCnvProtCfg (m : Mach) (_ : Nat) (p : List Byte) : Ans :=
  let k := pU p 0 1
  refuseFirst
    [(54 < k || !within (pU p 2 2) 50 250 || !within (pU p 4 2) 200 2000 || !within (pU p 6 2) 50 300
        || !within (pU p 8 2) 1 100, .outOfRange)] <|
    -- a running converter applies it at its next resolution
    .ok (modCv m k fun c =>
      let x := { c.prot with cfgPend := some (pU p 2 2, pU p 4 2, pU p 6 2, pU p 8 2) }
      { c with prot := if c.run then x else protSettle x }) []

def execCnvProtCfg (slot : Nat) (s : State) := command 0x110B slot cmdCnvProtCfg s

/-- OV_DETECT (R133, R144): two consecutive periods above the threshold. A port whose CC is open detaches instead, and
the overvoltage is the detach's consequence. -/
def ovDetect (m : Mach) (k sampleMv : Nat) (ccOpen : Bool) : Mach :=
  if thrUnit sampleMv ≤ ovNow m k then m
  else if k < 48 && ccOpen then consequential (stopRun m k) (cnvBlk k) .ov k
  else
    match (if k < 48 then maskedBy m (.port k) else none) with
    | some o => consequential m (cnvBlk k) .ov o
    | none =>
      let m := modProt m k fun p => { p with ovCount := wrap32 (p.ovCount + 1) }
      let recent := (protOf m k).ovTimes.filter fun t => m.dev.now < t + sec 10
      let m := modProt m k fun p => { p with ovTimes := recent ++ [m.dev.now] }
      if 48 ≤ k || !recent.isEmpty then fault m k .ov 5
      else
        let (m, act) := detect m (cnvBlk k) .ov 4 10000
        if !act then m
        else
          let rev := (getCv m k).reverse
          let m := stopRun m k
          if isBay m k || rev then requestStart m k
          else
            let trans := (getPd m k).pe = .transition
            modPd (hardSignal (abortBy m k 2) k) k fun x => { x with lastAbort := if trans then 2 else x.lastAbort }

def execOvDetect (conv sampleMv : Nat) (ccOpen : Bool) (s : State) : Host.Outcome State Fault Refusal :=
  guardRead (conv < 55) (sampleMv ≤ 65000) s fun m =>
    when (getCv m conv).run m fun m => ovDetect m conv sampleMv ccOpen

/-- Time the undervoltage detector does not count (R135); a sourcing port's FOLD loop samples SYS (R88). -/
def uvIdle (m : Mach) (k : Nat) : Bool :=
  let c := ctrlOf m k
  c.softStart || ((protOf m k).derateAt.isSome && (c.sel = 1 || c.sel = 2))
    || (k < 48 && !(getCv m k).reverse && c.sel = 3 && (tget c.loops {} 3).y.headD 0 < fx m.path.sysFold)

/-- UV_DETECT (R134, R135): `t` ms more below the threshold. -/
def uvDetect (m : Mach) (k sampleMv limPermille t : Nat) : Mach :=
  if uvNow m k ≤ thrUnit sampleMv then modProt m k fun p => { p with uvRun := 0 }
  else if uvIdle m k then m
  else
    match (if k < 48 then maskedBy m (.uv k) else none) with
    | some o => consequential m (cnvBlk k) .uvCtrl o
    | none =>
      let run := (protOf m k).uvRun + t
      let m := modProt m k fun p => { p with uvRun := run }
      if run < (protOf m k).uvTimeMs then m
      else
        let m := modProt m k fun p => { p with uvRun := 0 }
        if 900 ≤ limPermille then hiccup m k else fault m k .uvCtrl 5

def execUvDetect (conv sampleMv limPermille ms : Nat) (s : State) : Host.Outcome State Fault Refusal :=
  guardRead (conv < 55) (sampleMv ≤ 65000) s fun m =>
    when (getCv m conv).run m fun m => uvDetect m conv sampleMv limPermille ms

/-! ### Phases and senses (R136 to R141) -/

/-- The criteria of this chapter apply: running, past soft start, in no window over the die. -/
def protJudged (m : Mach) (k : Nat) : Bool :=
  (getCv m k).run && !(ctrlOf m k).softStart && (k < 48 → (maskedBy m (.port k)).isNone)

/-- The inductor voltage during the energising interval from the period's samples (R136), in 1/65536 mV: in buck input less output,
else the input's alone, while the output-side leg is low. -/
def inductorV (c : Ctrl) : Int := c.vinHist.headD 0 - (if c.modeApplied = 0 then (tget c.loops {} 0).y.headD 0 else 0)

/-- The denominator of `halfRise`: 1/65536 mV, 2 x L_NH, and 1 mV over 1 ps in 1 nH is 0.001 mA. -/
def riseDen (m : Mach) (k : Nat) : Nat := 65536 * 2 * (getCv m k).decl.lNh * 1000000

/-- V_L x t_on / (2 x L_NH) in mA (R136), times `riseDen`: a step of the on-time is 78.125 ps. -/
def halfRise (m : Mach) (k : Nat) : Int :=
  let c := getCv m k
  inductorV c.ctrl * onSteps c.decl c.ctrl.dutyEff * 78125

/-- A phase reading as a magnitude in the converter's direction: a sinking port's are negative (R66, R88). -/
def magnitude (m : Mach) (k : Nat) (i : Int) : Int := if (getCv m k).reverse then -i else i

/-- A phase's mean current from its valley reading (R136), in mA times `riseDen`. -/
def phaseMean (m : Mach) (k : Nat) (valley : Int) : Int := magnitude m k valley * riseDen m k + halfRise m k

/-- The phases that met the open criteria over 32 periods (R137): of those in service when the period began. -/
def openPhases (m : Mach) (k : Nat) (legAMa legBMa valleyMa : List Int) : List Nat :=
  let c := getCv m k
  let live := periodPhases c
  let dead (leg : List Int) (i : Nat) : Bool := 20 * magnitude m k (leg.getD i 0) < c.decl.irateMa
  live.filter fun i =>
    let others := live.filter fun j => j ≠ i
    !others.isEmpty && dead legAMa i && dead legBMa i && 1280 ≤ onSteps c.decl c.ctrl.dutyEff
      && (c.decl.irateMa * others.length * riseDen m k : Nat) < 4 * (others.map fun j => phaseMean m k (valleyMa.getD j 0)).sum

/-- PHASE_OPEN (R137, R141): every phase that met the criteria is fenced. -/
def phaseOpen (m : Mach) (k : Nat) (legAMa legBMa valleyMa : List Int) : Mach :=
  forAll m ((openPhases m k legAMa legBMa valleyMa).filter fun i => (tget (getCv m k).ph {} i).st = .inService)
    fun m i => fencePhase m k i .phaseOpen 5

def execPhaseOpen (conv : Nat) (legAMa legBMa valleyMa : List Int) (periods : Nat) (s : State) :
    Host.Outcome State Fault Refusal :=
  guardUnit (conv < 55) s fun m =>
    when (protJudged m conv && 32 ≤ periods && legAMa.length = declaredPhases (getCv m conv).decl
        && legBMa.length = legAMa.length && valleyMa.length = legAMa.length) m
      fun m => phaseOpen m conv legAMa legBMa valleyMa

/-- SENSE_RAIL (R138): IMON below 20 mV or above 1 780 mV in four consecutive samples. -/
def execSenseRail (conv phase imonMv : Nat) (s : State) : Host.Outcome State Fault Refusal :=
  guardRead (conv < 55 && phase < 8) (imonMv ≤ 3600) s fun m =>
    when (protJudged m conv && (tget (getCv m conv).ph {} phase).st = .inService && (imonMv < 20 || 1780 < imonMv)) m
      fun m => fencePhase m conv phase .senseRail 5

/-- SENSE_RIPPLE (R138): eight consecutive evaluations, which count where the expected rise is at least 10 % of the rating, each with
a rise from valley to mid-on-time below 25 % of it. -/
def execSenseRipple (conv phase : Nat) (valleyMa midMa : List Int) (s : State) : Host.Outcome State Fault Refusal :=
  guardUnit (conv < 55 && phase < 8) s fun m =>
    when (protJudged m conv && (tget (getCv m conv).ph {} phase).st = .inService && valleyMa.length = 8 && midMa.length = 8
        && ((getCv m conv).decl.irateMa * riseDen m conv : Nat) ≤ 10 * halfRise m conv
        && (valleyMa.zip midMa).all fun e => 4 * (magnitude m conv e.2 - magnitude m conv e.1) * riseDen m conv < halfRise m conv) m
      fun m => fencePhase m conv phase .senseRipple 5

/-! ### CNV_PROT_STAT_GET (R145) -/

def cmdCnvProtStatGet (m : Mach) (_ : Nat) (p : List Byte) : Ans :=
  let k := pU p 0 1
  refuseFirst [(54 < k, .outOfRange)] <|
    let c := getCv m k
    let fenced := bitmap ((List.range (declaredPhases c.decl)).filter fun j => (tget c.ph {} j).st = .fenced)
    .ok m ([BitVec.ofNat 8 (declaredPhases c.decl), BitVec.ofNat 8 fenced, BitVec.ofNat 8 c.prot.hiccups,
        BitVec.ofNat 8 (if c.prot.derateAt.isSome then 1 else 0)]
      ++ le 2 (satTo 65535 (irateTotal m k)) ++ le 2 (satTo 65535 (ovThrOf m k)) ++ le 2 (satTo 65535 (uvThrOf m k))
      ++ le 2 c.prot.uvRun ++ le 4 c.prot.ovCount ++ le 4 c.prot.shortCount ++ le 4 c.prot.shedCount)

def execCnvProtStatGet (slot : Nat) (s : State) := command 0x110C slot cmdCnvProtStatGet s

end Machine
end Sys2Proof
end

