-- ==== Sys2Proof/Machine/Path.lean ====
section
/-! DEFINITION. Sys2Proof/Machine/Path.lean: the inputs, the priority ladder, the battery FET and SYS levels (chapter 6).
The Store's removal and acceptance stand in Charge.lean, the cable boot in Power.lean. -/
namespace Sys2Proof
namespace Machine

/-! ### What the sources deliver -/

/-- SHUNT_INi as its ISRC loop read it last, never negative (R156). -/
def iinOf (m : Mach) (i : Nat) : Nat :=
  let c := getCv m (48 + i)
  if c.run then ((tget c.ctrl.loops {} 2).y.headD 0 / 65536).toNat else 0

/-- ICi delivers more than 1 % of ILIM_MA (R177). -/
def inputDelivers (m : Mach) (i : Nat) : Bool := (getInp m i).ilimMa < 100 * iinOf m i

/-- A sinking port delivers into SYS. -/
def sinkDelivers (m : Mach) (p : Nat) : Bool :=
  let c := getCv m p
  c.run && c.reverse && 0 < (tget c.ctrl.loops {} 1).y.headD 0

/-- An input, a donor or the boot sink delivers. -/
def feeding (m : Mach) : Bool :=
  ((List.range 6).any fun i => inputDelivers m i) || ((List.range 48).any fun p => sinkDelivers m p)

/-- Present inputs, not parked (R177). -/
def presentInputs (m : Mach) : List Nat :=
  (List.range 6).filter fun i => (getInp m i).typ ≠ 0 && (getInp m i).enable && (getInp m i).present && !(getInp m i).parked

/-! ### Path configuration (R165, R166) -/

/-- SYS_MIN, SYS_FOLD and SYS_TGT derived where the configuration leaves them so; the fold references follow (R36). -/
def pathDerive (m : Mach) : Mach :=
  let p := m.path
  let pr := (getChg m 0).prof
  let mn := if p.sysMinCfg ≠ 0 then p.sysMinCfg else pr.cells * (if pr.chem = 2 then 2500 else 3000)
  let fold := if p.sysFoldCfg ≠ 0 then p.sysFoldCfg else mn + 1000
  let m := { m with path := { p with sysMin := mn, sysFold := fold, sysTgt := if p.sysTgtSet then p.sysTgt else fold + 2000 } }
  let m := forAll m (List.range 48) fun m k =>
    if (getCv m k).run && !(getCv m k).reverse && !isBay m k then setRef m k 3 fold else m
  -- an override of R106 stands until AC's next start or configuration (R204)
  if (getCv m 54).run && !m.aux.foldOver then setRef m 54 3 fold else m

/-- SRC_PATH_CFG (R165). -/
def cmdSrcPathCfg (m : Mach) (_ : Nat) (p : List Byte) : Ans :=
  let mnCfg := pU p 0 2
  let pr := (getChg m 0).prof
  let mn := if mnCfg ≠ 0 then mnCfg else pr.cells * (if pr.chem = 2 then 2500 else 3000)
  let fold := pU p 2 2
  refuseFirst
    [(!(mnCfg = 0 || within mnCfg 5000 48000) || !(fold = 0 || within fold (mn + 300) (mn + 5000))
        || !within (pU p 4 2) 1000 30000 || !within (pU p 6 1) 10 100 || 3 < pU p 7 1 || !within (pU p 8 2) 10 500
        || !within (pU p 10 2) (7 * pU p 6 1 + 50) 2000 || 100 < pU p 12 1 || !within (pU p 13 1) 3 240, .outOfRange)] <|
    let m := { m with path := { m.path with
      sysMinCfg := mnCfg, sysFoldCfg := fold, pdCapMw := pU p 4 2, vStep := pU p 6 1, donorPol := pU p 7 1
      iStep := pU p 8 2, diodeOfs := pU p 10 2, donorSoc := pU p 12 1, bootPwrW := pU p 13 1 } }
    .ok (ladderApply (pathDerive m)) []

def execSrcPathCfg (slot : Nat) (s : State) := command 0x0302 slot cmdSrcPathCfg s

/-- SRC_SYS_TARGET_SET (R166). -/
def cmdSrcSysTargetSet (m : Mach) (_ : Nat) (p : List Byte) : Ans :=
  let t := pU p 0 2
  refuseFirst [(!within t (m.path.sysFold + 500) 59000, .outOfRange), (m.path.mode ≠ .off, .notInState)] <|
    .ok (ladderApply { m with path := { m.path with sysTgt := t, sysTgtSet := true } }) []

def execSrcSysTargetSet (slot : Nat) (s : State) := command 0x0305 slot cmdSrcSysTargetSet s

/-! ### Inputs (R152 to R157) -/

/-- SRC_INPUT_CFG (R152): a change of TYPE, or of ENABLE to 0, stops a running ICi, which restarts or stays stopped. -/
def cmdSrcInputCfg (m : Mach) (_ : Nat) (p : List Byte) : Ans :=
  let i := pU p 0 1
  let typ := pU p 1 1
  let fl := pU p 3 1
  refuseFirst
    [(5 < i || 3 < typ || 5 < pU p 2 1 || 3 < fl || !within (pU p 4 4) 100 80000 || 159000 < pU p 8 4
        || !within (pU p 12 4) 5000 160000 || !within (pU p 16 4) 3000 150000 || !within (pU p 20 2) 50 2000
        || !within (pU p 22 2) 20 1000 || !within (pU p 24 2) 10 3600 || !within (pU p 26 2) 600 900
        || 3600 < pU p 28 2, .outOfRange)] <|
    let old := getInp m i
    let en := bit fl 0
    let use_ := en && typ ≠ 0
    let changed := old.typ ≠ typ
    let stops := changed || (old.enable && !en)
    let ran := (getCv m (48 + i)).run || (getCv m (48 + i)).starting || old.scanning
    let m := modInp m i fun x =>
      { x with
        typ := typ, rank := pU p 2 1, enable := en, startPath := bit fl 1, ilimMa := pU p 4 4, vfloorMv := pU p 8 4
        vmaxMv := pU p 12 4, presentMv := pU p 16 4, stepMv := pU p 20 2, periodMs := pU p 22 2, scanS := pU p 24 2
        foc := pU p 26 2, vehHoldS := pU p 28 2
        present := x.present && use_, parked := x.parked && use_ && !changed
        scanning := x.scanning && !stops, scanEndAt := if stops then none else x.scanEndAt
        stopped := if use_ then x.stopped else 0, restartAt := if use_ then x.restartAt else none
        floorNow := if typ = 2 then (if changed then 0 else x.floorNow) else pU p 8 4
        lastPower := if changed then 0 else x.lastPower, pmppMw := if changed then 0 else x.pmppMw
        scanAt := if typ = 2 && use_ then (if changed || x.scanAt.isNone then after m (sec (pU p 24 2)) else x.scanAt)
                  else none
        vehDetAt := if changed then (if typ = 3 && x.present && use_ then after m (sec 1) else none) else x.vehDetAt
        veh24 := if changed then none else x.veh24 }
    -- a solar floor not yet measured has no value the manual gives
    let m := if typ = 2 && changed then
        let (n, m) := draw m
        modInp m i fun x => { x with floorNow := Config.freeNat n }
      else m
    let m := if stops then stopRun m (48 + i) else m
    let m := ladderApply (rankRecompute m)
    .ok (if stops && ran && use_ && (getInp m i).stopped = 0 then requestStart m (48 + i) else m) []

def execSrcInputCfg (slot : Nat) (s : State) := command 0x0301 slot cmdSrcInputCfg s

/-- The ratings of R524 for an input sense pin and for SYS and the Store. -/
def vinRated (v : Nat) : Bool := v ≤ 170000
def sysRated (v : Nat) : Bool := v ≤ 65000

/-- The presence threshold: PRESENT_MV, and a PRESENT_MV below VFLOOR_MV has no effect; solar ignores VFLOOR_MV (R152). -/
def presMv (x : Input) : Nat := if x.typ = 2 then x.presentMv else max x.presentMv x.vfloorMv

/-- INPUT_PRESENT (R154): at or above PRESENT_MV for 10 ms. -/
def inputPresent (m : Mach) (i vin : Nat) : Mach :=
  let x := getInp m i
  if x.typ = 0 || !x.enable || x.present || vin < presMv x then m
  else
    let m := modInp m i fun x =>
      { x with present := true, parked := false, vinMv := vin, stopped := 0
               vehDetAt := if x.typ = 3 then after m (sec 1) else none, veh24 := none
               scanAt := if x.typ = 2 then after m (sec x.scanS) else none
               floorNow := if x.typ = 2 then x.floorNow else x.vfloorMv }
    requestStart (ladderApply (rankRecompute m)) (48 + i)

def execInputPresent (input vinMv : Nat) (s : State) : Host.Outcome State Fault Refusal :=
  guardRead (input < 6) (vinRated vinMv) s fun m => inputPresent m input vinMv

/-- INPUT_ABSENT (R154): below 90 % of PRESENT_MV for 1 ms. -/
def inputAbsent (m : Mach) (i vin : Nat) : Mach :=
  let x := getInp m i
  if !x.present || 9 * presMv x ≤ 10 * vin then m
  else
    let m := modInp m i fun x =>
      { x with present := false, parked := false, vinMv := vin, scanning := false, scanEndAt := none, scanAt := none
               vehDetAt := none, veh24 := none, stopped := 0, restartAt := none }
    let m := setLive (stopRun m (48 + i)) (cnvBlk (48 + i)) .inOv 4 false
    let m := setLive (modProt m (48 + i) fun p => { p with hiccupAt := none, prebiasAt := none }) (cnvBlk (48 + i)) .short 4 false
    ladderApply (rankRecompute m)

def execInputAbsent (input vinMv : Nat) (s : State) : Host.Outcome State Fault Refusal :=
  guardRead (input < 6) (vinRated vinMv) s fun m => inputAbsent m input vinMv

/-- IN_OV (R155): over VMAX_MV in two consecutive periods. -/
def inOv (m : Mach) (i vin : Nat) : Mach :=
  let x := getInp m i
  if x.typ = 0 || !x.enable || vin ≤ x.vmaxMv || cnvFenced m (48 + i) then m
  else
    let b := cnvBlk (48 + i)
    let (m, act) := detect m b .inOv 4 10000
    let m := setLive (modInp m i fun x => { x with vinMv := vin }) b .inOv 4 true
    if act then
      stopRun (modInp m i fun x => { x with stopped := 1, scanning := false, scanEndAt := none, restartAt := none }) (48 + i)
    else m

def execInOv (input vinMv : Nat) (s : State) : Host.Outcome State Fault Refusal :=
  guardRead (input < 6) (vinRated vinMv) s fun m => inOv m input vinMv

/-- IN_OV_RECOVER (R155): below 95 % of VMAX_MV for 100 ms. -/
def execInOvRecover (input vinMv : Nat) (s : State) : Host.Outcome State Fault Refusal :=
  guardRead (input < 6) (vinRated vinMv) s fun m =>
    let x := getInp m input
    when (x.stopped = 1 && 100 * vinMv < 95 * x.vmaxMv) m fun m =>
      let m := setLive (modInp m input fun x => { x with stopped := 0, vinMv := vinMv }) (cnvBlk (48 + input)) .inOv 4 false
      if inputLive m input then requestStart m (48 + input) else m

/-- INPUT_REVERSE (R14, R156): a reverse current of more than 200 mA. -/
def execInputReverse (input : Nat) (iinMa : Int) (s : State) : Host.Outcome State Fault Refusal :=
  guardUnit (input < 6) s fun m => when ((getCv m (48 + input)).run && iinMa < -200) m fun m =>
    let (m, act) := detect m (cnvBlk (48 + input)) .reverse 4 10000
    if act then
      stopRun (modInp m input fun x => { x with stopped := 2, restartAt := after m (ms 100) }) (48 + input)
    else m

/-- INPUT_REVERSE_RESTART (R156). -/
def execInputReverseRestart (input : Nat) (s : State) : Host.Outcome State Fault Refusal :=
  guardUnit (input < 6) s fun m => fire m (getInp m input).restartAt fun m =>
    let m := modInp m input fun x => { x with stopped := 0, restartAt := none }
    if inputLive m input then requestStart m (48 + input) else m

/-- VEHICLE_SYSTEM_DETECT (R157): the reading of the first second. -/
def execVehicleSystemDetect (input vinMv : Nat) (s : State) : Host.Outcome State Fault Refusal :=
  guardRead (input < 6) (vinRated vinMv) s fun m => fire m (getInp m input).vehDetAt fun m =>
    modInp m input fun x => { x with vehDetAt := none, veh24 := some (18000 ≤ vinMv), vinMv := vinMv }

/-- VEH_RUN of R157. -/
def vehRun (x : Input) : Nat := if x.veh24 = some true then 26400 else 13200

/-- VEHICLE_PARK (R157): below VEH_RUN for VEH_HOLD_S. -/
def execVehiclePark (input vinMv : Nat) (s : State) : Host.Outcome State Fault Refusal :=
  guardRead (input < 6) (vinRated vinMv) s fun m =>
    let x := getInp m input
    when (x.typ = 3 && x.enable && x.present && !x.parked && x.veh24.isSome && x.vehHoldS ≠ 0 && vinMv < vehRun x) m fun m =>
      let m := modInp m input fun x => { x with parked := true, vinMv := vinMv }
      let m := modCv (stopRun m (48 + input)) (48 + input) fun c => { c with parked := true }
      ladderApply (rankRecompute m)

/-- VEHICLE_UNPARK (R157): at or above VEH_RUN for 2 s. -/
def execVehicleUnpark (input vinMv : Nat) (s : State) : Host.Outcome State Fault Refusal :=
  guardRead (input < 6) (vinRated vinMv) s fun m =>
    let x := getInp m input
    when (x.typ = 3 && x.parked && vehRun x ≤ vinMv) m fun m =>
      let m := ladderApply (rankRecompute (modInp m input fun x => { x with parked := false, vinMv := vinMv }))
      -- IN_OV still holds it (R155)
      if (getInp m input).stopped = 0 then requestStart m (48 + input) else m

/-! ### Maximum power point tracking (R162 to R164) -/

/-- A scan that falls due is skipped (R163, R179). -/
def scanSkips (m : Mach) (i : Nat) : Bool :=
  !m.path.storePresent || m.path.mode = .linear || (presentInputs m = [i] && m.path.donors.isEmpty)

/-- Top and bottom of a solar floor's range; the manual gives none. -/
def floorLo : Nat := Config.floorLo
def floorHi : Nat := Config.floorLo + Config.floorSpan

/-- MPPT_STEP (R162): the end of an MPPT_PERIOD_MS interval. -/
def mpptStep (m : Mach) (i powerMw foldPermille : Nat) : Mach :=
  if foldPermille < 500 then m
  else
    modInp m i fun x =>
      let rose := 1002 * x.lastPower < 1000 * powerMw
      let up := if rose then x.dirUp else !x.dirUp
      let f := if up then x.floorNow + x.stepMv else x.floorNow - x.stepMv
      let g := clampN floorLo floorHi f
      { x with floorNow := g, dirUp := up, lastPower := powerMw, pmppMw := powerMw
               scanAt := if g = floorLo || g = floorHi then some m.dev.now else x.scanAt }

def execMpptStep (input powerMw foldPermille : Nat) (s : State) : Host.Outcome State Fault Refusal :=
  guardUnit (input < 6) s fun m =>
    let x := getInp m input
    -- without a Bib holder the floor stays (R38)
    when (x.typ = 2 && (getCv m (48 + input)).run && !x.scanning && holderRuns m) m fun m =>
      let m := mpptStep m input powerMw foldPermille
      setRef m (48 + input) 3 (getInp m input).floorNow

/-- MPPT_SCAN (R163, R164): the scan falls due; Lift counts the input at 0 while it scans. -/
def mpptScan (m : Mach) (i : Nat) : Mach :=
  let x := getInp m i
  let nextAt := after m (sec x.scanS)
  let other := ((List.range 6).filter fun j => j ≠ i).filterMap fun j =>
    match (getInp m j).lastScan with
    | some t => if m.dev.now < t + sec 1 then some (t + sec 1) else none
    | none => none
  if !x.present || x.typ ≠ 2 then modInp m i fun x => { x with scanAt := none }
  else if x.stopped = 2 then modInp m i fun x => { x with scanAt := x.restartAt }
  else if scanSkips m i || x.stopped = 1 then
    modInp m i fun x => { x with scanAt := nextAt, scanSkipped := satTo 65535 (x.scanSkipped + 1) }
  else if !other.isEmpty then modInp m i fun x => { x with scanAt := some (other.foldl max 0) }
  else
    let m := stopRun m (48 + i)
    modInp m i fun x => { x with scanning := true, scanAt := nextAt, scanEndAt := after m (ms 3), lastScan := some m.dev.now }

def execMpptScan (input : Nat) (s : State) : Host.Outcome State Fault Refusal :=
  guardUnit (input < 6) s fun m => when (holderRuns m) m fun m => fire m (getInp m input).scanAt fun m => mpptScan m input

/-- MPPT_SCAN_END (R163): 2 ms and the 1 ms average of VINS have passed. -/
def execMpptScanEnd (input vocMv : Nat) (s : State) : Host.Outcome State Fault Refusal :=
  guardRead (input < 6) (vinRated vocMv) s fun m => fire m (getInp m input).scanEndAt fun m =>
    let m := modInp m input fun x =>
      { x with scanning := false, scanEndAt := none, vocMv := vocMv, vinMv := vocMv, floorNow := x.foc * vocMv / 1000 }
    requestStart (setRef m (48 + input) 3 (getInp m input).floorNow) (48 + input)

/-- SRC_MPPT_SCAN (R163). -/
def cmdSrcMpptScan (m : Mach) (_ : Nat) (p : List Byte) : Ans :=
  let i := pU p 0 1
  refuseFirst [(5 < i, .outOfRange), ((getInp m i).typ ≠ 2 || scanSkips m i, .notInState)] <|
    .ok (modInp m i fun x => { x with scanAt := some m.dev.now }) []

def execSrcMpptScan (slot : Nat) (s : State) := command 0x0304 slot cmdSrcMpptScan s

/-! ### The battery FET (R147 to R151) -/

/-- Charge is permitted in the state of a machine (R182). -/
def chgPermits (c : ChgM) : Bool :=
  match c.st with
  | .precharge | .softstart | .cc | .cv | .topoff => true
  | .maint => c.maintChg
  | _ => false

/-- The mode R148 selects; between its two thresholds the previous mode stays, and from OFF one of the three is free. -/
def bfetSelect (m : Mach) (v : Nat) : BfetMode × Mach :=
  let p := m.path
  if (getBlk m blkStore).fence.isSome || !p.storePresent || m.pwr.st = .ship then (.off, m)
  else if v + 300 < p.sysMin then (.linear, m)
  else if p.sysMin ≤ v + 100 then
    (if chgPermits (getChg m 0) && (getBlk m (blkLinkE + 1)).fence.isNone && !m.grd.holdParked then .on else .diode, m)
  else
    match p.mode with
    | .off =>
      let (n, m) := draw m
      (if Config.freeNat n % 3 = 0 then .linear else if Config.freeNat n % 3 = 1 then .on else .diode, m)
    | md => (md, m)

/-- The longest slew of a running input's V reference to a target, in ns; VSLEW counts 100 mV/ms (R107, R151). -/
def slewNs (m : Mach) (target : Nat) : Nat :=
  (runningInputs m).foldl (fun acc i =>
    let c := (getCv m (48 + i)).ctrl
    let r := (tget c.loops {} 0).ref / 65536
    max acc (ceilDiv (((target : Int) - r).natAbs * 10000) c.cfg.vslew)) 0

/-- From ON to DIODE the inputs' reference starts at the present SYS value (R151): each one's own last sample of SYSS. -/
def fromSys (m : Mach) : Mach :=
  forAll m (runningInputs m) fun m i => modCtrl m (48 + i) fun c =>
    { c with loops := tupd c.loops 0 fun l => { l with ref := l.y.headD l.ref } }

/-- A mode taken: its ladder row applies; turning on lets the charge reference rise from 0 (R151). -/
def setMode (m : Mach) (md : BfetMode) : Mach :=
  let on := md = .on && m.path.mode ≠ .on
  let m := if md = .diode && m.path.mode = .on then fromSys m else m
  let m := { m with path := { m.path with
      mode := md, toMode := none, transAt := none
      linMa := if md = .linear then m.path.linMa else 0, linCapped := md = .linear && m.path.linCapped } }
  let m := if on then modChg m 0 fun c => { c with rampMa := 0, iNow := 0, rise := true } else m
  ladderApply m

/-- BFET_MODE_EVAL (R148, R151, R179): no new selection while a transition is in progress. A Store being joined
(R175) is connected once SYS lies within 100 mV of it, or at SYS_MIN for a dead one, and its fence of STORE_REMOVED
ends. -/
def bfetModeEval (m : Mach) (v : Nat) : Mach :=
  let m := { m with path := { m.path with vstsMv := v } }
  -- after a clock loss the battery FET keeps its mode until the reset (R33)
  if m.path.transAt.isSome || m.grd.clkLost ≠ 0 then m
  else
    let dead := v + 300 < m.path.sysMin
    let near := (m.path.sysMv < v + 100 && v < m.path.sysMv + 100) || (dead && m.path.sysMin ≤ m.path.sysMv)
    if m.path.joining && !near then m
    else
      let m := if m.path.joining then
          let m := { m with path := { m.path with joining := false } }
          modBlk m blkStore fun w => if w.fence = some (codeOf .storeRemoved) then { w with fence := none } else w
        else m
      let (md, m) := bfetSelect m v
      if md = m.path.mode then m
      else if md = .on && (m.path.mode = .diode || m.path.mode = .linear) then
        ladderApply { m with path := { m.path with
          toMode := some .on, transAt := some (m.dev.now + slewNs m (v + 20) + ms 1) } }
      else setMode m md

def execBfetModeEval (vstsMv : Nat) (s : State) : Host.Outcome State Fault Refusal :=
  guardRead true (sysRated vstsMv) s fun m => bfetModeEval m vstsMv

/-- BFET_TRANSITION_DONE (R151). -/
def execBfetTransitionDone (s : State) : Host.Outcome State Fault Refusal :=
  guardUnit true s fun m => when (m.grd.clkLost = 0) m fun m =>
    fire m m.path.transAt fun m => setMode m (m.path.toMode.getD m.path.mode)

/-- REVERSE_COMPARATOR (R149, R179): more than +200 mA in DIODE mode turns BFET_SYS off, its gate following the current read; a
transition to ON restarts from its slew. -/
def execReverseComparator (storeMa : Int) (s : State) : Host.Outcome State Fault Refusal :=
  guardUnit true s fun m => when (m.path.mode = .diode && 200 < storeMa) m fun m =>
    let m := modChg m 0 fun c => { c with iMa := storeMa }
    { m with path := { m.path with
        revBlock := true
        transAt := match m.path.toMode with
          | some _ => some (m.dev.now + slewNs m (m.path.vstsMv + 20) + ms 1)
          | none => m.path.transAt } }

/-- I_LIN of R150 in mA, and whether its second term is the smaller. -/
def iLin (m : Mach) (sys vst : Nat) : Nat × Bool :=
  let i := (getChg m 0).iNow
  if sys ≤ vst then (i, false)
  else
    let cap := m.path.pdCapMw * 1000 / (sys - vst)
    (min i cap, cap < i)

/-- LINEAR_UPDATE (R150): every 100 us. -/
def linearUpdate (m : Mach) (sys vst : Nat) : Mach :=
  let (target, capped) := iLin m sys vst
  let cur := m.path.linMa
  let v := if sys < m.path.sysMin then cur - ceilDiv cur 4 else min target (cur + ceilDiv target 10)
  { m with path := { m.path with linMa := min v target, linCapped := capped, sysMv := sys, vstsMv := vst } }

def execLinearUpdate (sysMv vstsMv : Nat) (storeMa : Int) (s : State) : Host.Outcome State Fault Refusal :=
  guardRead true (sysRated sysMv && sysRated vstsMv) s fun m => when (m.path.mode = .linear) m fun m =>
    modChg (linearUpdate m sysMv vstsMv) 0 fun c => { c with iMa := storeMa }

/-! ### Donors (R160) -/

/-- The power of a sinking port's contract; before one, of the Type-C current at 5 V, less the boot sink's own 450 mA (R545). -/
def contractMw (m : Mach) (p : Nat) : Nat :=
  let x := getPd m p
  if x.contract then x.vTarget * x.ilim / 1000
  else 5 * (rpMa (getPort m p).partnerRp - (if m.path.bootSink = some p then 450 else 0))

/-- The sinking ports that share SYS at effective rank 6 (R158): donors, and the cable-boot sink. -/
def rankSix (m : Mach) : List Nat :=
  m.path.donors ++ match m.path.bootSink with
    | some p => if m.path.donors.contains p then [] else [p]
    | none => []

/-- DONOR_LIMIT_UPDATE (R160, R211): the loads plus I_CHG less what the inputs deliver, shared by contract power. -/
def donorLimitUpdate (m : Mach) (loadsMa inputsMa : Nat) : Mach :=
  let total := loadsMa + (getChg m 0).iNow - inputsMa
  let ds := (rankSix m).filter fun p => !m.path.withdrawn.contains p
  let sum := (ds.map fun p => contractMw m p).sum
  forAll m ds fun m p => setRef m p 1 (if sum = 0 then 0 else total * contractMw m p / sum)

/-- Without a Bib holder the limits stay (R38). -/
def execDonorLimitUpdate (loadsMa inputsMa : Nat) (s : State) : Host.Outcome State Fault Refusal :=
  guardUnit true s fun m =>
    when (m.path.mode = .on && !isLive m blkStore (codeOf .chgOc) && holderRuns m) m
      fun m => donorLimitUpdate m loadsMa inputsMa

/-! ### SYS_LOW (R167) -/

/-- A sourcing port that a stop for want of SYS has caught: Hard Reset is sent, and VBUS comes back only with SYS_RECOVER (R167), so
that no response is waited for until then. -/
def lowSignal (m : Mach) (p : Nat) : Mach := modPd (hardSignal m p) p fun x => { x with hrStopAt := none, noRespAt := none }

/-- SYS_LOW: SYS below SYS_MIN for 100 ms in ON or DIODE mode with nothing delivering. The rule names no restart of a sinking port:
it starts again with the others (DESIGN CHOICE, log entry 105). -/
def sysLow (m : Mach) (sys : Nat) : Mach :=
  let m := { m with path := { m.path with sysMv := sys } }
  if (m.path.mode ≠ .on && m.path.mode ≠ .diode) || feeding m || m.path.sysMin ≤ sys || m.path.sysLow then m
  else
    let (m, act) := detect m blkStore .sysLow 4 (sec 1)
    if !act then m
    else
      let ran := (List.range 48).filter fun p => (getCv m p).run || (getCv m p).starting
      let m := { m with path := { m.path with sysLow := true, lowRestart := ran } }
      let m := forAll m ran stopRun
      let m := forAll m ran fun m p => modProt m p fun x => { x with hiccupAt := none, prebiasAt := none }
      let m := forAll m (ran.filter fun p => !isBay m p && !(getCv m p).reverse) lowSignal
      let m := stopRun m 54
      { m with aux := { m.aux with running := false } }

def execSysLow (sysMv : Nat) (s : State) : Host.Outcome State Fault Refusal :=
  guardRead true (sysRated sysMv) s fun m => sysLow m sysMv

/-! ### Status (R177, R178) -/

/-- SRC_PATH_STAT (R177). -/
def pathStatWord (m : Mach) : Nat :=
  let p := m.path
  let md := match p.mode with
    | .off => 0
    | .on => 1
    | .diode => 2
    | .linear => 3
  let boot := match p.bootSink with
    | some q => sinkDelivers m q
    | none => false
  md * 2 ^ 30 + flag p.storePresent 29 + flag boot 28 + bitmap (presentInputs m) * 2 ^ 22
    + bitmap ((List.range 6).filter fun i => inputDelivers m i) * 2 ^ 16 + satTo 63 p.donors.length * 2 ^ 10
    + flag (p.mode = .linear && p.linCapped) 9 + flag (p.mode = .diode && (getChg m 0).iMa < 0) 8 + flag p.sysLow 7
    + flag p.revBlock 6

/-- A write of SRC_PATH_STAT: REV_BLOCK is W1C. -/
def pathStatWrite (m : Mach) (w : Nat) : Mach :=
  if bit w 6 then { m with path := { m.path with revBlock := false } } else m

/-- STATE of R178. -/
def inputState (m : Mach) (i : Nat) : Nat :=
  let x := getInp m i
  if x.typ = 0 || !x.enable then 0 else if cnvFenced m (48 + i) then 7 else if x.stopped ≠ 0 then 6
  else if x.parked then 5 else if x.scanning then 4 else if !x.present then 1
  else if inputDelivers m i then 3 else 2

/-- SRC_INPUT_STAT_GET (R178). -/
def cmdSrcInputStatGet (m : Mach) (_ : Nat) (p : List Byte) : Ans :=
  let i := pU p 0 1
  refuseFirst [(5 < i, .outOfRange)] <|
    let x := getInp m i
    let age := match x.lastScan with
      | some t => satTo 65535 ((m.dev.now - t) / sec 1)
      | none => 65535
    .ok m ([BitVec.ofNat 8 (inputState m i), BitVec.ofNat 8 x.effRank, BitVec.ofNat 8 (getCv m (48 + i)).ctrl.sel, 0]
      ++ le 4 (vinOf m i) ++ le 4 (iinOf m i) ++ le 4 (vinOf m i * iinOf m i / 1000) ++ le 4 x.vocMv
      ++ le 4 x.floorNow ++ le 4 x.pmppMw ++ le 2 age ++ le 2 x.scanSkipped)

def execSrcInputStatGet (slot : Nat) (s : State) := command 0x0303 slot cmdSrcInputStatGet s

end Machine
end Sys2Proof
end

