-- ==== Sys2Proof/Machine/EstCore.lean ====
section
/-! DEFINITION. Sys2Proof/Machine/EstCore.lean: the estimator's shared operations (chapter 12): OCV tables, counting,
anchors, the filter, learned records. -/
namespace Sys2Proof
namespace Machine

/-! ### Contexts (R320 to R322) -/

def ctxStore (x : Nat) : Bool := 256 ≤ x

/-- The charge machine a context belongs to: the Store's, or the bay's that holds the record. -/
def ctxMach (m : Mach) (x : Nat) : Nat := if ctxStore x then 0 else (tget m.recs {} x).holder + 1

/-- Chemistry of a context: 1 Li-ion, 2 LiFePO4. -/
def ctxChem (m : Mach) (x : Nat) : Nat := (getChg m (ctxMach m x)).prof.chem

/-- The configured Store thermistors, in the order of their pins (R180, R322). -/
def configuredSntc (m : Mach) : List Nat := ((List.range 4).filter fun n => bit (getChg m 0).prof.sntc n).map (88 + ·)

/-- The temperature of a context (R320, R322): PTH_Pp of its bay, or configured SNTC floor(c N / CELLS); T_MAX of R190 where that
sensor is invalid. -/
def ctxTemp (m : Mach) (x : Nat) : Int :=
  let c := ctxMach m x
  let l := configuredSntc m
  let i := if ctxStore x then l.getD ((x - 256) * l.length / max 1 (getChg m 0).prof.cells) 88 else 39 + c
  let s := getSens m i
  if s.valid then s.t else (getChg m c).tMax

/-- Active Store contexts. -/
def storeCtxs (m : Mach) : List Nat := (List.range 16).map (256 + ·) |>.filter fun x => (getCtx m x).active

/-- The contexts of a machine that are active. -/
def machCtxs (m : Mach) (c : Nat) : List Nat :=
  if c = 0 then storeCtxs m
  else match (getBay m (c - 1)).record with
    | some x => if (getCtx m x).active then [x] else []
    | none => []

/-- SOC_E and sigma_E (R325). -/
def socE (c : Ctx) : Rat := fToRat c.fs
def sigmaE (c : Ctx) : Rat := fToRat (fSqrt (c.p.headD 0))

/-- The reported state of charge (R324, R327, R336). -/
def socRep (c : Ctx) : Rat := if c.noAnchor && !c.stale then socE c else c.soc

/-- The reported deviation (R336): grown by 1 % for each whole 24 h past NO_ANCHOR_H, at most 25 % in all. -/
def sigmaRep (m : Mach) (c : Ctx) : Rat :=
  if c.noAnchor && !c.stale then
    min (1 / 4) (sigmaE c + ((c.anchorAge - m.est.noAnchorH * 3600000) / 86400000 : Nat) / 100)
  else c.sigma

/-- The Store's weakest group (R321). -/
def storeWeakest (m : Mach) : Option Nat :=
  (storeCtxs m).foldl (fun acc x => match acc with
    | none => some x
    | some b => if socRep (getCtx m x) < socRep (getCtx m b) then some x else some b) none

/-- The Store's state of charge as a fraction; 0 where no context is active. -/
def storeSoc (m : Mach) : Rat :=
  match storeWeakest m with
  | some x => socRep (getCtx m x)
  | none => 0

/-- The Store's Q_FULL (R321). -/
def storeQFull (m : Mach) : Nat :=
  match storeCtxs m with
  | [] => 0
  | x :: xs => xs.foldl (fun acc y => min acc (getCtx m y).qFull) (getCtx m x).qFull

/-- Q_FULL of a machine's battery. -/
def machQFull (m : Mach) (c : Nat) : Nat :=
  if c = 0 then storeQFull m else match machCtxs m c with
    | x :: _ => (getCtx m x).qFull
    | [] => 0

/-! ### OCV tables (R329, R332) -/

/-- The 21 points at a temperature, interpolated between the rows, in mV. -/
def ocvRow (tb : OcvTab) (t : Int) : List Rat :=
  let T (i : Nat) : Int := tb.temps.getD i 0
  let R (i : Nat) : List Rat := (tb.rows.getD i []).map fun v : Nat => (v : Rat)
  let mix (i : Nat) : List Rat :=
    let w : Rat := (t - T i : Rat) / (T (i + 1) - T i : Rat)
    ((R i).zip (R (i + 1))).map fun ab => ab.1 + w * (ab.2 - ab.1)
  if t ≤ T 0 then R 0 else if t < T 1 then mix 0 else if t < T 2 then mix 1 else R 2

/-- The state of charge of a voltage in mV, as a fraction, and the slope of its span in mV per %. -/
def ocvInverse (row : List Rat) (v : Rat) : Rat × Rat :=
  let at_ (i : Nat) : Rat := row.getD i 0
  let i := ((List.range 20).find? fun i => v ≤ at_ (i + 1)).getD 19
  let d := at_ (i + 1) - at_ i
  let f := if d = 0 then 0 else (v - at_ i) / d
  let f := if f < 0 then 0 else if 1 < f then 1 else f
  (((i : Rat) + f) / 20, d / 5)

/-- The voltage of a state of charge. -/
def ocvAt (row : List Rat) (s : Rat) : Rat :=
  let x := 20 * (if s < 0 then 0 else if 1 < s then 1 else s)
  let i := min 19 x.floor.toNat
  row.getD i 0 + (x - i) * (row.getD (i + 1) 0 - row.getD i 0)

def ctxRow (m : Mach) (x : Nat) : List Rat := ocvRow (tget m.est.tabs {} (ctxChem m x - 1)) (getCtx m x).temp

/-! ### Learned values (R349) -/

/-- The learned values of a machine's battery queued (R349). -/
def learnMach (m : Mach) (c : Nat) : Mach := forAll m (machCtxs m c) learnWrite

/-! ### The filter (R325 to R328) -/

def fR (n : Int) (d : Nat) : F32 := fOfRat ((n : Rat) / d)

/-- The noise of R326: s, v_p in mV, Zs as a fraction of learned Zs, measurement in mV. -/
def noiseOf (x : Nat) : F32 × F32 × F32 × F32 :=
  if ctxStore x then (fR 2 1000000, fR 2 10, fR 1 1000, fR 15 10) else (fR 5 1000000, fR 5 10, fR 2 1000, fOfInt 4)

/-- Learned Zs in ohm. -/
def zsOhm (c : Ctx) : F32 := fR c.zs 100000

/-- Initialisation (R327). -/
def filterInit (m : Mach) (x : Nat) : Mach :=
  modCtx m x fun c =>
    let z := zsOhm c
    let h := fMul (fR 1 2) z
    { c with fs := fOfRat (socRep c), fvp := 0, fzs := z, nis := 0, nisRun := 0
             p := [fMul (fR 1 10) (fR 1 10), 0, 0, 0, fOfInt 400, 0, 0, 0, fMul h h] }

/-- ocv and docv_ds at a state of charge and temperature (R325, R329): mV and mV per unit. -/
def fOcv (tb : OcvTab) (s t : F32) : F32 × F32 :=
  let x := fMul (fOfInt 20) s
  let i := min 19 (fToRat x).floor.toNat
  let fr := fSub x (fOfInt i)
  let row (r : Nat) : F32 × F32 :=
    let a := fOfInt ((tb.rows.getD r []).getD i 0)
    let b := fOfInt ((tb.rows.getD r []).getD (i + 1) 0)
    (fAdd a (fMul fr (fSub b a)), fMul (fOfInt 20) (fSub b a))
  let T (r : Nat) : F32 := fOfInt (tb.temps.getD r 0)
  let mix (r : Nat) : F32 × F32 :=
    let w := fDiv (fSub t (T r)) (fSub (T (r + 1)) (T r))
    let a := row r
    let b := row (r + 1)
    (fAdd a.1 (fMul w (fSub b.1 a.1)), fAdd a.2 (fMul w (fSub b.2 a.2)))
  if !fLt (T 0) t then row 0 else if fLt t (T 1) then mix 0 else if fLt t (T 2) then mix 1 else row 2

/-- Eta of R324. -/
def etaOf (chem : Nat) (charging : Bool) : Rat := if charging then (if chem = 2 then 999 / 1000 else 998 / 1000) else 1

/-- One step of R325. -/
def ekfStep (m : Mach) (o : EkfObs) : Mach :=
  let x := o.ctx
  let c := getCtx m x
  if !c.active || m.est.halted then m
  else
    let quiet := m.pwr.st = .quiet
    let tb := tget m.est.tabs {} (ctxChem m x - 1)
    let dt := if quiet then fOfInt 1 else fR 1 10
    let i := fOfInt o.iMa
    let v := fR o.vUv 1000
    let t := fOfInt (ctxTemp m x)
    let zl := zsOhm c
    let zp := fR c.zp 100000
    let cp := fOfInt c.cp
    let (ns, nv, nz, nm) := noiseOf x
    let k10 (q : F32) : F32 := if quiet then fMul (fOfInt 10) q else q
    let nzv := fMul nz zl
    let qn : List F32 := [k10 (fMul ns ns), 0, 0, 0, k10 (fMul nv nv), 0, 0, 0, k10 (fMul nzv nzv)]
    let rn := fMul nm nm
    let a := Config.expf (fDiv (fNeg dt) (fMul zp cp))
    let eta := fOfRat (etaOf (ctxChem m x) (0 < o.iMa))
    let s := fAdd c.fs (fDiv (fMul (fMul eta i) dt) (fMul (fOfInt 3600) (fOfInt c.qFull)))
    let vp := fAdd (fMul a c.fvp) (fMul (fMul (fSub (fOfInt 1) a) zp) i)
    let s := fClamp s 0 (fOfInt 1)
    let f (r : Nat) : F32 := if r = 1 then a else fOfInt 1
    let p := (List.range 9).map fun n => fAdd (fMul (fMul (f (n / 3)) (c.p.getD n 0)) (f (n % 3))) (qn.getD n 0)
    let (oc, dv) := fOcv tb s t
    let h := fAdd (fAdd (fAdd oc (fOfRat c.ocvOfs)) vp) (fMul c.fzs i)
    let hj : List F32 := [dv, fOfInt 1, i]
    let dot3 (u w : Nat → F32) : F32 := fAdd (fAdd (fMul (u 0) (w 0)) (fMul (u 1) (w 1))) (fMul (u 2) (w 2))
    let hv (n : Nat) : F32 := hj.getD n 0
    let ph (r : Nat) : F32 := dot3 (fun n => p.getD (3 * r + n) 0) hv
    let sv := fAdd (dot3 hv ph) rn
    let k (r : Nat) : F32 := fDiv (ph r) sv
    let nu := fSub v h
    let s := fAdd s (fMul (k 0) nu)
    let vp := fAdd vp (fMul (k 1) nu)
    let zs := fClamp (fAdd c.fzs (fMul (k 2) nu)) (fMul (fR 1 10) zl) (fMul (fOfInt 10) zl)
    let ik (r n : Nat) : F32 := fSub (if r = n then fOfInt 1 else 0) (fMul (k r) (hv n))
    let p' := (List.range 9).map fun n => dot3 (fun j => ik (n / 3) j) fun j => p.getD (3 * j + n % 3) 0
    let nis := fDiv (fMul nu nu) sv
    modCtx m x fun c =>
      { c with fs := s, fvp := vp, fzs := zs, p := p', nis := nis, stepAt := m.dev.now, stale := false
               nisRun := if fLt (fOfInt 36) nis then c.nisRun + 1 else 0 }

/-! ### Anchors (R331 to R334, R346) -/

inductive AnchorKind where
  | ocv | fit | full
deriving DecidableEq, Repr

/-- A capacity update from an anchor that pairs with an earlier one (R346): the new Q_FULL, a rejection, or neither. -/
def capacityOf (q : Nat) (a : Anchor) (soc : Rat) (restFit : Bool) : Option (Option Nat) :=
  let span := if a.soc < soc then soc - a.soc else a.soc - soc
  let t : Rat := if a.tN = 0 then 0 else (a.tSum : Rat) / a.tN
  if span < 4 / 10 || a.tN = 0 || t < 80 || 360 < t then none
  else
    let qm : Rat := ((a.dq.natAbs : Rat) / 3600000) / span
    if qm < q / 2 || 12 * (q : Rat) / 10 < qm then some none
    else
      let w : Rat := if restFit then 1 / 10 else 1 / 4
      let v : Rat := q + w * (qm - q)
      let v := if v < 95 * (q : Rat) / 100 then 95 * (q : Rat) / 100
        else if 105 * (q : Rat) / 100 < v then 105 * (q : Rat) / 100 else v
      some (some (max v.floor.toNat (ceilDiv (95 * q) 100)))

/-- An anchor taken (R333, R334, R346). -/
def takeAnchor (m : Mach) (x : Nat) (k : AnchorKind) (soc sigma : Rat) : Mach :=
  modCtx m x fun c =>
    let other := if k = AnchorKind.full then c.lastRest else c.lastFull
    let isFull : Bool := k = AnchorKind.full
    let restFit : Bool := match other with
      | some a => if isFull then a.fit else k = AnchorKind.fit
      | none => false
    let cap : Option (Option Nat) := match other with
      | some a => capacityOf c.qFull a soc restFit
      | none => none
    let here : Anchor := { soc := soc, fit := k = AnchorKind.fit }
    let c := match cap with
      | some (some q) => { c with qFull := q, lastFull := none, lastRest := none, learnPending := c.learnPending || q ≠ c.qFull }
      | some none => { c with capRejects := satTo 65535 (c.capRejects + 1)
                              lastFull := if isFull then some here else c.lastFull
                              lastRest := if isFull then c.lastRest else some here }
      | none => { c with lastFull := if isFull then some here else c.lastFull
                         lastRest := if isFull then c.lastRest else some here }
    { c with
      soc := soc, sigma := sigma, anchorAge := 0, anchored := true, noAnchor := false, reAnchored := false
      initFlag := false, flat := false, initDue := false
      anchorKind := if k = AnchorKind.ocv then 1 else if k = AnchorKind.fit then 2 else 3
      fullAge := if isFull then some 0 else c.fullAge
      fs := fOfRat soc, p := fMul (fOfRat sigma) (fOfRat sigma) :: c.p.drop 1 }

/-- A FULL anchor on every context of a machine (R333). -/
def fullAnchor (m : Mach) (c : Nat) : Mach := forAll m (machCtxs m c) fun m x => takeAnchor m x .full 1 (1 / 100)

/-- An OCV anchor (R331, R332, R334, R347) at a rest voltage in mV; where the table is flat, FLAT alone. -/
def ocvAnchor (m : Mach) (x : Nat) (v : Rat) : Mach :=
  let c := getCtx m x
  let row := ctxRow m x
  let (soc, slope) := ocvInverse row (v - c.ocvOfs)
  if 10 * slope < m.est.slope then modCtx m x fun c => { c with flat := true }
  else
    let near := match c.fullAge with
      | some a => a < 43200000 && 95 / 100 ≤ c.soc
      | none => false
    let m := if near then modCtx m x fun c =>
        let o := c.ocvOfs + (v - ocvAt row c.soc - c.ocvOfs) / 4
        let o := if o < -20 then -20 else if 20 < o then 20 else o
        { c with ocvOfs := o, learnPending := c.learnPending || o ≠ c.ocvOfs }
      else m
    takeAnchor m x .ocv soc ((1 + 1 / slope) / 100)

/-- Re-anchoring to the filter (R335). -/
def reAnchor (m : Mach) (x : Nat) : Mach :=
  let c := getCtx m x
  let d := if c.soc < socE c then socE c - c.soc else c.soc - socE c
  if c.anchored && !c.stale && !m.est.halted && 3 * sigmaE c + 2 / 100 < d then
    let m := modCtx m x fun c =>
      { c with soc := socE c, sigma := sigmaE c, reAnchored := true, reAnchors := satTo 65535 (c.reAnchors + 1)
               lastFull := none, lastRest := none }
    if ctxStore x then { m with est := { m.est with reAnchoredW1c := true } } else m
  else m

/-- The least-squares slope of equally spaced points, newest first, `dt` seconds apart, is below REST_DVDT (R331). -/
def slopeOk (dvdt : Nat) (pts : List Int) (dt : Nat) : Bool :=
  let n : Int := pts.length
  let sx : Int := (pts.length * (pts.length - 1) / 2 : Nat)
  let sxx : Int := (((List.range pts.length).map fun k => k * k).sum : Nat)
  let sy := pts.sum
  let sxy := (pts.zipIdx.map fun y => y.1 * (y.2 : Int)).sum
  let num := n * sxy - sx * sy
  let den := (n * sxx - sx * sx) * (dt : Int)
  2 ≤ pts.length && num.natAbs * 600 < dvdt * 1000 * den.natAbs

/-! ### Counting (R324) -/

/-- Q_FULL in mA ms. -/
def qMaMs (c : Ctx) : Nat := c.qFull * 3600000

/-- The count of one 100 ms interval of one context over a charge of `dq` mA ms (R323, R324, R331, R335, R337, R347, R348). -/
def countOne (m : Mach) (o : CtxObs) (dq_ : Int) : Mach :=
  let x := o.ctx
  let temp := ctxTemp m x
  if !(getCtx m x).active then m
  else
    let chem := ctxChem m x
    let ofs := if ctxStore x then 5 else 20
    let done := (getChg m (ctxMach m x)).st = .done && !ctxStore x
    let win := min 600 (m.est.restMin * 60)
    let m := modCtx m x fun c =>
      let q : Rat := qMaMs c
      let dq : Rat := dq_
      let soc := if q = 0 then c.soc else c.soc + etaOf chem (0 < dq_) * dq / q
      let soc := if soc < 0 then 0 else if 1 < soc then 1 else soc
      let sig := if q = 0 then c.sigma else c.sigma + (5 / 1000) * (dq_.natAbs : Rat) / q + (ofs * 100 : Rat) / q
      let rest := 200 * o.iMa.natAbs < c.qFull
      let full := c.secN = 9
      let mean := (c.secSum + o.vUv) / 10
      let moved := if ctxStore x then (if dq_ < 0 then dq_.natAbs else 0) else (if 0 < dq_ then dq_.natAbs else 0)
      let acc := c.cycAcc + moved
      let add (a : Anchor) : Anchor := { a with dq := a.dq + dq_, tSum := a.tSum + temp, tN := a.tN + 1 }
      { c with
        soc := soc, sigma := sig, iMa := o.iMa, vUv := o.vUv, temp := temp
        restMs := if rest then c.restMs + 100 else 0, restNext := if rest then c.restNext else 0
        secN := if full then 0 else c.secN + 1, secSum := if full then 0 else c.secSum + o.vUv
        hist := if full then (mean :: c.hist).take 600 else c.hist
        anchorAge := c.anchorAge + 100, fullAge := c.fullAge.map (· + 100), eisAge := c.eisAge.map (· + 100)
        actMs := c.actMs + 100, lastFull := c.lastFull.map add, lastRest := c.lastRest.map add
        cycAcc := if q ≠ 0 && qMaMs c ≤ acc then acc - qMaMs c else acc
        cycles := if q ≠ 0 && qMaMs c ≤ acc then satTo 65535 (c.cycles + 1) else c.cycles
        learnPending := c.learnPending || (q ≠ 0 && qMaMs c ≤ acc)
        fit := c.fit.map fun f =>
          let n := f.n + 1
          { n := n, sum := if n % 10 = 0 then 0 else f.sum + o.vUv
            pts := if n % 10 = 0 && 100 < n then f.pts ++ [(f.sum + o.vUv) / 10] else f.pts, bad := f.bad || !rest } }
    let c := getCtx m x
    -- the first 1 s mean after activation (R348)
    let m := if c.initDue && c.secN = 0 && !c.hist.isEmpty then
        let (soc, _) := ocvInverse (ctxRow m x) ((c.hist.headD 0 : Rat) / 1000 - c.ocvOfs)
        filterInit (modCtx m x fun c => { c with soc := soc, sigma := 1 / 10, initDue := false, initFlag := true }) x
      else m
    let c := getCtx m x
    let pts := if done then c.doneV.take (win / 60 + 1) else c.hist.take win
    let enough := if done then win / 60 + 1 ≤ pts.length else win ≤ pts.length
    let next := max c.restNext (m.est.restMin * 60000)
    if next ≤ c.restMs && enough && slopeOk m.est.dvdt pts (if done then 60 else 1) then
      let v : Rat := if done then (c.doneV.headD 0 : Rat) / 1000 else ((c.hist.take 10).sum : Rat) / 10000
      let before := (getCtx m x).anchorAge
      let m := ocvAnchor m x v
      if (getCtx m x).anchorAge = 0 && before ≠ 0 then
        modCtx m x fun c => { c with restNext := c.restMs + m.est.restMin * 60000 }
      else reAnchor m x
    else reAnchor m x

/-! ### Activation (R337, R348) -/

/-- A context becomes active with its state of charge to be read from its first second. -/
def activate (m : Mach) (x qNom : Nat) (age : Nat) (known : Bool) : Mach :=
  let m := modCtx m x fun c =>
    let c := if c.hasSlot then c else { defaultLearned c qNom with hasSlot := true, anchorKind := 0 }
    { c with active := true, initDue := true, initFlag := true, sigma := 1 / 10, anchorAge := age
             anchored := known && c.anchorKind ≠ 0, noAnchor := false, reAnchored := false, stale := false, flat := false
             restMs := 0, restNext := 0, hist := [], secN := 0, secSum := 0, doneV := [], fit := none
             lastFull := none, lastRest := none, actMs := 0, stepAt := m.dev.now, fullAge := none }
  filterInit m x

/-- A context stops: learned values and its age stay. -/
def deactivate (m : Mach) (x : Nat) : Mach :=
  modCtx m x fun c => { c with active := false, fit := none, hist := [], doneV := [], restMs := 0, stale := false
                               noAnchor := false, initDue := false, lastFull := none, lastRest := none
                               awayKnown := true }

/-- The Store's contexts of the present profile become active (R320, R348). -/
def activateStore (m : Mach) : Mach :=
  forAll m (List.range (min 16 (getChg m 0).prof.cells)) fun m c => activate m (256 + c) m.est.qNom 0 false

/-- The Store's contexts are queued for saving and stop (R174, R349). -/
def storeLost (m : Mach) : Mach :=
  let xs := storeCtxs m
  forAll (forAll m xs learnWrite) xs deactivate

/-! ### Pack records (R314) -/

/-- A write of record `x`'s learned values is under way (R319). -/
def learnBusy (m : Mach) (x : Nat) : Bool :=
  match m.nvm.cur with
  | some w => w.kind = .learned && w.ctx = some x
  | none => false

/-- Seconds of the always-on counter. -/
def nowS (m : Mach) : Nat := nowMs m / 1000

/-- The context of a bay's record opened, once no write of it is queued (R314, R337, R348). -/
def reopen (m : Mach) (p : Nat) : Mach :=
  match (getBay m p).record with
  | none => m
  | some x =>
    let queued := learnBusy m x || m.nvm.queue.any fun w => w.kind = .learned && w.ctx = some x
    let c := getCtx m x
    if (getBay m p).verdict ≠ 1 || c.active || queued then m
    else
      let age := if c.awayKnown then c.anchorAge + 1000 * (nowS m - (tget m.recs {} x).lastSeen)
        else m.est.noAnchorH * 3600000
      activate m x m.est.qNom age true


end Machine
end Sys2Proof
end

