-- ==== Sys2Proof/Machine/Charge.lean ====
section
/-! DEFINITION. Sys2Proof/Machine/Charge.lean: the charge machines of the Store and the bays (chapter 7), and the events
on the Store. -/
namespace Sys2Proof
namespace Machine

/-- The block whose word carries a machine's causes (R206). -/
def chgBlk (c : Nat) : Nat := if c = 0 then blkStore else c - 1

/-! ### Profiles (R180, R181, R308) -/

/-- A profile in the layout of R180; a numeric field of 0 takes its chemistry's default. -/
def profileOf (p : List Byte) : Profile :=
  let chem := pU p 0 1
  let li := chem ≠ 2
  let d (v a b : Nat) : Nat := if v = 0 then (if li then a else b) else v
  let term := d (pU p 2 2) 4200 3600
  let ov := pU p 4 2
  let fl := pU p 38 1
  let mask := pU p 39 1
  { chem := chem, cells := pU p 1 1, term := term, ov := if ov = 0 then term + 100 else ov
    rech := d (pU p 6 2) 4100 3450, maint := d (pU p 8 2) 4000 3400, pre := d (pU p 10 2) 3000 2500
    cut := d (pU p 12 2) 2800 2300, dead := d (pU p 14 2) 1000 500, iCc := d (pU p 16 4) 5000 5000
    iDsg := d (pU p 20 4) 20000 20000, iPre := d (pU p 24 2) 500 500, iTerm := d (pU p 26 2) 250 250
    ramp := d (pU p 28 2) 100 100, preMin := d (pU p 30 2) 60 60, fastMin := d (pU p 32 2) 600 600
    topoffMin := d (pU p 34 2) 30 30, maintH := d (pU p 36 2) 168 168
    topoffEn := bit fl 0, maintEn := bit fl 1, chgEn := bit fl 2, sntc := if mask = 0 then 0x0F else mask, valid := true }

/-- The ranges of R180 and the order of voltages and currents of R181. -/
def profileOk (p : List Byte) (lowCells : Nat) : Bool :=
  let x := profileOf p
  (x.chem = 1 || x.chem = 2) && within x.cells lowCells 16
    && (if x.chem = 1 then within x.term 4000 4400 else within x.term 3400 3650)
    && within x.ov (x.term + 50) (x.term + 200) && within x.rech (x.term - 400) (x.term - 50)
    && within x.iCc 100 80000 && within x.iDsg 100 120000 && within x.iPre 20 5000 && within x.iTerm 20 5000
    && within x.ramp 10 5000 && within x.preMin 1 600 && within x.fastMin 10 1440 && within x.topoffMin 1 120
    && within x.maintH 1 720 && pU p 38 1 < 8
    && x.dead < x.cut && x.cut < x.pre && x.pre < x.maint && x.maint ≤ x.rech && x.rech < x.term && x.term < x.ov
    && x.iTerm < x.iPre && x.iPre ≤ x.iCc

/-- A Store profile in range, with SYS_FOLD judged with the new profile's cells (R180, R181). -/
def profileFits (m : Mach) (p : List Byte) : Bool :=
  let x := profileOf p
  let trial := pathDerive (modChg m 0 fun c => { c with prof := x })
  profileOk p 4 && pU p 39 1 < 16 && within (x.cells * x.term) (trial.path.sysFold + 500) 59000

/-- A Store profile put in force; contexts follow the number of cells. -/
def putProfile (m : Mach) (x : Profile) : Mach :=
  let old := (getChg m 0).prof.cells
  let m := pathDerive (modChg m 0 fun c => { c with prof := x, chgEn := x.chgEn, newCycle := true })
  let m := if m.path.storePresent && old ≠ x.cells then
      let m := forAll m ((List.range 16).filter fun j => x.cells ≤ j) fun m j => deactivate m (256 + j)
      forAll m ((List.range x.cells).filter fun j => !(getCtx m (256 + j)).active) fun m j =>
        activate m (256 + j) m.est.qNom 0 false
    else m
  ladderApply m

/-- A CHG_EN retained by itself follows the profile's. -/
def chgEnFollows (m : Mach) : Mach :=
  let own := m.nvm.items.any (fun x => x.code = 0x0403) || m.nvm.queue.any fun w => w.item = some (0x0403, 0)
  if own then nvmConfig m 0x0403 0 [0, BitVec.ofNat 8 (flag (getChg m 0).chgEn 0)] else m

/-- STO_PROFILE_SET (R181). -/
def cmdStoProfileSet (m : Mach) (_ : Nat) (p : List Byte) : Ans :=
  refuseFirst [(!profileFits m p, .outOfRange)] <|
    .ok (chgEnFollows (nvmConfig (putProfile m (profileOf p)) 0x0401 0 p)) []

def execStoProfileSet (slot : Nat) (s : State) := command 0x0401 slot cmdStoProfileSet s

/-! ### Windows (R189 to R192) -/

/-- Windows in the layout of R189. -/
def twinOf (p : List Byte) : Twin :=
  { tCold := pI p 0 2, tCool := pI p 2 2, tWarm := pI p 4 2, tHot := pI p 6 2, tDsgCold := pI p 8 2, tDsgHot := pI p 10 2
    hyst := pU p 12 1, dwell := pU p 13 1, coolPct := pU p 14 1, warmDv := pU p 15 1 }

def twinOk (t : Twin) : Bool :=
  -400 ≤ t.tDsgCold && t.tDsgHot ≤ 1200 && t.tDsgCold ≤ t.tCold && t.tCold < t.tCool && t.tCool < t.tWarm
    && t.tWarm < t.tHot && t.tHot ≤ t.tDsgHot && t.hyst ≤ 120 && 1 ≤ t.dwell && within t.coolPct 10 100 && t.warmDv ≤ 250

/-- STO_TWIN_SET (R189). -/
def cmdStoTwinSet (m : Mach) (_ : Nat) (p : List Byte) : Ans :=
  refuseFirst [(!twinOk (twinOf p), .outOfRange)] <| .ok { m with sto := { m.sto with twin := twinOf p } } []

def execStoTwinSet (slot : Nat) (s : State) := command 0x0402 slot cmdStoTwinSet s

/-- The windows of a machine (R206). -/
def twinFor (m : Mach) (c : Nat) : Twin := (getChg m c).twin.getD m.sto.twin

/-- One sample on one side (R190): `beyond k` says the threshold of value k is reached, `clear k` that the way back from
k is open. -/
def sideStep (dwell : Nat) (beyond clear : Nat → Bool) (x : Side) : Side :=
  let n1 := if beyond 1 then min dwell (x.n1 + 1) else 0
  let n2 := if beyond 2 then min dwell (x.n2 + 1) else 0
  let back := if x.v ≠ 0 && clear x.v then min dwell (x.back + 1) else 0
  if x.v < 2 && dwell ≤ n2 then { v := 2, n1 := n1, n2 := n2 }
  else if x.v < 1 && dwell ≤ n1 then { v := 1, n1 := n1, n2 := n2 }
  else if x.v ≠ 0 && dwell ≤ back then { v := x.v - 1, n1 := 0, n2 := 0 }
  else { v := x.v, n1 := n1, n2 := n2, back := back }

/-- The top of a thermistor's range, 125 C (R531): it counts as at or above T_HOT (R190). -/
def atTop (t : Int) : Bool := 1000 ≤ t

/-- A sample of T_MIN and T_MAX (R190, R192). -/
def windowSample (m : Mach) (c : Nat) (tMin tMax : Int) : Mach :=
  let w := twinFor m c
  let h : Int := w.hyst
  modChg m c fun x =>
    let cold := sideStep w.dwell (fun k => tMin < (if k = 1 then w.tCool else w.tCold))
      (fun k => (if k = 1 then w.tCool else w.tCold) + h ≤ tMin) x.cold
    let hot := sideStep w.dwell (fun k => (if k = 1 then w.tWarm else w.tHot) ≤ tMax || atTop tMax)
      (fun k => tMax ≤ (if k = 1 then w.tWarm else w.tHot) - h && !atTop tMax) x.hot
    let one (beyond clear : Bool) (s : Side) : Side :=
      let n2 := if beyond then min w.dwell (s.n2 + 1) else 0
      let back := if s.v = 2 && clear then min w.dwell (s.back + 1) else 0
      if s.v = 0 && w.dwell ≤ n2 then { v := 2, n2 := n2 }
      else if s.v = 2 && w.dwell ≤ back then {} else { s with n2 := n2, back := back }
    let ch := (if cold.v = x.cold.v then 0 else 1) + (if hot.v = x.hot.v then 0 else 1)
    { x with
      cold := cold, hot := hot, tMin := tMin, tMax := tMax, winTransitions := satTo 65535 (x.winTransitions + ch)
      dsgCold := one (tMin < w.tDsgCold) (w.tDsgCold + h ≤ tMin) x.dsgCold
      dsgHot := one (w.tDsgHot < tMax) (tMax ≤ w.tDsgHot - h) x.dsgHot }

/-- The discharge window is closed (R192). -/
def dsgBlocked (m : Mach) : Bool := (getChg m 0).dsgCold.v = 2 || (getChg m 0).dsgHot.v = 2

/-- A charge-suspending window (R191). -/
def winSuspends (x : ChgM) : Bool := x.cold.v = 2 || x.hot.v = 2

/-! ### Targets (R184, R185) -/

/-- The pack target of R184. -/
def vTermPack (m : Mach) (c : Nat) : Nat :=
  let x := getChg m c
  let cell := if x.st = .maint then x.prof.maint else x.prof.term
  x.prof.cells * (cell - (if x.hot.v = 1 then (twinFor m c).warmDv else 0)) - (if c = 0 then x.imbTrim else 0)

/-- I_STATE of R182. -/
def iState (x : ChgM) : Nat :=
  match x.st with
  | .precharge => x.prof.iPre
  | .softstart => x.rampMa
  | .cc | .cv | .topoff => x.prof.iCc
  | .maint => if x.maintChg then min x.rampMa x.prof.iCc else 0
  | _ => 0

/-- I_STATE x F_WIN. -/
def iWin (m : Mach) (c : Nat) : Nat :=
  let x := getChg m c
  if x.cold.v = 1 then iState x * (twinFor m c).coolPct / 100 else iState x

/-- The battery voltage of a machine in mV. -/
def vBat (m : Mach) (c : Nat) : Nat := if c = 0 then m.path.vstsMv else (getChg m c).vMv

/-- The sinusoid of a spectroscopy run now, in mA (R341, R342): A sin(2 pi f t) in the settling and measured cycles, 0 in the pause
before them. The sine's values are left open (log entry 107). -/
def eisSine (m : Mach) (c : Nat) : Int :=
  match m.est.eis.find? fun r => r.mach = c with
  | none => 0
  | some r =>
    let span := ms ([500, 1000, 2500, 9000, 40000].getD r.idx 0)
    let t := m.dev.now + span - r.freqAt
    let mHz := [1000000, 100000, 10000, 1000, 100].getD r.idx 0
    if r.freqAt ≤ m.dev.now + span then
      (r.ampMa : Int) * clampI (-1000000) 1000000 (Config.sine (mHz * t % 1000000000000)) / 1000000
    else 0

/-- I_CHG of R185, before its rise; I_BIAS and the sinusoid in its place during a spectroscopy run (R341). -/
def iChg (m : Mach) (c : Nat) : Nat :=
  let x := getChg m c
  let h := if c = 0 then 49 else c - 1
  let v := vBat m c
  let lift := if v = 0 then 0 else (getHold m h).grant * 1000 / v
  -- R400 steps 2 and 3, R416: a parked station charges no bay, and in a hold no Store
  let parked := m.grd.holdParked || (c ≠ 0 && m.grd.wdhPark)
  match x.bias with
  | some b => if parked then 0 else ((b : Int) + eisSine m c).toNat
  | none => if x.paused || parked then 0 else min (min (iWin m c) (iState x * x.thmPct / 100)) lift

/-- The references of a machine given to its regulator (R159, R206): the ladder, or PCp. -/
def chgApply (m : Mach) (c : Nat) : Mach :=
  let i := iChg m c
  -- R38, R399: without a Bib holder the last committed values stay until the hold parks
  if chgPermits (getChg m c) && !holderRuns m && !m.grd.holdParked then m
  else
  let m := modChg m c fun x => { x with iNow := if x.rise then min x.iNow i else i, rise := x.rise && x.iNow < i }
  if c = 0 then ladderApply m
  else
    let p := c - 1
    let x := getChg m c
    if (getBay m p).st = .trickle then m
    else if !chgPermits x then (if (getCv m p).run then setRef m p 1 0 else m)
    else if (getCv m p).run && (getCv m p).vbg then setRef (setRef m p 1 x.iNow) p 0 x.vChg
    else if !(getCv m p).run && !(getCv m p).starting && !x.paused && i ≠ 0 && !bayHeld m p then requestStart m p
    else m

/-- V_CHG_UPDATE (R184): every 1 ms; the ramps of R182, R188 and R151 advance in the same step. The first value after OFF is taken
without a step (DESIGN CHOICE, log entry 106). -/
def vChgUpdate (m : Mach) (c : Nat) (d : Int) : Mach :=
  let lim := if c = 0 then 1000 else 500
  let target := min (vTermPack m c + (clampI 0 lim d).toNat) 59800
  let held := c = 0 && m.path.transAt.isSome
  let i := iChg m c
  let m := modChg m c fun x =>
    let ramping := x.st = .softstart || (x.st = .maint && x.maintChg)
    { x with
      vChg := if x.vChg = 0 then target else if x.vChg + 20 < target then x.vChg + 20
        else if target + 20 < x.vChg then x.vChg - 20 else target
      rampMa := if held then 0 else if ramping then min x.prof.iCc (x.rampMa + x.prof.ramp) else x.rampMa
      iNow := if x.rise && !held then min i (x.iNow + x.prof.ramp) else x.iNow }
  chgApply m c

def execVChgUpdate (m : Nat) (dMv : Int) (s : State) : Host.Outcome State Fault Refusal :=
  guardUnit (m < 49) s fun mc => when ((getChg mc m).st ≠ .off && holderRuns mc) mc fun mc => vChgUpdate mc m dMv

/-! ### Cells (R176, R186, R197) -/

/-- The cell voltages the taps show, for the profile's cells. -/
def cellMvs (m : Mach) : List Nat :=
  (List.range (getChg m 0).prof.cells).map fun c => m.sto.taps.getD (c + 1) 0 - m.sto.taps.getD c 0

/-- The lowest and highest cell of a machine's battery. -/
def cellLow (m : Mach) (c : Nat) : Nat :=
  if c = 0 then (match cellMvs m with
    | [] => 0
    | v :: vs => vs.foldl min v)
  else let x := getChg m c; if x.prof.cells = 0 then 0 else x.vMv / x.prof.cells

def cellHigh (m : Mach) (c : Nat) : Nat :=
  if c = 0 then (cellMvs m).foldl max 0 else cellLow m c

/-- IMB_TRIM_ADJUST (R186). -/
def imbTrimAdjust (m : Mach) : Mach :=
  let x := getChg m 0
  if (x.st = .cv || x.st = .topoff) && m.sto.tapsRead then
    let v := x.prof.term - (if x.hot.v = 1 then m.sto.twin.warmDv else 0)
    let hi := cellHigh m 0
    modChg m 0 fun x =>
      { x with imbTrim := if v + 30 < hi then min (50 * x.prof.cells) (x.imbTrim + 10)
          else if hi < v + 10 then x.imbTrim - 10 else x.imbTrim }
  else m

/-! ### Transitions (R182 to R188) -/

/-- A charge cycle begins: timers, RESTARTED and IMB_TRIM cleared (R183, R193). -/
def cycleStart (m : Mach) (c : Nat) : Mach :=
  modChg m c fun x => { x with preT := {}, fastT := {}, expired := false, timerOff := false, restarted := false, imbTrim := 0
                               newCycle := false, fullAnchor := false, warmDone := false, pauseRun := false }

/-- A bay's converter stops where its machine charges no more (R206). -/
def bayStop (m : Mach) (c : Nat) : Mach := if c = 0 then m else stopRun m (c - 1)

/-- STOPPED with a cause (R183, R195 to R197). -/
def chgStop (m : Mach) (c cause : Nat) : Mach :=
  bayStop (modChg (chgEnter m c .stopped) c fun x => { x with cause := cause, expired := false }) c

/-- SUSPENDED with a cause of R202; a bay that waits for a new verdict keeps the last one. -/
def chgSuspend (m : Mach) (c cause : Nat) : Mach :=
  modChg (chgEnter m c .suspended) c fun x => { x with cause := if cause < 10 then cause else x.cause }

/-- The condition that suspends a machine now, as a cause of R202; 0 none (R183, R21, R191, R196, R206). -/
def suspendCause (m : Mach) (c : Nat) : Nat :=
  let x := getChg m c
  let oc : Bool := match x.ocUntil with
    | some t => m.dev.now < t
    | none => false
  if x.hot.v = 2 then 6 else if x.cold.v = 2 then 5
  else if c = 0 && ((getBlk m (blkLinkE + 1)).fence.isSome || !m.sto.tapsRead) then 7
  else if oc then 4 else x.linkStop

/-- The machine must be OFF (R183): CHG_EN 0, no profile, no Store or a fence; a bay without a verified pack. A bay is enabled by its
own CHG_EN and by that of its pack's profile together (DESIGN CHOICE, log entry 106). -/
def mustBeOff (m : Mach) (c : Nat) : Bool :=
  let x := getChg m c
  !x.chgEn || !x.prof.valid ||
    (if c = 0 then !m.path.storePresent || (getBlk m blkStore).fence.isSome
     else !x.prof.chgEn || (getBlk m (c - 1)).fence.isSome || !(packPresent m (c - 1)))

/-- DONE entered by termination (R187, R333, R349). -/
def terminate (m : Mach) (c : Nat) : Mach :=
  let warm := (getChg m c).hot.v = 1
  let m := chgEnter m c .done
  let m := modChg m c fun x => { x with fullAnchor := !warm, warmDone := warm, expired := false }
  let m := if warm then m else fullAnchor m c
  bayStop (learnMach m c) c

/-- Charge counted out of the battery since a state was entered, in mA ms. -/
def dischargedSince (m : Mach) (c : Nat) : Int := (getChg m c).mark - tget m.est.acc 0 c

/-- Termination holds (R187): ten unlimited seconds below I_TERM with the voltage at its target. -/
def terminated (m : Mach) (c : Nat) : Bool :=
  let x := getChg m c
  10 ≤ x.termRun && vTermPack m c ≤ vBat m c + 10 * x.prof.cells

/-- One evaluation of R183 past OFF. `run` counts evaluations in a row for which the state's condition has held. -/
def chgStep (m : Mach) (c : Nat) : Mach :=
  let x := getChg m c
  let v := vBat m c
  let n := x.prof.cells
  let vt := vTermPack m c
  let low := cellLow m c
  let sus := suspendCause m c
  let hold (cond : Bool) (k : Nat) (yes : Mach → Mach) : Mach :=
    if !cond then modChg m c fun x => { x with condRun := 0 }
    else if k ≤ x.condRun then yes m
    else modChg m c fun x => { x with condRun := x.condRun + 1 }
  if chgRunning x && sus ≠ 0 then chgSuspend m c sus
  else
    match x.st with
    | .check | .recharge =>
      if sus = 7 then chgSuspend m c 7
      else if low < x.prof.dead then chgStop (note m (chgBlk c) .cellDead 3) c 1
      else if sus ≠ 0 && sus ≠ 4 then chgSuspend m c sus
      else if x.st = .check && n * x.prof.rech ≤ v then bayStop (chgEnter m c .done) c
      else if x.st = .check && low < x.prof.pre then chgEnter m c .precharge
      else chgEnter m c .softstart
    | .precharge => hold (x.prof.pre + 100 ≤ low) 10 fun m => chgEnter m c .softstart
    | .softstart | .cc =>
      hold (vt ≤ v + 10 * n) 10 (fun m => chgEnter m c .cv) |> fun m =>
        let y := getChg m c
        if y.st = .softstart && y.prof.iCc ≤ y.rampMa then chgEnter m c .cc else m
    | .cv =>
      if terminated m c then (if x.prof.topoffEn then chgEnter m c .topoff else terminate m c)
      else hold (v + 50 * n < vt) 10 fun m => chgEnter m c .cc
    | .topoff =>
      if x.entered + sec (60 * x.prof.topoffMin) ≤ m.dev.now || 10 ≤ x.termRun then terminate m c else m
    | .done =>
      let again (m : Mach) : Mach := chgEnter (cycleStart m c) c .recharge
      if x.fullReq || (x.warmDone && x.hot.v = 0) then again m
      else if c = 0 && x.prof.maintEn && x.entered + sec (3600 * x.prof.maintH) ≤ m.dev.now
          && 20 * dischargedSince m c < (machQFull m c * 3600000 : Nat) then chgEnter m c .maint
      else hold (v < n * x.prof.rech) 100 again
    | .maint =>
      if x.fullReq || (machQFull m c * 3600000 : Nat) ≤ 5 * dischargedSince m c then
        chgEnter (cycleStart m c) c .recharge
      else if x.maintChg then
        (if terminated m c then modChg m c fun x => { x with maintChg := false, termRun := 0 } else m)
      else
        hold (v < n * (x.prof.maint - (x.prof.term - x.prof.rech))) 100 fun m =>
          modChg m c fun x =>
            { x with maintChg := true, rampMa := 0, fastT := {}, timerOff := false, condRun := 0, termRun := 0 }
    | .suspended => if sus = 0 then chgEnter m c .check else m
    | _ => m

/-- A side has moved: its effect on the charge is taken at once (R183, R191). -/
def windowAct (m : Mach) (c : Nat) (tMin tMax : Int) : Mach :=
  let old := getChg m c
  let m := windowSample m c tMin tMax
  let x := getChg m c
  if (x.cold.v = old.cold.v && x.hot.v = old.hot.v) || (c ≠ 0 && m.ui.washdown) || mustBeOff m c then m
  else
    let m :=
      if (x.st = .suspended && suspendCause m c = 0) || (winSuspends x && (chgRunning x || x.st = .check || x.st = .recharge)) then
        chgStep m c
      else m
    chgApply m c

/-- The current of a trickle: what the pack was granted, I_TRICKLE at a full grant, and none in a charge-suspending window
(R185, R311). -/
def trickleRef (m : Mach) (p : Nat) : Nat :=
  let b := getBay m p
  if winSuspends (getChg m (p + 1)) then 0 else min b.trickleMa ((getHold m p).grant * 1000 / max 1 b.trickleMv)

/-- A trickle in progress (R311): it ends at its voltage limit, and the Store's windows hold it at 0. -/
def trickleStep (m : Mach) (p : Nat) : Mach :=
  let b := getBay m p
  let x := getChg m (p + 1)
  if b.st ≠ .trickle || b.trickleMv = 0 then m
  else if b.trickleMv ≤ x.vMv then stopRun (modBay m p fun b => { b with trickleMv := 0 }) p
  else if (getCv m p).run && (getCv m p).vbg then setRef m p 1 (trickleRef m p)
  else m

/-- CHG_EVAL (R183): every 100 ms. A bay's machine holds its state in washdown (R250). -/
def chgEval (m : Mach) (c vMv : Nat) (iMa : Int) : Mach :=
  if c ≠ 0 && m.ui.washdown then m else
  -- a bay in DONE is judged by its reading of every 60 s (R206)
  let m := modChg m c fun x => { x with vMv := if c ≠ 0 && x.st = .done then x.vMv else vMv, iMa := iMa }
  let m := if c = 0 then { m with path := { m.path with vstsMv := vMv } } else m
  let m :=
    if !holderRuns m then m
    else if mustBeOff m c then (if (getChg m c).st = .off then m else chgEnter (bayStop m c) c .off)
    else if (getChg m c).st = .off || (getChg m c).newCycle then chgEnter (cycleStart m c) c .check
    else chgStep m c
  let m := if c = 0 then m else trickleStep m (c - 1)
  chgApply m c

def execChgEval (m : Nat) (vMv : Nat) (iMa : Int) (s : State) : Host.Outcome State Fault Refusal :=
  guardRead (m < 49) (sysRated vMv) s fun mc => chgEval mc m vMv iMa

/-! ### Timers (R193 to R195) -/

/-- The running timer's length in ms; 0 if none runs (R193). -/
def timerLen (x : ChgM) : Nat :=
  if x.timerOff then 0
  else match x.st with
  | .precharge => x.prof.preMin * 60000
  | .softstart | .cc | .cv | .topoff => x.prof.fastMin * 60000
  | .maint => if x.maintChg then x.prof.fastMin * 60000 else 0
  | _ => 0

/-- The timer that runs, or that SUSPENDED pauses. -/
def timerOf (x : ChgM) : ChgTimer := if x.st = .precharge then x.preT else x.fastT

/-- CHG_TIMER_SECOND (R194, R187). -/
def chgTimerSecond (m : Mach) (c : Nat) (noFeeder feederIsrcFold : Bool) (iMa : Int) (vMv : Nat) : Mach :=
  let x := getChg m c
  let len := timerLen x
  let m := modChg m c fun x => { x with iMa := iMa, vMv := if c ≠ 0 && x.st = .done then x.vMv else vMv }
  if len = 0 || (c ≠ 0 && m.ui.washdown) then m
  else
    let lim := (c = 0 && m.path.mode = .linear && m.path.linCapped) || noFeeder || feederIsrcFold || x.iNow < iState x
    let t := timerOf x
    let t' : ChgTimer := { runMs := t.runMs + (if lim then 500 else 1000), spanS := t.spanS + 1
                           limS := t.limS + if lim then 1 else 0 }
    let low := if x.st = .topoff then 2 * iMa < x.prof.iTerm else iMa < x.prof.iTerm
    let counts := x.st = .cv || x.st = .topoff || x.st = .maint
    modChg m c fun x =>
      { x with preT := if x.st = .precharge then t' else x.preT, fastT := if x.st = .precharge then x.fastT else t'
               limited := lim, expired := len ≤ t'.runMs, termRun := if counts && low && !lim then x.termRun + 1 else 0 }

def execChgTimerSecond (m : Nat) (noFeeder feederIsrcFold : Bool) (iMa : Int) (vMv : Nat) (s : State) :
    Host.Outcome State Fault Refusal :=
  guardRead (m < 49) (sysRated vMv) s fun mc => chgTimerSecond mc m noFeeder feederIsrcFold iMa vMv

/-- CHG_TIMER_EXPIRE (R194, R195, R207): termination in the same second governs. -/
def chgTimerExpire (m : Mach) (c : Nat) : Mach :=
  let x := getChg m c
  let term := (x.st = .cv && terminated m c) || (x.st = .topoff && 10 ≤ x.termRun) || (x.st = .maint && x.maintChg && terminated m c)
  if !x.expired then m
  else if term then chgApply (chgStep (modChg m c fun x => { x with expired := false, timerOff := true }) c) c
  else
    let t := timerOf x
    let m := journal (note m (chgBlk c) .chgTimer 3) .chgTimer (chgBlk c)
    if !x.restarted && t.spanS < 2 * t.limS then
      let m := modChg m c fun x => { x with restarted := true, expired := false, preT := {}, fastT := {}, timerOff := false, cause := 3 }
      chgApply (chgEnter m c .check) c
    else chgApply (chgStop m c 3) c

def execChgTimerExpire (m : Nat) (s : State) : Host.Outcome State Fault Refusal :=
  guardUnit (m < 49) s fun mc => chgTimerExpire mc m

/-! ### Faults (R196, R197, R199) -/

/-- The excess of R196. -/
def ocExcess (m : Mach) (c : Nat) (i : Int) : Bool := 5 * ((getChg m c).iNow : Int) + 800 < 4 * i

/-- CHG_OC (R196): above 1.25 I_CHG + 200 mA for 5 ms. -/
def chgOc (m : Mach) (c : Nat) (i : Int) : Mach :=
  if !chgPermits (getChg m c) || !ocExcess m c i || (getChg m c).ocAt.isSome then m
  else
    match (if c = 0 then maskedBy m .chgOc else none) with
    | some o => consequential m blkStore .chgOc o
    | none =>
      let m := setLive (detect m (chgBlk c) .chgOc 3 10000).1 (chgBlk c) .chgOc 3 true
      let m := modChg m c fun x => { x with iMa := i, ocAt := after m (ms 50) }
      if c = 0 then forAll m m.path.donors fun m p => setRef m p 1 0 else m

def execChgOc (m : Nat) (iMa : Int) (s : State) : Host.Outcome State Fault Refusal :=
  guardUnit (m < 49) s fun mc => chgOc mc m iMa

/-- CHG_OC_PERSIST (R196): 50 ms after the detection. -/
def chgOcPersist (m : Mach) (c : Nat) (i : Int) : Mach :=
  let again := ocExcess m c i && chgPermits (getChg m c)
  let m := setLive (modChg m c fun x => { x with ocAt := none, iMa := i }) (chgBlk c) .chgOc 3 false
  if !again then m
  else
    let recent := (getChg m c).ocTimes.filter fun t => m.dev.now < t + sec 600
    -- R183: ended 10 s after it was raised, 50 ms ago
    let m := modChg m c fun x => { x with ocTimes := recent ++ [m.dev.now], ocUntil := after m (ms 9950) }
    chgApply (if 2 ≤ recent.length then chgStop m c 4 else chgSuspend m c 4) c

def execChgOcPersist (m : Nat) (iMa : Int) (s : State) : Host.Outcome State Fault Refusal :=
  guardUnit (m < 49) s fun mc => fire mc (getChg mc m).ocAt fun mc => chgOcPersist mc m iMa

/-- CELL_OV (R197, R207): above VCELL_OV_MV in two consecutive readings; a machine that is OFF stays so (R183). -/
def cellOv (m : Mach) (c mv : Nat) : Mach :=
  let x := getChg m c
  if !x.prof.valid || mv ≤ x.prof.ov then m
  else if x.st = .off then note m (chgBlk c) .cellOv 3
  else
    let m := note m (chgBlk c) .cellOv 3
    let m := if x.expired then forAll m (blocksOf (chgBlk c)) fun m b => modBlk m b fun w =>
        blkRecord w (codeOf .chgTimer) 3 (nowMs m) m.dev.aonTick true
      else m
    chgApply (chgStop (learnMach m c) c 2) c

def execCellOv (m cellMv : Nat) (s : State) : Host.Outcome State Fault Refusal :=
  guardRead (m < 49) (cellMv ≤ 65000) s fun mc => cellOv mc m cellMv

/-- The Store fenced, its contexts saved (R349, R385). -/
def storeFence (m : Mach) (c : Cause) : Mach := fenceStore (storeLost m) (codeOf c)

/-- LIN_OVERLOAD (R150): a dissipation above 1.5 times PD_CAP_MW for 1 ms. -/
def execLinOverload (sysMv vstsMv : Nat) (storeMa : Int) (s : State) : Host.Outcome State Fault Refusal :=
  guardRead true (sysRated sysMv && sysRated vstsMv) s fun m =>
    when (m.path.mode = .linear && 1500 * (m.path.pdCapMw : Int) < ((sysMv : Int) - vstsMv) * storeMa) m fun m =>
      let (m, act) := detect m blkStore .linOverload 5 10000
      if act then storeFence m .linOverload else m

/-- DSG_OC (R199): above the limit for 100 ms, above twice the limit for 1 ms, or back within it. -/
def dsgOc (m : Mach) (i : Int) : Mach :=
  let lim : Int := (getChg m 0).prof.iDsg
  if !m.path.storePresent || !(getChg m 0).prof.valid then m
  else if 2 * lim < -i then
    let (m, act) := detect m blkStore .dsgOc 5 10000
    if act then storeFence (setLive m blkStore .dsgOc 3 false) .dsgOc else m
  else if lim < -i then
    if isLive m blkStore (codeOf .dsgOc) then m
    else setLive (detect m blkStore .dsgOc 3 10000).1 blkStore .dsgOc 3 true
  else setLive m blkStore .dsgOc 3 false

def execDsgOc (iMa : Int) (s : State) : Host.Outcome State Fault Refusal := guardUnit true s fun m => dsgOc m iMa

/-- A cell lies within `d` mV of VCELL_OV or VCELL_CUT (R197). -/
def cellNear (m : Mach) (d : Nat) : Bool :=
  let pr := (getChg m 0).prof
  pr.valid && (cellMvs m).any fun v => (v ≤ pr.ov + d && pr.ov ≤ v + d) || (v ≤ pr.cut + d && pr.cut ≤ v + d)

/-- The lane is entered within 50 mV (R197). -/
def laneEnter (m : Mach) : Mach :=
  if cellNear m 50 then { m with sto := { m.sto with cellLane := true, laneAway := 0 } } else m

/-- CELL_TAP_FAST_LANE (R197): in their lane the taps are read, and leave it after 1 s more than 70 mV away. -/
def cellTapFastLane (m : Mach) (taps : List Nat) : Mach :=
  if !m.sto.cellLane then laneEnter m
  else
    let m := { m with sto := { m.sto with taps := taps } }
    let away := if cellNear m 70 then 0 else m.sto.laneAway + 1
    { m with sto := { m.sto with cellLane := away < 1000, laneAway := away } }

def execCellTapFastLane (taps : List Nat) (s : State) : Host.Outcome State Fault Refusal :=
  guardRead (taps.length = 17) (taps.all (· ≤ 65000)) s fun m =>
    when ((getChg m 0).prof.valid && (getBlk m (blkLinkE + 1)).fence.isNone) m fun m => cellTapFastLane m taps

/-! ### Control and status (R200 to R202) -/

/-- CHG_EN written (R200). -/
def setChgEn (m : Mach) (p : List Byte) : Ans :=
  .ok (modChg m (pU p 0 1) fun x => { x with chgEn := pU p 1 1 = 1 }) []

/-- STO_CHG_CTRL (R200). -/
def cmdStoChgCtrl (m : Mach) (_ : Nat) (p : List Byte) : Ans :=
  let c := pU p 0 1
  let a := pU p 1 1
  let x := getChg m c
  refuseFirst
    [(48 < c || 3 < a || (c ≠ 0 && !isBay m (c - 1)), .outOfRange),
     (a = 2 && (x.st ≠ .stopped || x.prof.term < cellHigh m c), .notInState),
     (a = 3 && x.st ≠ .done && x.st ≠ .maint, .notInState)] <|
    if a < 2 then (if c = 0 then persist 0x0403 0 p (setChgEn m p) else setChgEn m p)
    else if a = 2 then .ok (chgEnter (cycleStart m c) c .check) []
    else .ok (modChg m c fun x => { x with fullReq := true }) []

def execStoChgCtrl (slot : Nat) (s : State) := command 0x0403 slot cmdStoChgCtrl s

/-- The code of a state (R182). -/
def chgCode : ChgSt → Nat
  | .off => 0 | .check => 1 | .precharge => 2 | .softstart => 3 | .cc => 4 | .cv => 5 | .topoff => 6 | .done => 7
  | .recharge => 8 | .maint => 9 | .suspended => 10 | .stopped => 11

/-- STO_CHG_STAT (R201). -/
def chgStatWord (m : Mach) : Nat :=
  let x := getChg m 0
  let len := timerLen x
  let pct := if len = 0 then 0 else satTo 100 ((timerOf x).runMs * 100 / len)
  chgCode x.st * 2 ^ 28 + x.cold.v * 2 ^ 26 + x.hot.v * 2 ^ 24 + flag x.limited 23 + flag x.restarted 22
    + flag x.fullAnchor 21 + flag x.warmDone 20 + flag (0 < x.imbTrim) 19 + flag x.maintChg 18 + flag (x.chgEn && m.dev.recallDone) 17
    + flag (dsgBlocked m) 16 + pct * 2 ^ 9

/-- STO_CHG_STAT_GET (R202). -/
def cmdStoChgStatGet (m : Mach) (_ : Nat) (p : List Byte) : Ans :=
  let c := pU p 0 1
  refuseFirst [(48 < c || (c ≠ 0 && !isBay m (c - 1)), .outOfRange)] <|
    let x := getChg m c
    let t : ChgTimer := if timerLen x = 0 then {} else timerOf x
    let v := if c = 0 then x.vChg else ((tget (getCv m (c - 1)).ctrl.loops {} 0).ref / 65536).toNat
    .ok m ([BitVec.ofNat 8 (chgCode x.st), BitVec.ofNat 8 x.cause] ++ le 2 x.winTransitions ++ le 4 v
      ++ le 4 (vTermPack m c) ++ le 4 x.iNow ++ leI 4 x.iMa ++ leI 2 x.tMin ++ leI 2 x.tMax ++ le 4 t.runMs
      ++ le 4 t.spanS ++ le 4 t.limS ++ le 2 (cellLow m c) ++ le 2 (cellHigh m c)
      ++ le 2 (if c = 0 then x.imbTrim else 0) ++ [0, 0])

def execStoChgStatGet (slot : Nat) (s : State) := command 0x0404 slot cmdStoChgStatGet s

/-! ### The Store's removal and acceptance (R173 to R176) -/

/-- STORE_REMOVAL (R173, R174, R179, R207): detectors 0 charge step, 1 discharge step, 2 thermistor, 3 taps. -/
def storeRemoval (m : Mach) (det sys vsts mean : Nat) (i : Int) : Mach :=
  let p := m.path
  let x := getChg m 0
  let hit : Bool :=
    if det = 0 then p.mode = .on && chgPermits x && x.vChg + 300 < sys && 10 * i < x.iNow
    else if det = 1 then (p.mode = .on || p.mode = .diode) && (mean + 500 < sys || sys + 500 < mean) && -100 ≤ i && i ≤ 100
    else if det = 2 then true
    else vsts < 2000 || (8000 ≤ vsts && m.sto.tapsRead && m.sto.taps.getD 16 0 - m.sto.taps.getD 0 0 < x.prof.cells * 1000)
  if !p.storePresent || (getBlk m blkStore).fence.isSome || !hit then m
  else
    match (if det = 1 then maskedBy m .dischargeStep else none) with
    | some o => consequential m blkStore .storeRemoved o
    | none =>
      let (m, act) := detect m blkStore .storeRemoved 5 10000
      if !act then m
      else
        let m := { m with path := { m.path with vstsMv := vsts, sysMv := sys } }
        let m := storeFence m .storeRemoved
        let m := { m with path := { m.path with sysTgt := mean, sysTgtSet := true } }
        let m := modChg m 0 fun x => { x with preT := {}, fastT := {}, expired := false, iNow := 0 }
        let m := ladderApply (journal m .storeRemoved blkStore)
        -- R179: a scan in progress is abandoned and its input restarts at its previous floor
        forAll m ((List.range 6).filter fun j => (getInp m j).scanning) fun m j =>
          let m := modInp m j fun y => { y with scanning := false, scanEndAt := none }
          if inputLive m j && (getInp m j).stopped = 0 then requestStart m (48 + j) else m

def execStoreRemoval (detector : Nat) (sysMv vstsMv meanSysMv : Nat) (storeMa : Int) (s : State) :
    Host.Outcome State Fault Refusal :=
  guardRead (detector < 4) (sysRated sysMv && sysRated vstsMv && sysRated meanSysMv) s fun m =>
    storeRemoval m detector sysMv vstsMv meanSysMv storeMa

/-- The cell count the taps show; none where they show no valid count (R176). -/
def tapCount (taps : List Nat) : Option Nat :=
  let d (n : Nat) : Nat := taps.getD (n + 1) 0 - taps.getD n 0
  let hi := (List.range 16).filter fun n => 300 < d n
  match hi.getLast? with
  | none => if (List.range 16).any fun n => 50 ≤ d n then none else some 0
  | some n => if ((List.range 16).filter fun j => n < j).any fun j => 50 ≤ d j then none else some (n + 1)

/-- A Store may be judged: none present, no fence but STORE_REMOVED, its taps read, every configured SNTC in range. -/
def storeJudged (m : Mach) (vsts : Nat) : Bool :=
  let fence := (getBlk m blkStore).fence
  !m.path.storePresent && (fence.isNone || fence = some (codeOf .storeRemoved)) && 2000 ≤ vsts && m.sto.tapsRead
    && (List.range 4).all fun n => !bit (getChg m 0).prof.sntc n || (getSens m (88 + n)).valid

/-- A Store that was present at power-up is fenced where its taps show another cell count than the profile's (R175). -/
def storeTaps (m : Mach) : Mach :=
  let pr := (getChg m 0).prof
  if !(m.path.storeJudge && m.path.storePresent && m.sto.tapsRead && pr.valid) then m
  else
    let m := { m with path := { m.path with storeJudge := false } }
    if tapCount m.sto.taps = some pr.cells then m
    else
      let (m, act) := detect m blkStore .storeMismatch 5 10000
      if act then storeFence m .storeMismatch else m

/-- STORE_ACCEPT (R175, R176): VSTS within 1 % for 500 ms, a round of taps read, every configured SNTC in range. A Store
of another cell count, or above 60 V, is fenced. A fence of STORE_REMOVED does not stand in the way. -/
def storeAccept (m : Mach) (vsts : Nat) : Mach :=
  let pr := (getChg m 0).prof
  if !storeJudged m vsts then m
  else if 60000 < vsts || (pr.valid && tapCount m.sto.taps ≠ some pr.cells) then
    let (m, act) := detect m blkStore .storeMismatch 5 10000
    if act then storeFence m .storeMismatch else m
  else
    let tgt := if vsts + 300 < m.path.sysMin then m.path.sysMin else vsts
    let m := { m with path := { m.path with storePresent := true, joining := true, vstsMv := vsts, sysTgt := tgt
                                            sysTgtSet := true } }
    ladderApply (activateStore m)

def execStoreAccept (vstsMv : Nat) (s : State) : Host.Outcome State Fault Refusal :=
  guardRead true (sysRated vstsMv) s fun m => storeAccept m vstsMv

end Machine
end Sys2Proof
end

