-- ==== Sys2Proof/Machine/Lift.lean ====
section
/-! DEFINITION. Sys2Proof/Machine/Lift.lean: the power budget and its passes (chapter 8). The delivery of a grant to a
PD core stands in Pd.lean. -/
namespace Sys2Proof
namespace Machine

/-! ### Thermal caps (R364, R369) -/

def thmCap (m : Mach) (sc : Nat) : ThmCap := tget m.thm.caps {} sc

/-- The lowest cap on a port's pass: FE 75 % and 50 %, PORT 50 % and the park level, of the pass at the cap's entry. -/
def passCap (m : Mach) (p : Nat) : Option Nat :=
  let h := getHold m p
  let base := match h.thmBase with
    | some b => if b = 0 then max h.req (h.pending.getD 0) else b
    | none => max h.grant h.req
  let fe := thmCap m (1 + p / 24)
  let pt := thmCap m (19 + p)
  -- R400, R416: a parked port holds the park level
  let caps := (if m.grd.parkedPorts.contains p then [parkMw] else [])
    ++ (if fe.lim then [base / 2] else if fe.thr then [base * 75 / 100] else [])
    ++ (if pt.lim then [if isBay m p then 0 else parkMw] else if pt.thr then [base / 2] else [])
  match caps with
  | [] => none
  | c :: cs => some (cs.foldl min c)

/-- The ceiling on the cost sum: CORE LIMIT 75 %, BOARD 75 % and 50 %. -/
def costCeil (m : Mach) : Option Nat :=
  let core := thmCap m 0
  let bd := thmCap m 68
  let l := (if core.lim then [core.limBase * 75 / 100] else [])
    ++ (if bd.lim then [bd.limBase / 2] else if bd.thr then [bd.thrBase * 75 / 100] else [])
  match l with
  | [] => none
  | c :: cs => some (cs.foldl min c)

/-! ### Supply (R209 to R213) -/

/-- Sums saturate at 0 and at 25 600 000 mW (R209). -/
def liftSat (v : Int) : Nat := (clampI 0 25600000 v).toNat

/-- The current limit of an input or AC: the configured one, or that of its remaining phases after a shed (R142). -/
def shedMa (m : Mach) (k lim : Nat) : Nat :=
  let c := getCv m k
  if (List.range (declaredPhases c.decl)).any fun i => (tget c.ph {} i).st = .fenced then min lim (irateTotal m k) else lim

/-- The capability of an input (R210). -/
def inputCap (m : Mach) (i : Nat) : Nat :=
  let x := getInp m i
  if x.typ = 0 || !x.enable || !x.present || x.parked || x.scanning || x.stopped ≠ 0 || cnvFenced m (48 + i) then 0
  else
    let c := vinOf m i * shedMa m (48 + i) x.ilimMa * m.lft.effIn / 1000000
    if x.typ = 2 then min c (x.pmppMw * m.lft.effIn / 1000) else c

/-- The capability of a donor, or of a cable-boot sink (R211). -/
def donorCap (m : Mach) (p : Nat) : Nat :=
  if m.path.withdrawn.contains p || cnvFenced m p then 0
  else
    let x := getPd m p
    (if x.contract then x.vTarget else 5000) * refNow m p 1 * m.lft.effOut / 1000000

/-- F_SOC of R212 times 1. -/
def fSoc (m : Mach) : Rat :=
  let s := 100 * storeSoc m
  let lo : Rat := m.lft.socRes
  let hi : Rat := m.lft.socTaper
  if hi ≤ s then 1 else if s ≤ lo then 0 else (s - lo) / (hi - lo)

/-- The state of charge is stale (R37). -/
def socStale (m : Mach) : Bool := m.est.countAt + sec 1 < m.dev.now

/-- The Store is removed, absent or fenced (R221). -/
def storeOut (m : Mach) : Bool := !m.path.storePresent || (getBlk m blkStore).fence.isSome

/-- The Store discharge allowance (R212, R37, R364). -/
def storeAllowance (m : Mach) : Nat :=
  if storeOut m || m.path.mode = .off || m.path.mode = .linear || dsgBlocked m then 0
  else
    let full := m.path.vstsMv * (getChg m 0).prof.iDsg
    let a := if socStale m then m.lft.lastAllow / 2 else ((full : Rat) * fSoc m / 1000).floor.toNat
    let a := if isLive m blkStore (codeOf .dsgOc) then min a (full * 8 / 10000) else a
    if (thmCap m 67).lim then min a (full / 2000) else a

/-- E_AVAIL (R213). -/
def eAvail (m : Mach) : Nat :=
  if storeOut m then 0
  else ((storeSoc m - (m.lft.socRes : Rat) / 100) * (storeQFull m * m.path.vstsMv : Nat) / 1000).floor.toNat

/-! ### Costs (R214, R219) -/

/-- SYS cost of a power through a port or AC, rounded up. -/
def costMw (m : Mach) (mw : Nat) : Nat := ceilDiv (mw * 1000) m.lft.effOut

/-- Measured output power of a sourcing port: the last samples of its V and IOUT loops (R219, R90). -/
def portMw (m : Mach) (p : Nat) : Nat :=
  let y (j : Nat) : Nat := ((tget (getCv m p).ctrl.loops {} j).y.headD 0).toNat
  if (getCv m p).run then y 0 * y 1 / (65536 * 65536 * 1000) else 0

/-- A power exceeds a holder's grant by more than 10 % and 500 mW (R219). -/
def overGrant (x : Holder) (mw : Nat) : Bool := 11 * x.grant + 5000 < 10 * mw

/-- SYS cost of holder h, the Store charge apart: at its grant, while it renegotiates too (R218), or at the measured power of a port
in excess (R219). -/
def holdCost (m : Mach) (h : Nat) : Nat :=
  let x := getHold m h
  costMw m (if x.meas.isSome && !x.renego then portMw m h else x.grant)

/-- The cost sum with the spectroscopy reserves (R208). -/
def costSum (m : Mach) : Nat :=
  liftSat (((List.range 49).map fun h => holdCost m h).sum + (m.lft.eis.map (·.reserve)).sum : Nat)

/-- The class of a holder (R214, R225). -/
def clsOf (m : Mach) (h : Nat) : Nat :=
  if h < 48 then (tget m.lft.classSet none h).getD (if isBay m h then 3 else 2) else m.aux.cls

/-- The floor of a holder (R214). -/
def floorOf (m : Mach) (h : Nat) : Nat := if h < 48 && !isBay m h then m.lft.floorMw else 0

/-! ### Requests that follow the state of their holder (R185, R205, R214) -/

/-- Store charge: VSTS x I_STATE x F_WIN; SYSS x I_STATE in LINEAR mode. -/
def chargeReq (m : Mach) : Nat :=
  if m.path.mode = .linear then ceilDiv (m.path.sysMv * iState (getChg m 0)) 1000
  else ceilDiv (m.path.vstsMv * iWin m 0) 1000

/-- A bay's request: V_TERM_PACK x I_STATE x F_WIN, or the trickle's (R311). -/
def bayReq (m : Mach) (p : Nat) : Nat :=
  let b := getBay m p
  if b.st = .trickle then ceilDiv (b.trickleMa * b.trickleMv) 1000
  else ceilDiv (vTermPack m (p + 1) * iWin m (p + 1)) 1000

/-- AUX: VOUT_MV x ILIM_MA while AC is wanted. -/
def auxReq (m : Mach) : Nat := if m.aux.wants then ceilDiv (m.aux.voutMv * shedMa m 54 m.aux.ilimMa) 1000 else 0

/-- A holder that may have any grant up to its request: a smaller request shrinks the grant, a larger one is asked for. -/
def followReq (m : Mach) (h req : Nat) : Mach :=
  let x := getHold m h
  if req = x.req then m
  else
    modHold m h fun x =>
      { x with held := req ≠ 0, req := req, since := if x.held then x.since else m.dev.now
               grant := min x.grant req, deliver := x.deliver || req < x.grant
               want := x.want.map (min req)
               pending := if req ≤ x.grant || (x.want.isSome && x.pending.isNone && req < x.req) then none else some req
               arrival := if x.pending.isSome then x.arrival else m.lft.arrivals }

/-- The requests of AUX and of the bays as the cycle finds them: they arrive together, after those that came before (R216). -/
def snapshotReqs (m : Mach) : Mach :=
  let m := followReq m 48 (auxReq m)
  let m := forAll m ((List.range 48).filter fun p => isBay m p) fun m p => followReq m p (bayReq m p)
  { m with lft := { m.lft with arrivals := m.lft.arrivals + 1 } }

/-- The excess of R219 goes on, or ends after 100 cycles within the margin. -/
def excessFollow (m : Mach) : Mach :=
  forAll m (List.range 48) fun m p =>
    let x := getHold m p
    match x.meas with
    | none => m
    | some n => modHold m p fun h =>
        { h with meas := if overGrant x (portMw m p) then some 0 else if 99 ≤ n then none else some (n + 1) }

/-! ### Reclaim (R217, R218) -/

/-- Cost less S, above D_MAX. -/
def unfit (m : Mach) (s dmax : Nat) : Bool := s + dmax < costSum m

/-- A holder reclaimed to a level. -/
def cutHolder (m : Mach) (h tgt level : Nat) : Mach :=
  let port := h < 48 && !isBay m h
  let n := m.lft.cuts
  modHold { m with lft := { m.lft with cuts := n + 1 } } h fun x =>
    { x with grant := tgt, want := some (x.want.getD x.grant), reclaimedAt := if x.want.isSome then x.reclaimedAt else n
             level := level, renego := port, hardAt := if port then some (m.dev.now + ms m.lft.reclaimHardMs) else none
             restoring := false, deliver := true }

/-- A step of R217 has acted in this cycle. -/
def reclaimStep (m : Mach) (step : Nat) : Mach :=
  { m with lft := { m.lft with reclaimed := true, lastReclaim := some m.dev.now, step := step } }

/-- The holders of a class, youngest pass first, then the higher number. -/
def victims (m : Mach) (cls : Nat) : List Nat :=
  let hs := (List.range 49).reverse.filter fun h => (getHold m h).held && clsOf m h = cls
  hs.mergeSort fun a b => (getHold m b).since ≤ (getHold m a).since

/-- One class at one level, until the deficit fits. -/
def cutClass (level : Nat) (fits : Mach → Bool) (m : Mach) (cls : Nat) : Mach :=
  forAll m (victims m cls) fun m h =>
    if fits m then m
    else
      let tgt := if level = 3 then floorOf m h else parkMw
      let may := tgt < (getHold m h).grant && (level = 3 || (h < 48 && !isBay m h))
      if may then reclaimStep (cutHolder m h tgt level) level else m

/-- Steps 3 and 4. -/
def cutPasses (m : Mach) (fits : Mach → Bool) : Mach :=
  forAll (forAll m [3, 2, 1, 0] (cutClass 3 fits)) [3, 2, 1, 0] (cutClass 4 fits)

/-- A spectroscopy run of machine `c` is over with a RESULT of R344: its grant and its requests go, and the commands that
asked for it are journalled, DONE where it was accepted, FAILED with NOT_IN_STATE otherwise, DETAIL the RESULT. -/
def eisFinish (m : Mach) (c res : Nat) : Mach :=
  let m := forAll m (machCtxs m c) fun m x => modCtx m x fun k => { k with eisResult := res }
  let m := modChg m c fun k => { k with bias := none }
  let seqs := (m.est.eisQueue.filter fun q => q.1 = c && q.2 ≠ 0).map (·.2)
  let m := { m with
    est := { m.est with eis := m.est.eis.filter fun r => r.mach ≠ c, eisQueue := m.est.eisQueue.filter fun q => q.1 ≠ c }
    lft := { m.lft with eis := m.lft.eis.filter fun g => g.mach ≠ c } }
  forAll m seqs fun m q => closeEntry m q (if res = 1 then 0 else statusCode .notInState) res

/-- A spectroscopy run of machine `c`, where one is in progress, ends without result (R343). -/
def eisAbort (m : Mach) (c : Nat) : Mach :=
  if m.est.eis.any fun r => r.mach = c then
    eisFinish { m with est := { m.est with eisAborts := m.est.eisAborts + 1 } } c 3
  else m

/-- Every spectroscopy grant ends (R217 step 1). -/
def eisEndAll (m : Mach) : Mach :=
  let m := forAll m (m.est.eis.map (·.mach)) eisAbort
  { m with lft := { m.lft with eis := [] } }

/-- A rest ends early: the fits are discarded and counted (R222, R340, R355). -/
def restAbort (m : Mach) : Mach :=
  if m.lft.restAt.isNone then m
  else
    let m := forAll m (storeCtxs m) fun m x => modCtx m x fun c =>
      { c with fit := none, restAborts := satTo 65535 (c.restAborts + 1) }
    { m with lft := { m.lft with restAt := none, restLowAt := none }
             est := { m.est with lastSynth := some m.dev.now, restReq := false, restWaived := false } }

/-- The reclaim of R217, from its first step, `old` the Store charge grant of the cycle before. A cycle that finds nothing left to
take is no reclaim. -/
def liftReclaim (m : Mach) (old s dmax : Nat) : Mach :=
  let fits (m : Mach) : Bool := !unfit m s dmax
  let m := if m.lft.eis.isEmpty then m else reclaimStep (eisEndAll m) 1
  let m := if fits m || m.lft.restAt.isNone then m else reclaimStep (restAbort m) 1
  if fits m then m
  else
    let m := { m with lft := { m.lft with chargeGrant := 0, step := 2 } }
    cutPasses (if old = 0 then m else reclaimStep m 2) fits

/-! ### Restore (R220) -/

/-- The worst past cycle had room for `extra` more cost within 80 % of D_MAX. -/
def headroomFor (m : Mach) (extra : Nat) : Bool := m.lft.head.all fun x => (5 * extra : Nat) ≤ x.2

/-- What a restore of a holder aims at: what it was reclaimed from, within a thermal cap in force (R369). -/
def restoreTgt (m : Mach) (h : Nat) : Nat :=
  let w := (getHold m h).want.getD 0
  min w (if h < 48 then (passCap m h).getD w else w)

/-- The next holder to restore: class 0 first, the earliest reclaimed first within a class. One that a cap holds at its
grant is not taken before the cap is lifted (R369). -/
def restoreNext (m : Mach) : Option Nat :=
  ((List.range 49).filter fun h => (getHold m h).want.isSome && (getHold m h).grant < restoreTgt m h).foldl
    (fun acc h => match acc with
      | none => some h
      | some b =>
        let k (j : Nat) : Nat × Nat := (clsOf m j, (getHold m j).reclaimedAt)
        if (k h).1 < (k b).1 || ((k h).1 = (k b).1 && (k h).2 < (k b).2) then some h else some b) none

/-- A restore is made where it fits, in this cycle too: one a cycle. A restore up to a cap leaves the rest to restore. -/
def tryRestore (m : Mach) (s dmax : Nat) : Mach :=
  match restoreNext m with
  | none => m
  | some h =>
    let x := getHold m h
    let tgt := restoreTgt m h
    let ceilOk := match costCeil m with
      | some c => costSum m + (costMw m tgt - costMw m x.grant) ≤ c
      | none => true
    let extra := costMw m tgt - costMw m x.grant
    let now : Int := 4 * (dmax : Int) - 5 * ((costSum m : Int) - s)
    if !ceilOk || !headroomFor m extra || now < (5 * extra : Nat) then m
    else modHold m h fun x =>
      { x with grant := tgt, want := if tgt < x.want.getD 0 then x.want else none, level := if tgt < x.want.getD 0 then 1 else 0
               restoring := h < 48 && !isBay m h, renego := false, hardAt := none, deliver := true }

/-! ### Admission (R216) -/

/-- The largest power whose cost is at most `c`. -/
def powerFor (m : Mach) (c : Nat) : Nat := c * m.lft.effOut / 1000

/-- One request treated (R216): admitted if it fits, answered with the largest grant that fits otherwise. A contract within
a reclaimed grant leaves the holder reclaimed, and a renegotiation ends with the new contract alone (R218, R220). -/
def admitHolder (m : Mach) (h s dmax : Nat) : Mach :=
  let x := getHold m h
  match x.pending with
  | none => m
  | some req =>
    let port := h < 48 && !isBay m h
    let others := costSum m - holdCost m h
    let room := s + (if m.lft.restAt.isSome then 0 else dmax)
    let room := match costCeil m with
      | some c => min room c
      | none => room
    let capped := if h < 48 then min req ((passCap m h).getD req) else req
    let fit := powerFor m (room - others)
    let g :=
      if others + costMw m capped ≤ room then capped
      else if port then max parkMw (min capped fit / 100 * 100) else min capped fit
    modHold m h fun x =>
      { x with held := true, req := req, grant := g, pending := none, heldOver := 0, deliver := true, answers := true
               since := if x.held then x.since else m.dev.now
               want := if g ≤ x.grant || (!port && g < x.want.getD 0) then x.want else none
               level := if g ≤ x.grant then x.level else 0, restoring := false }

/-- The waiting requests in their order of arrival; held over while a reclaim is under way, up to seven cycles. -/
def admitInOrder (m : Mach) (s dmax : Nat) : Mach :=
  let ws := (List.range 49).filter fun h => (getHold m h).pending.isSome
  let ws := ws.mergeSort fun a b => (getHold m a).arrival ≤ (getHold m b).arrival
  forAll m ws fun m h =>
    if m.lft.reclaimed && (getHold m h).heldOver < 7 then modHold m h fun x => { x with heldOver := x.heldOver + 1 }
    else admitHolder m h s dmax

/-! ### Rest and spectroscopy grants (R222, R223) -/

/-- A rest granted at the start of a cycle (R222, R355): the estimator's windows open. -/
def restGrant (m : Mach) (s : Nat) : Mach :=
  let recent := match m.lft.lastReclaim with
    | some t => m.dev.now < t + sec 60
    | none => false
  if m.est.restReq && !(m.est.eis.any fun r => r.mach = 0) && m.lft.restAt.isNone && (m.path.mode = .on || m.path.mode = .diode)
      && costSum m * (100 + m.lft.restMargin) ≤ 100 * s && !recent then
    let m := forAll m (storeCtxs m) fun m x => modCtx m x fun c => { c with fit := some {} }
    { m with lft := { m.lft with restAt := after m (sec 120) }, est := { m.est with restReq := false } }
  else m

/-- The reserve of a run (R223). -/
def eisReserve (m : Mach) (c : Nat) : Nat := vBat m c * machQFull m c / 50000

/-- Spectroscopy grants for the runs that wait (R223). -/
def eisGrant (m : Mach) (s : Nat) : Mach :=
  forAll m (m.est.eisQueue.map (·.1)).eraseDups fun m c =>
    let r := eisReserve m c
    let room := if c = 0 then !(m.lft.eis.any fun g => g.mach = 0) && r ≤ m.lft.aSt
      else (m.lft.eis.filter fun g => g.mach ≠ 0).length < 4
    if !(m.lft.eis.any fun g => g.mach = c) && room && costSum m + r ≤ s && (getChg m c).st = .cc
        && m.lft.restAt.isNone then
      { m with lft := { m.lft with eis := m.lft.eis ++ [{ mach := c, reserve := r, endAt := m.dev.now + sec 90 }] } }
    else m

/-! ### The cycle (R208) -/

/-- Thermal caps on passes in force (R369). -/
def capPasses (m : Mach) : Mach :=
  forAll m (List.range 48) fun m p =>
    match passCap m p with
    | some c => if (getHold m p).held && c < (getHold m p).grant then cutHolder m p c (max 1 (getHold m p).level) else m
    | none => m

/-- The pass of a port in its derate interval: contract voltage times the new current limit (R142). -/
def deratePasses (m : Mach) : Mach :=
  forAll m (List.range 48) fun m p =>
    let pr := (getCv m p).prot
    match pr.derateMa, pr.derateAt with
    | some ma, some _ =>
      let x := getPd m p
      let v := (if x.contract then x.vTarget else 5000) * ma / 1000
      if (getHold m p).held && v < (getHold m p).grant then modHold m p fun h => { h with grant := v, deliver := true } else m
    | _, _ => m

/-- A processor that acts as holder and finds another owner, or none, in GRD_BIB demotes itself (R398). -/
def bibCheck (m : Mach) : Mach :=
  forAll m [0, 1] fun m a =>
    if (getProc m a).actsHolder && m.grd.owner ≠ a + 1 then
      note (modProc m a fun p => { p with actsHolder := false }) (0x7F + a) .bibMismatch 1
    else m

/-- A cycle that publishes. -/
def liftPublish (m : Mach) : Mach :=
  let l := m.lft
  let capIn := liftSat (((List.range 6).map fun i => inputCap m i).sum : Nat)
  let capDonor := liftSat (((rankSix m).map fun p => donorCap m p).sum : Nat)
  let s := liftSat ((capIn : Int) + capDonor - l.ovhMw - l.resMw)
  let a := storeAllowance m
  let e := eAvail m
  let dmax := min a (liftSat ((e * 3600 / l.bridgeMinS : Nat)))
  let m := { m with lft := { l with capIn := capIn, capDonor := capDonor, s := s, aSt := a, eAvail := e, dMax := dmax
                                    reclaimed := false, step := 0, stale := socStale m
                                    lastAllow := if socStale m then l.lastAllow else a } }
  let m := restGrant (snapshotReqs (excessFollow m)) s
  let cost := costSum m
  let req := chargeReq m
  let old := m.lft.chargeGrant
  let m := { m with lft := { m.lft with chargeGrant := if m.lft.restAt.isSome then 0 else min req (s - cost) } }
  let m := deratePasses (capPasses m)
  let overCeil : Bool := match costCeil m with
    | some c => c < costSum m
    | none => false
  let m := if unfit m s dmax then liftReclaim m old s dmax else if overCeil then m else tryRestore m s dmax
  let m := match costCeil m with
    | some c => if overCeil then cutPasses m fun m => costSum m ≤ c else m
    | none => m
  let m := eisGrant (admitInOrder m s dmax) s
  let cost := costSum m
  let h : Int := 4 * (dmax : Int) - 5 * ((cost : Int) - s)
  let now := m.dev.now
  let head := (m.lft.head.filter fun x => x.2 < h && now < x.1 + sec m.lft.restoreS) ++ [(now, h)]
  let m := modHold m 49 fun x => { x with held := true, req := req, grant := m.lft.chargeGrant
                                          deliver := x.deliver || m.lft.chargeGrant ≠ old }
  let low := if m.lft.restAt.isSome && s < cost then (m.lft.restLowAt.or (after m (sec 1))) else none
  { m with lft := { m.lft with cost := cost, head := head, restLowAt := low, cycle := wrap32 (m.lft.cycle + 1) } }

/-- An input is present (R161). -/
def anyInput (m : Mach) : Bool :=
  (List.range 6).any fun i => (getInp m i).typ ≠ 0 && (getInp m i).enable && (getInp m i).present

/-- The donor condition of R161. -/
def donorCond (m : Mach) : Bool :=
  match m.path.donorPol with
  | 0 => false
  | 1 => !anyInput m
  | 2 => 100 * storeSoc m < (m.path.donorSoc : Rat)
  | _ => true

/-- Donors are withdrawn 10 s after their condition has ended, unless it returns (R161). -/
def donorWatch (m : Mach) : Mach :=
  { m with path := { m.path with
      donorEndAt := if donorCond m then none else m.path.donorEndAt.or (after m (sec 10)) } }

/-- LIFT_CYCLE (R208, R229): every 1 ms while a processor holds the Bib; a cycle that does not publish is abandoned. -/
def liftCycle (m : Mach) (published : Bool) : Mach :=
  if !holderRuns m then m
  else
    let m := match m.lft.cycleAt with
      | some t => advanceTo m t
      | none => m
    let m := donorWatch (bibCheck { m with lft := { m.lft with cycleAt := after m (ms 1) } })
    if published then liftPublish m else { m with lft := { m.lft with overrun := true } }

def execLiftCycle (published : Bool) (s : State) : Host.Outcome State Fault Refusal :=
  guardUnit true s fun m => liftCycle m published

/-- A request for a pass (R216, R229): it waits for the next cycle; with no holder it stands only within the present
grant. -/
def passRequest (m : Mach) (h mw : Nat) : Mach :=
  if holderRuns m then
    let n := m.lft.arrivals
    let m := { m with lft := { m.lft with arrivals := n + 1 } }
    modHold m h fun x => { x with pending := some mw, arrival := n, heldOver := 0 }
  else
    modHold m h fun x =>
      if mw ≤ x.grant then { x with req := mw, deliver := true, answers := true } else { x with answers := true, deliver := true }

def execPassRequest (holder mw : Nat) (s : State) : Host.Outcome State Fault Refusal :=
  guardUnit (holder < 49) s fun m =>
    when (holder = 48 || isBay m holder || (getHold m holder).held) m fun m => passRequest m holder mw

/-- PASS_EXCESS (R219): 100 consecutive cycles above the grant by more than 10 % and 500 mW. -/
def passExcess (m : Mach) (p mw : Nat) : Mach :=
  let h := getHold m p
  let c := getCv m p
  let moving := (getPd m p).pe = .transition || !settled (tget c.ctrl.loops {} 0)
  if !h.held || isBay m p || !c.run || c.reverse || !overGrant h mw || !holderRuns m then m
  else if c.ctrl.softStart || moving || c.prot.derateAt.isSome || h.renego then m
  else
    match maskedBy m (.passExcess p) with
    | some o => consequential m p .passExcess o
    | none => modHold (note m p .passExcess 2) p fun x => { x with meas := some 0 }

def execPassExcess (port mw : Nat) (s : State) : Host.Outcome State Fault Refusal :=
  guardUnit (port < 48) s fun m => passExcess m port mw

/-- RECLAIM_HARD_RESET (R218): no new contract after RECLAIM_HARD_MS. -/
def execReclaimHardReset (port : Nat) (s : State) : Host.Outcome State Fault Refusal :=
  guardUnit (port < 48) s fun m => fire m (getHold m port).hardAt fun m => hardSignal m port

/-- REST_GRANT_END (R222): S below cost for 1 s, or the 120 s are over. -/
def restGrantEnd (m : Mach) (sLow : Bool) : Mach :=
  match m.lft.restAt with
  | none => m
  | some t =>
    if sLow then fire m m.lft.restLowAt restAbort
    else
      let m := advanceTo m t
      { m with lft := { m.lft with restAt := none, restLowAt := none }
               est := { m.est with lastSynth := some m.dev.now, restWaived := false } }

def execRestGrantEnd (sLow : Bool) (s : State) : Host.Outcome State Fault Refusal :=
  guardUnit true s fun m => restGrantEnd m sLow

/-- EIS_GRANT_END (R223): after 90 s. -/
def eisGrantEnd (m : Mach) (c : Nat) : Mach :=
  match m.lft.eis.find? fun g => g.mach = c with
  | none => m
  | some g =>
    let m := advanceTo m g.endAt
    let m := eisAbort m c
    { m with lft := { m.lft with eis := m.lft.eis.filter fun g => g.mach ≠ c } }

def execEisGrantEnd (m : Nat) (s : State) : Host.Outcome State Fault Refusal :=
  guardUnit (m < 49) s fun mc => eisGrantEnd mc m

/-! ### Commands and status (R224 to R228) -/

/-- LFT_CFG (R224). -/
def cmdLftCfg (m : Mach) (_ : Nat) (p : List Byte) : Ans :=
  refuseFirst
    [(100000 < pU p 0 4 || 500000 < pU p 4 4 || !within (pU p 8 2) 800 1000 || !within (pU p 10 2) 800 1000
        || !within (pU p 12 2) 60 7200 || !within (pU p 14 2) 100 2000 || !within (pU p 16 2) 2500 60000
        || !within (pU p 18 2) 5 600 || 50 < pU p 20 1 || !within (pU p 21 1) (pU p 20 1 + 1) 100 || 50 < pU p 22 1,
      .outOfRange)] <|
    .ok { m with lft := { m.lft with
      ovhMw := pU p 0 4, resMw := pU p 4 4, effIn := pU p 8 2, effOut := pU p 10 2, bridgeMinS := pU p 12 2
      reclaimHardMs := pU p 14 2, floorMw := pU p 16 2, restoreS := pU p 18 2, socRes := pU p 20 1
      socTaper := pU p 21 1, restMargin := pU p 22 1 } } []

def execLftCfg (slot : Nat) (s : State) := command 0x0501 slot cmdLftCfg s

/-- LFT_CLASS_SET (R225). -/
def cmdLftClassSet (m : Mach) (_ : Nat) (p : List Byte) : Ans :=
  let k := pU p 0 1
  refuseFirst [(47 < k || 3 < pU p 1 1, .outOfRange)] <|
    .ok { m with lft := { m.lft with classSet := tupd m.lft.classSet k fun _ => some (pU p 1 1) } } []

def execLftClassSet (slot : Nat) (s : State) := command 0x0502 slot cmdLftClassSet s

/-- The deficit of the last cycle, negative where S covers the cost, and the bridge time (R213). -/
def deficit (m : Mach) : Int := (m.lft.cost : Int) - m.lft.s
def bridgeS (m : Mach) : Option Nat :=
  if deficit m ≤ 0 then none else some (m.lft.eAvail * 3600 / (deficit m).toNat)

/-- LFT_BUDGET_GET (R227). -/
def cmdLftBudgetGet (m : Mach) (_ : Nat) (_ : List Byte) : Ans :=
  let l := m.lft
  .ok m (le 4 l.capIn ++ le 4 l.capDonor ++ le 4 l.aSt ++ le 4 l.s ++ le 4 l.cost ++ le 4 (deficit m).toNat ++ le 4 l.dMax
    ++ le 4 l.eAvail ++ le 4 (match bridgeS m with
        | some b => satTo 0xFFFFFFFE b
        | none => 0xFFFFFFFF) ++ le 4 l.chargeGrant ++ le 4 l.cycle)

def execLftBudgetGet (slot : Nat) (s : State) := command 0x0503 slot cmdLftBudgetGet s

/-- STATE of R228; a port is parked at the park level. -/
def holdState (m : Mach) (h : Nat) : Nat :=
  let x := getHold m h
  if !x.held then 0 else if x.renego then 2 else if x.restoring then 5
  else if h < 48 && !isBay m h && x.grant ≤ parkMw then 4 else if x.want.isSome then x.level else 1

/-- LFT_PASS_GET (R228). -/
def cmdLftPassGet (m : Mach) (_ : Nat) (p : List Byte) : Ans :=
  let h := pU p 0 1
  refuseFirst [(49 < h, .outOfRange)] <|
    let x := getHold m h
    .ok m (le 4 x.req ++ le 4 x.grant ++ le 4 (if h = 49 then x.grant else holdCost m h)
      ++ [BitVec.ofNat 8 (if h = 49 then 0xFF else clsOf m h), BitVec.ofNat 8 (holdState m h)]
      ++ le 2 (if x.held then satTo 65535 ((m.dev.now - x.since) / sec 1) else 0))

def execLftPassGet (slot : Nat) (s : State) := command 0x0504 slot cmdLftPassGet s

/-- LFT_STAT (R226). -/
def lftStatWord (m : Mach) : Nat :=
  let l := m.lft
  let st := if !holderRuns m then 3 else if l.reclaimed then 2 else if 0 < deficit m then 1 else 0
  let lv (n : Nat) : Bool := (List.range 49).any fun h => (getHold m h).want.isSome && (getHold m h).level = n
  let step := if lv 4 then 4 else if lv 3 then 3 else l.step
  let br := match bridgeS m with
    | some b => satTo 0x3FE (b / 60)
    | none => 0x3FF
  st * 2 ^ 30 + step * 2 ^ 27 + flag l.restAt.isSome 26 + flag (!l.eis.isEmpty) 25 + flag l.stale 24
    + flag (storeOut m) 23 + flag l.overrun 22 + br * 2 ^ 12 + satTo 0xFFF (((l.dMax : Int) - deficit m).toNat / 10000)

/-- A write of LFT_STAT: OVERRUN is W1C. -/
def lftStatWrite (m : Mach) (w : Nat) : Mach :=
  if bit w 22 then { m with lft := { m.lft with overrun := false } } else m

/-! ### The accessory rail (R203 to R205) -/

/-- POLICY is met (R203). -/
def auxPolicy (m : Mach) : Bool :=
  if m.aux.policy = 0 then true
  else if m.aux.policy = 1 then feeding m
  else ((List.range 6).any fun i => inputDelivers m i) || (m.aux.soc : Rat) / 100 ≤ storeSoc m

/-- A running AC takes the references of a new configuration, VOUT_MV at VSLEW (R204). -/
def auxRefs (m : Mach) : Mach :=
  let a := m.aux
  setRef (setRef (setRef (setRef m 54 0 a.voutMv) 54 1 (auxIout m)) 54 2 (ceilDiv (a.ilimMa * a.voutMv) m.path.sysMin)) 54 3
    m.path.sysFold

/-- AC started or stopped by its grant, or its IOUT limited by it (R205). -/
def auxGrant (m : Mach) : Mach :=
  if (getHold m 48).grant = 0 || !m.aux.wants then
    let m := stopRun m 54
    { m with aux := { m.aux with running := false } }
  else if (getCv m 54).run then setRef m 54 1 (auxIout m)
  else if m.path.sysLow || m.path.restartWait then m else requestStart m 54

/-- ENABLE and POLICY judged now (R204). -/
def auxEval (m : Mach) : Mach :=
  let a := m.aux
  if !a.enable then
    let m := { m with aux := { a with wants := false, holdAt := none } }
    auxGrant m
  else if auxPolicy m then { m with aux := { a with wants := true, holdAt := none } }
  else if a.wants && a.holdAt.isNone then { m with aux := { a with holdAt := after m (sec a.holdS) } }
  else m

/-- STO_AUX_CFG (R203). -/
def cmdStoAuxCfg (m : Mach) (_ : Nat) (p : List Byte) : Ans :=
  let v := pU p 4 4
  let i := pU p 8 4
  refuseFirst
    [(1 < pU p 0 1 || 2 < pU p 1 1 || 3 < pU p 2 1 || 100 < pU p 3 1 || !within v 5000 60000 || !within i 100 80000
        || 3600 < pU p 12 2 || irateTotal m 54 * v < v * i, .outOfRange)] <|
    let m := { m with aux := { m.aux with
      enable := pU p 0 1 = 1, policy := pU p 1 1, cls := pU p 2 1, soc := pU p 3 1, voutMv := v, ilimMa := i, holdS := pU p 12 2
      foldOver := false, iOver := none } }
    let m := auxEval m
    .ok (if (getCv m 54).run then auxRefs m else m) []

def execStoAuxCfg (slot : Nat) (s : State) := command 0x0405 slot cmdStoAuxCfg s

/-- AUX_POLICY_CHANGE (R204). -/
def execAuxPolicyChange (s : State) : Host.Outcome State Fault Refusal := guardUnit true s auxEval

/-- AUX_HOLD_EXPIRE (R204): HOLD_S has elapsed with POLICY not met. -/
def execAuxHoldExpire (s : State) : Host.Outcome State Fault Refusal :=
  guardUnit true s fun m => fire m m.aux.holdAt fun m =>
    if auxPolicy m then { m with aux := { m.aux with holdAt := none } }
    else auxGrant { m with aux := { m.aux with wants := false, holdAt := none } }

end Machine
end Sys2Proof
end

