-- ==== Sys2Proof/Machine/Est.lean ====
section
/-! DEFINITION. Sys2Proof/Machine/Est.lean: the estimator's commands and events (chapter 12). -/
namespace Sys2Proof
namespace Machine

/-! ### Configuration and status (R330, R351 to R354) -/

/-- EST_CFG without its retention write (R351). -/
def setEstCfg (m : Mach) (p : List Byte) : Ans :=
  refuseFirst
    [(!within (pU p 0 2) 5 120 || !within (pU p 2 2) 1 50 || !within (pU p 4 2) 5 50 || !within (pU p 6 2) 24 240
        || !within (pU p 8 2) 1 168 || !within (pU p 10 2) 1 168 || !within (pU p 12 1) 1 20 || 90 < pU p 13 1
        || !within (pU p 14 2) 200 5000 || !within (pU p 16 4) 1000 1000000, .outOfRange)] <|
    .ok { m with est := { m.est with
      restMin := pU p 0 2, dvdt := pU p 2 2, slope := pU p 4 2, noAnchorH := pU p 6 2, restReqH := pU p 8 2
      pauseAgeH := pU p 10 2, pauseSigma := pU p 12 1, eisDays := pU p 13 1, crate := pU p 14 2, qNom := pU p 16 4 } } []

/-- The Store's Q_NOM is that of EST_CFG (R345). -/
def storeQNom (a : Ans) : Ans :=
  match a with
  | .ok m out => .ok (forAll m ((List.range 16).map (256 + ·)) fun m x => modCtx m x fun c => { c with qNom := m.est.qNom }) out
  | a => a

def cmdEstCfg (m : Mach) (_ : Nat) (p : List Byte) : Ans := persist 0x0901 0 p (storeQNom (setEstCfg m p))
def execEstCfg (slot : Nat) (s : State) := command 0x0901 slot cmdEstCfg s

/-- One row of a table replaced (R330). -/
def putOcv (m : Mach) (p : List Byte) : Mach :=
  let row := pU p 1 1
  { m with est := { m.est with tabs := tupd m.est.tabs (pU p 0 1 - 1) fun t =>
      { temps := t.temps.set row (pI p 2 2), rows := t.rows.set row ((List.range 21).map fun i => pU p (4 + 2 * i) 2) } } }

/-- EST_OCV_SET (R330). -/
def cmdEstOcvSet (m : Mach) (_ : Nat) (p : List Byte) : Ans :=
  let chem := pU p 0 1
  let row := pU p 1 1
  let v (i : Nat) : Nat := pU p (4 + 2 * i) 2
  let m' := putOcv m p
  let t (i : Nat) : Int := (tget m'.est.tabs {} (chem - 1)).temps.getD i 0
  refuseFirst
    [(!within chem 1 2 || 2 < row || !((List.range 20).all fun i => v i < v (i + 1)) || v 0 < 2000 || 4500 < v 20
        || t 1 ≤ t 0 || t 2 ≤ t 1, .outOfRange)] <|
    .ok (nvmConfig m' 0x0903 (3 * chem + row) p) []

def execEstOcvSet (slot : Nat) (s : State) := command 0x0903 slot cmdEstOcvSet s

/-- EST_OCV_GET (R330). -/
def cmdEstOcvGet (m : Mach) (_ : Nat) (p : List Byte) : Ans :=
  let chem := pU p 0 1
  let tb := tget m.est.tabs {} (chem - 1)
  refuseFirst [(!within chem 1 2, .outOfRange)] <|
    .ok m ((List.range 3).flatMap fun r =>
      [BitVec.ofNat 8 chem, BitVec.ofNat 8 r] ++ leI 2 (tb.temps.getD r 0)
        ++ ((List.range 21).flatMap fun i => le 2 ((tb.rows.getD r []).getD i 0)))

def execEstOcvGet (slot : Nat) (s : State) := command 0x0904 slot cmdEstOcvGet s

/-- A fraction in units of 0.01 %, rounded down. -/
def pct100 (q : Rat) : Nat := satTo 65535 (q * 10000).floor.toNat

/-- STATE of R353. -/
def ctxState (m : Mach) (x : Nat) : Nat :=
  let c := getCtx m x
  if !c.active then 0
  else if m.est.eis.any fun r => r.mach = ctxMach m x then 4
  else if c.fit.isSome then 3 else if c.restMs ≠ 0 then 2 else 1

/-- EST_CTX_GET (R353). -/
def cmdEstCtxGet (m : Mach) (_ : Nat) (p : List Byte) : Ans :=
  let x := pU p 0 2
  let c := getCtx m x
  let r (n : Nat) : Nat := if c.active then n else 0
  let ri (n : Int) : Int := if c.active then n else 0
  let flags := flag c.noAnchor 0 + flag c.reAnchored 1 + flag c.reverted 2 + flag c.stale 3 + flag c.initFlag 4
    + flag c.flat 5 + flag c.learnPending 6
  refuseFirst [(272 ≤ x, .outOfRange)] <|
    .ok m (le 2 x ++ [BitVec.ofNat 8 (ctxState m x), BitVec.ofNat 8 (r flags)]
      ++ le 2 (r (pct100 (socRep c))) ++ le 2 (r (pct100 (sigmaRep m c))) ++ le 2 (r (pct100 (socE c)))
      ++ le 2 (r (pct100 (sigmaE c))) ++ le 2 (r (pct100 c.soc))
      ++ leI 2 (ri (clampI (-32768) 32767 (roundRat (10 * fToRat c.fvp)))) ++ leI 2 (ri c.temp)
      ++ le 2 (r (satTo 65535 (c.vUv / 1000).toNat)) ++ leI 4 (ri c.iMa) ++ le 4 c.qFull ++ le 4 (ageS c.anchorAge)
      ++ le 4 (r (c.restMs / 1000)) ++ [BitVec.ofNat 8 c.anchorKind, BitVec.ofNat 8 (sohPct c)] ++ le 2 c.cycles
      ++ le 2 c.zs ++ le 2 c.zp ++ le 2 c.cp ++ leI 2 (roundRat (10 * c.ocvOfs)) ++ le 2 (r c.reAnchors)
      ++ le 2 (r c.fitRejects) ++ le 2 (r c.capRejects) ++ le 2 (r c.restAborts))

def execEstCtxGet (slot : Nat) (s : State) := command 0x0902 slot cmdEstCtxGet s

/-- The context's battery runs a spectroscopy. -/
def eisOn (m : Mach) (x : Nat) : Bool := (getCtx m x).active && m.est.eis.any fun r => r.mach = ctxMach m x

/-- EST_CTX_SET (R354). -/
def cmdEstCtxSet (m : Mach) (s : Nat) (p : List Byte) : Ans :=
  let x := pU p 0 2
  let a := pU p 2 1
  let v := pU p 4 4
  let c := getCtx m x
  refuseFirst
    [(!isService m s, .privilege),
     (272 ≤ x || 4 < a || (a = 1 && !within v 1000 1000000)
        || (a = 2 && (100 * v < 50 * c.qNom || 120 * c.qNom < 100 * v)) || (a = 3 && !within v 1 65535), .outOfRange),
     ((a = 0 && eisOn m x) || (a = 4 && !c.active), .notInState)] <|
    let m := modCtx m x fun c =>
      match a with
      | 0 => { defaultLearned c c.qNom with hasSlot := true }
      | 1 => { c with qNom := v, hasSlot := true }
      | 2 => { c with qFull := v, hasSlot := true }
      | 3 => { c with zsNew := v, hasSlot := true }
      | _ => { c with initDue := true, initFlag := true, sigma := 1 / 10, anchored := false, hist := [], secN := 0, secSum := 0
                      lastFull := none, lastRest := none }
    let m := if a = 0 && c.active then modCtx m x fun c => { c with fzs := zsOhm c } else m
    .ok (learnWrite m x) []

def execEstCtxSet (slot : Nat) (s : State) := command 0x0907 slot cmdEstCtxSet s

/-- EST_STAT (R352). -/
def estStatWord (m : Mach) : Nat :=
  let w : Ctx := (storeWeakest m).elim {} fun x => getCtx m x
  let has := (storeWeakest m).isSome
  (if has then min 1000 (socRep w * 1000).floor.toNat else 0) * 2 ^ 22
    + (if has then satTo 255 (sigmaRep m w * 1000).floor.toNat else 0) * 2 ^ 14
    + ((List.range 272).filter fun x => (getCtx m x).active).length * 2 ^ 7 + flag (has && w.noAnchor) 6
    + flag m.est.reAnchoredW1c 5 + flag ((storeCtxs m).any fun x => (getCtx m x).stale) 4 + flag m.est.restReq 3
    + flag (!m.est.eis.isEmpty) 2 + flag m.est.revertedW1c 1

def estStatWrite (m : Mach) (w : Nat) : Mach :=
  { m with est := { m.est with reAnchoredW1c := m.est.reAnchoredW1c && !bit w 5
                               revertedW1c := m.est.revertedW1c && !bit w 1 } }

/-! ### Counting and the filter (R323 to R328, R336) -/

/-- The accumulators of R323 move by the charge of an interval, read or not: one per battery, told by its first context. -/
def accMove (m : Mach) (obs : List CtxObs) : Mach :=
  obs.foldl (fun m o =>
    let c := ctxMach m o.ctx
    if (machCtxs m c).head? = some o.ctx then { m with est := { m.est with acc := tupd m.est.acc c fun a => a + o.dqMaMs } }
    else m) m

/-- The powered time of a context in an interval that no firmware reads (R337). -/
def ageOne (m : Mach) (x : Nat) : Mach :=
  modCtx m x fun c => { c with anchorAge := c.anchorAge + 100, fullAge := c.fullAge.map (· + 100), eisAge := c.eisAge.map (· + 100) }

/-- SOC_COUNT (R323, R324): every 100 ms each active context that is observed counts what its accumulator has gained since the last
read. Without a Bib holder only the accumulators move, and the next reader takes the whole difference. -/
def socCount (m : Mach) (obs : List CtxObs) : Mach :=
  let m := forAll m ((List.range 48).filter fun p => (getBay m p).record.isSome) reopen
  let m := accMove m obs
  let obs := obs.filter fun o => (getCtx m o.ctx).active
  if !holderRuns m then forAll m (obs.map (·.ctx)) ageOne
  else
    let m := obs.foldl (fun m o =>
      let c := ctxMach m o.ctx
      let m := countOne m o (tget m.est.acc 0 c - tget m.est.accRead 0 c)
      if m.est.eis.any fun r => r.mach = c then
        modCtx m o.ctx fun k => { k with eisSum := k.eisSum + k.temp, eisN := k.eisN + 1 }
      else m) m
    { m with est := { m.est with accRead := m.est.acc, countAt := m.dev.now } }

def execSocCount (obs : List CtxObs) (s : State) : Host.Outcome State Fault Refusal :=
  guardUnit (obs.all fun o => o.ctx < 272) s fun m => when (m.dev.adcclk && m.pwr.st ≠ .standby) m fun m => socCount m obs

/-- NO_ANCHOR (R336). -/
def execNoAnchor (ctx : Nat) (s : State) : Host.Outcome State Fault Refusal :=
  guardUnit (ctx < 272) s fun m =>
    when ((getCtx m ctx).active && m.est.noAnchorH * 3600000 ≤ (getCtx m ctx).anchorAge) m fun m =>
      modCtx m ctx fun c => { c with noAnchor := true }

/-- EKF_STEP (R325): the engine steps each active filter; it does not while its clock is lost or it is halted. -/
def execEkfStep (obs : List EkfObs) (s : State) : Host.Outcome State Fault Refusal :=
  guardUnit (obs.all fun o => o.ctx < 272) s fun m =>
    when (m.dev.estclk && m.pwr.st ≠ .standby) m fun m => obs.foldl ekfStep m

/-- FILTER_RESET (R327, R346, R500): nis above 36 in 50 consecutive steps. -/
def execFilterReset (ctx : Nat) (s : State) : Host.Outcome State Fault Refusal :=
  guardUnit (ctx < 272) s fun m =>
    when ((getCtx m ctx).active && 50 ≤ (getCtx m ctx).nisRun) m fun m =>
      let m := modCtx (filterInit m ctx) ctx fun c => { c with lastFull := none, lastRest := none }
      let m := { m with upd := { m.upd with resets := if m.upd.resets.contains ctx then m.upd.resets else m.upd.resets ++ [ctx] } }
      note m blkEst .filterReset 2

/-- STALE (R327): no step for more than 1 s, 10 s in QUIET. -/
def execStale (ctx : Nat) (s : State) : Host.Outcome State Fault Refusal :=
  guardUnit (ctx < 272) s fun m =>
    let c := getCtx m ctx
    let lim := if m.pwr.st = .quiet then sec 10 else sec 1
    when (c.active && !c.stale) m fun m =>
      modCtx (advanceTo m (c.stepAt + lim)) ctx fun c => { c with stale := true }

/-- LEARNED_WRITE_DUE (R349): 4 h of activity since the last write, and a change. -/
def execLearnedWriteDue (ctx : Nat) (s : State) : Host.Outcome State Fault Refusal :=
  guardUnit (ctx < 272) s fun m =>
    when ((getCtx m ctx).active && (getCtx m ctx).learnPending && 14400000 ≤ (getCtx m ctx).actMs) m fun m =>
      learnWrite m ctx

/-! ### Relaxation (R338, R340) -/

/-- Ordinary least squares for v = vinf + a e with e the exponential at each point (R338): vinf, a and the rms. -/
def lsqExp (v e : List F32) : F32 × F32 × F32 :=
  let n := fOfInt v.length
  let sum (l : List F32) : F32 := l.foldl fAdd 0
  let sx := sum e
  let sy := sum v
  let sxx := sum (e.map fun x => fMul x x)
  let sxy := sum ((e.zip v).map fun p => fMul p.1 p.2)
  let a := fDiv (fSub (fMul n sxy) (fMul sx sy)) (fSub (fMul n sxx) (fMul sx sx))
  let vinf := fDiv (fSub sy (fMul a sx)) n
  let res := (v.zip e).map fun p => let d := fSub p.1 (fAdd vinf (fMul a p.2)); fMul d d
  (vinf, a, fSqrt (fDiv (sum res) n))

/-- relax_fit of R338 over the points in uV: the best of 16 time constants, the first on a tie. -/
def relaxFit (pts : List Int) (tauCtx : F32) : F32 × F32 × F32 :=
  let v := pts.map fun y => fR y 1000
  let f (g : Nat) : F32 × F32 × F32 :=
    let tau := if g < 15 then fMul (fOfInt 10) (Config.powf (fOfInt 30) (fDiv (fOfInt g) (fOfInt 14))) else tauCtx
    lsqExp v ((List.range pts.length).map fun k : Nat => Config.expf (fNeg (fDiv (fOfInt (10 + k)) tau)))
  (List.range 15).foldl (fun best g => let x := f (g + 1); if fLt x.2.2 best.2.2 then x else best) (f 0)

/-- A finished window judged (R332, R334, R338). -/
def fitAnchor (m : Mach) (x : Nat) (w : Fit) : Mach :=
  let c := getCtx m x
  let (vinf, a, rms) := relaxFit w.pts (fMul (fR c.zp 100000) (fOfInt c.cp))
  let ok := !w.bad && fFinite vinf && fFinite a && fFinite rms && fToRat rms ≤ 3 / 10 && fToRat (fAbs a) ≤ 80
  let m := modCtx m x fun c => { c with fit := none }
  if !ok then modCtx m x fun c => { c with fitRejects := satTo 65535 (c.fitRejects + 1) }
  else
    let (soc, slope) := ocvInverse (ctxRow m x) (fToRat vinf - c.ocvOfs)
    if 10 * slope < m.est.slope then modCtx m x fun c => { c with flat := true }
    else takeAnchor m x .fit soc ((3 / 2 + (1 + 3 * fToRat rms) / slope) / 100)

/-- RELAX_FIT (R338): at the end of a rest window, 80 points of a proofing pause or 110 of a synthesised rest. -/
def execRelaxFit (ctx : Nat) (s : State) : Host.Outcome State Fault Refusal :=
  guardUnit (ctx < 272) s fun m =>
    match (getCtx m ctx).fit with
    | none => m
    | some w =>
      let n := if ctxStore ctx then 110 else 80
      when ((getCtx m ctx).active && !m.est.halted && n ≤ w.pts.length) m fun m =>
        fitAnchor m ctx { w with pts := w.pts.take n }

/-- The Store group whose anchor is oldest. -/
def oldestAnchor (m : Mach) : Option Nat :=
  (storeCtxs m).foldl (fun acc x => match acc with
    | none => some x
    | some b => if (getCtx m b).anchorAge < (getCtx m x).anchorAge then some x else some b) none

/-- The slope in mV per % of the span that holds a context's counted state of charge. -/
def socSlope (m : Mach) (x : Nat) : Rat :=
  let row := ctxRow m x
  let s := (getCtx m x).soc
  let i := min 19 (20 * (if s < 0 then 0 else if 1 < s then 1 else s)).floor.toNat
  (row.getD (i + 1) 0 - row.getD i 0) / 5

/-- The conditions of R340 that EST_REST_REQ does not waive. -/
def restBase (m : Mach) : Bool :=
  match oldestAnchor m with
  | none => false
  | some x => ((storeCtxs m).all fun y => (getCtx m y).restMs = 0) && m.est.slope ≤ 10 * socSlope m x

/-- All conditions of R340. -/
def restWanted (m : Mach) : Bool :=
  let recent : Bool := match m.est.lastSynth with
    | some t => m.dev.now < t + sec 7200
    | none => false
  let old : Bool := match oldestAnchor m with
    | some x => m.est.restReqH * 3600000 ≤ (getCtx m x).anchorAge
    | none => false
  restBase m && (m.est.restWaived || (old && !recent)) && m.lft.restAt.isNone

/-- REST_REQUEST (R340): the request stands while its conditions do. -/
def execRestRequest (s : State) : Host.Outcome State Fault Refusal :=
  guardUnit true s fun m =>
    let w := restWanted m
    { m with est := { m.est with restReq := w, restWaived := m.est.restWaived && w } }

/-- The conditions of R339 that EST_REST_REQ does not waive. -/
def pauseBase (m : Mach) (p : Nat) : Bool :=
  let c := getChg m (p + 1)
  (c.st = .cc || c.st = .cv) && c.ccSince + sec 300 ≤ m.dev.now && !c.pauseRun && !c.paused

/-- EST_REST_REQ (R354). -/
def cmdEstRestReq (m : Mach) (_ : Nat) (p : List Byte) : Ans :=
  let x := pU p 0 2
  let c := ctxMach m x
  refuseFirst
    [(272 ≤ x, .outOfRange),
     (!(getCtx m x).active || (if ctxStore x then !restBase m || m.lft.restAt.isSome else !pauseBase m (c - 1)), .notInState)] <|
    if ctxStore x then .ok { m with est := { m.est with restReq := true, restWaived := true } } []
    else .ok (modChg m c fun y => { y with pauseReq := true }) []

def execEstRestReq (slot : Nat) (s : State) := command 0x0908 slot cmdEstRestReq s

/-! ### Spectroscopy (R341 to R344) -/

/-- Settling and measured time of frequency `i` in ms, after its pause of 1 s (R342). -/
def eisTime (i : Nat) : Nat := 1000 + [500, 1000, 2500, 9000, 40000].getD i 0

/-- A run is already pending for the context's battery. -/
def eisPending (m : Mach) (c : Nat) : Bool := (m.est.eisQueue.any fun q => q.1 = c) || m.est.eis.any fun r => r.mach = c

/-- EST_EIS_REQ (R344). -/
def cmdEstEisReq (m : Mach) (s : Nat) (p : List Byte) : Ans :=
  let x := pU p 0 2
  let c := ctxMach m x
  refuseFirst [(272 ≤ x, .outOfRange), (!(getCtx m x).active || eisPending m c, .notInState)] <|
    .accepted { m with est := { m.est with eisQueue := m.est.eisQueue ++ [(c, (getSlot m s).jseq)] } }

def execEstEisReq (slot : Nat) (s : State) := command 0x0905 slot cmdEstEisReq s

/-- EST_EIS_GET (R344). -/
def cmdEstEisGet (m : Mach) (_ : Nat) (p : List Byte) : Ans :=
  let x := pU p 0 2
  let c := getCtx m x
  refuseFirst [(272 ≤ x, .outOfRange)] <|
    .ok m (le 4 (c.eisAge.elim 0xFFFFFFFF ageS) ++ [BitVec.ofNat 8 c.eisResult] ++ leI 1 (clampI (-128) 127 c.eisTemp)
      ++ le 2 (satTo 65535 c.eisAmp) ++ c.z.flatMap fun z => leI 2 z.re ++ leI 2 z.im)

def execEstEisGet (slot : Nat) (s : State) := command 0x0906 slot cmdEstEisGet s

/-- The last accepted run is older than EIS_DAYS, or there has been none. -/
def eisOld (m : Mach) (ctx : Nat) : Bool :=
  match (getCtx m ctx).eisAge with
  | some a => m.est.eisDays * 86400000 < a
  | none => true

/-- EIS_DUE (R344). -/
def execEisDue (ctx : Nat) (s : State) : Host.Outcome State Fault Refusal :=
  guardUnit (ctx < 272) s fun m =>
    when ((getCtx m ctx).active && m.est.eisDays ≠ 0 && eisOld m ctx && !eisPending m (ctxMach m ctx)) m fun m =>
      { m with est := { m.est with eisQueue := m.est.eisQueue ++ [(ctxMach m ctx, 0)] } }

/-- EIS_RUN (R341): the machine in CC, a grant held, and the charge grant or the pass covers I_BIAS. -/
def eisRun (m : Mach) (c : Nat) : Mach :=
  let amp := machQFull m c / 50
  let h := if c = 0 then 49 else c - 1
  let covers := (amp + 100) * vBat m c ≤ 1000 * (getHold m h).grant
  if (getChg m c).st = .cc && (m.lft.eis.any fun g => g.mach = c) && covers && !(m.est.eis.any fun r => r.mach = c) then
    let m := forAll m (machCtxs m c) fun m x => modCtx m x fun k => { k with eisSum := 0, eisN := 0 }
    let m := { m with est := { m.est with eis := m.est.eis ++ [{ mach := c, ampMa := amp, freqAt := m.dev.now + ms (eisTime 0) }] } }
    chgApply (modChg m c fun k => { k with bias := some (amp + 100) }) c
  else m

def execEisRun (m : Nat) (s : State) : Host.Outcome State Fault Refusal := guardUnit (m < 49) s fun mc => eisRun mc m

/-- The impedance V / I in 10 uOhm, to the nearest, held to 16 bits (R342, R344). -/
def impedance (o : EisMeas) : Zpt :=
  let d : Int := o.iRe * o.iRe + o.iIm * o.iIm
  let q (n : Int) : Int := clampI (-32768) 32767 (roundDivI (100 * n) d.toNat)
  { re := q (o.vRe * o.iRe + o.vIm * o.iIm), im := q (o.vIm * o.iRe - o.vRe * o.iIm) }

/-- 2 pi in single precision (R343). -/
def fTwoPi : F32 := 0x40C90FDB#32

/-- The results of an accepted run on one context (R343). -/
def eisAccept (m : Mach) (x amp : Nat) (z : List Zpt) : Mach :=
  let re (i : Nat) : Int := (z.getD i {}).re
  let zs := (clampI 0 65535 (re 0)).toNat
  let zp := re 4 - (zs : Int)
  let r1 := re 3 - (zs : Int)
  let two := 0 < r1 && r1 < zp
  let tau := fDiv (fSqrt (fSub (fDiv (fOfInt zp) (fOfInt r1)) (fOfInt 1))) fTwoPi
  let cp := clampI 0 65535 (roundRat (fToRat (fDiv tau (fR zp 100000))))
  modCtx m x fun c =>
    let c := { c with zs := zs, zp := if two then satTo 65535 zp.toNat else c.zp, cp := if two then cp.toNat else c.cp
                      zsNew := if c.zsNew = 0 then zs else c.zsNew, z := z, eisAge := some 0, eisAmp := amp
                      eisTemp := if c.eisN = 0 then c.temp / 8 else c.eisSum / (8 * (c.eisN : Int)), learnPending := true }
    { c with fzs := zsOhm c }

/-- EIS_FREQUENCY_DONE (R342). -/
def eisFrequencyDone (m : Mach) (r : EisRun) (meas : List EisMeas) (amp drop : Nat) : Mach :=
  let m := advanceTo m r.freqAt
  let put (r : EisRun) : Mach :=
    { m with est := { m.est with eis := m.est.eis.map fun y => if y.mach = r.mach then r else y } }
  let bad := 5 * amp < 4 * r.ampMa || 6 * r.ampMa < 5 * amp || 10 < drop
    || meas.any fun o => o.iRe = 0 && o.iIm = 0
  if bad then
    (if r.again then eisFinish m r.mach 2
     else put { r with again := true, freqAt := m.dev.now + ms (eisTime r.idx) })
  else
    let zs := r.zs ++ (meas.map fun o => (o.ctx, impedance o))
    if r.idx < 4 then put { r with zs := zs, idx := r.idx + 1, again := false, freqAt := m.dev.now + ms (eisTime (r.idx + 1)) }
    else
      let m := forAll m (machCtxs m r.mach) fun m x =>
        let z := (zs.filter fun y => y.1 = x).map (·.2)
        if z.length = 5 then eisAccept m x r.ampMa z else m
      chgApply (eisFinish m r.mach 1) r.mach

def execEisFrequencyDone (m : Nat) (meas : List EisMeas) (ampMa dropPermille : Nat) (s : State) :
    Host.Outcome State Fault Refusal :=
  guardUnit (m < 49 && meas.all fun o => o.ctx < 272) s fun mc =>
    match mc.est.eis.find? fun r => r.mach = m with
    | none => mc
    | some r => eisFrequencyDone mc r meas ampMa dropPermille

/-- EIS_ABORT (R343): the machine has left CC, or its grant has ended, or its battery is gone. -/
def execEisAbort (m : Nat) (s : State) : Host.Outcome State Fault Refusal :=
  guardUnit (m < 49) s fun mc =>
    when ((getChg mc m).st ≠ .cc || !(mc.lft.eis.any fun g => g.mach = m) || (machCtxs mc m).isEmpty) mc fun mc =>
      chgApply (eisAbort mc m) m

end Machine
end Sys2Proof
end

