-- ==== Sys2Proof/Machine/Thermal.lean ====
section
/-! DEFINITION. Sys2Proof/Machine/Thermal.lean: sensors, thresholds and throttling (chapter 13), and the housekeeping
round (R79); the coinciding events of R374 are those of its parts. The junction shutdown stands in Guard.lean. -/
namespace Sys2Proof
namespace Machine

/-! ### Sensors, classes and scopes (R356 to R358) -/

/-- Class of a sensor: 0 CORE, 1 FE, 2 STAGE, 3 PORT, 4 STORE, 5 BOARD. -/
def classOf (x : Nat) : Nat :=
  if x < 12 then 0 else if x < 24 then 1 else if x < 40 then 2 else if x < 88 then 3 else if x < 92 then 4 else 5

/-- Scope of a sensor's actions: 0 CORE, 1 FE-E, 2 FE-W, 3 to 18 the TMON groups, 19 to 66 the ports, 67 the Store,
68 BOARD. -/
def scopeOf (x : Nat) : Nat :=
  if x < 12 then 0 else if x < 18 then 1 else if x < 24 then 2 else if x < 40 then x - 21 else if x < 88 then x - 21
  else if x < 92 then 67 else 68

/-- The sensors of a scope. -/
def scopeSensors (sc : Nat) : List Nat := (List.range 94).filter fun x => scopeOf x = sc

/-- The sensor is read: an SNTC that SNTC_MASK does not name is not (R181, R531). -/
def sensUsed (m : Mach) (x : Nat) : Bool := x < 88 || 92 ≤ x || (configuredSntc m).contains x

def thmClass (m : Mach) (x : Nat) : ThmClass := tget m.thm.classes {} (classOf x)

/-- Threshold `l` of a class: 0 WARN, 1 THROTTLE, 2 LIMIT. -/
def thmEdge (c : ThmClass) (l : Nat) : Int := if l = 0 then c.warn else if l = 1 then c.throttle else c.limit

/-- The highest threshold a sensor is in: 0 none. -/
def sensLevel (s : Sensor) : Nat :=
  if s.inLvl.getD 2 false then 3 else if s.inLvl.getD 1 false then 2 else if s.inLvl.getD 0 false then 1 else 0

def maxOf (l : List Nat) : Nat := l.foldl max 0

/-- The level of a scope (R361); invalid sensors hold theirs (R357). -/
def scopeLevel (m : Mach) (sc : Nat) : Nat := maxOf ((scopeSensors sc).map fun x => sensLevel (getSens m x))

/-- A reading is invalid (R357). -/
def sensInvalid (m : Mach) (x : Nat) (t : Int) : Bool :=
  let die (d : Nat) : Bool := (getBlk m (blkLinkE + d)).fence.isSome
  if x < 12 then false
  else if x < 24 then die (if x < 18 then 0 else 1)
  else if x < 40 then (getTmon m (x - 24)).open_
  else if x < 88 then t = -32768 || die ((x - 40) / 24) || (getPort m (x - 40)).mode = 0
  else t = -32768

/-- The maximum valid reading of a list of sensors; -32768 with none (R358). -/
def maxReading (m : Mach) (l : List Nat) : Int :=
  ((l.filter fun x => (getSens m x).valid).map fun x => (getSens m x).t).foldl max (-32768)

/-! ### Actions (R364 to R369) -/

/-- Ports whose passes a scope caps. -/
def scopePorts (sc : Nat) : List Nat :=
  if sc = 1 then List.range 24 else if sc = 2 then (List.range 24).map (24 + ·)
  else if 19 ≤ sc && sc < 67 then [sc - 19] else []

def modCap (m : Mach) (sc : Nat) (f : ThmCap → ThmCap) : Mach :=
  { m with thm := { m.thm with caps := tupd m.thm.caps sc f } }

/-- A scope's caps and ceilings follow its level: set at entry, with the cost sum and the passes then; their 30 s begin
when the level is left (R369). -/
def capFollow (m : Mach) (sc lvl : Nat) : Mach :=
  let sum := costSum m
  let m := if 2 ≤ lvl then
      forAll m (scopePorts sc) fun m p => modHold m p fun h =>
        { h with thmBase := some (h.thmBase.getD (if h.held then h.grant else 0)) }
    else m
  let t := after m (sec 30)
  modCap m sc fun c =>
    { thr := c.thr || 2 ≤ lvl, thrBase := if !c.thr && 2 ≤ lvl then sum else c.thrBase
      thrAt := if 2 ≤ lvl then none else if c.thr && c.thrAt.isNone then t else c.thrAt
      lim := c.lim || lvl = 3, limBase := if !c.lim && lvl = 3 then sum else c.limBase
      limAt := if lvl = 3 then none else if c.lim && c.limAt.isNone then t else c.limAt }

/-- Half rate of converters above 500 kHz while the core die is in THROTTLE or above (R366). -/
def halfRate (m : Mach) (on : Bool) : Mach :=
  forAll m (List.range 55) fun m k =>
    let c := getCv m k
    if on then
      (if 500 < c.decl.fswKhz && c.decl.topo ≠ 0 && c.ctrl.cfg.updateDiv = 1 && !c.prot.thmHalf then
        modCv m k fun c => { c with prot := { c.prot with thmHalf := true }
                                    ctrl := { c.ctrl with rateReq := if c.run then some 2 else none } }
       else m)
    else if c.prot.thmHalf then
      modCv m k fun c =>
        { c with prot := { c.prot with thmHalf := false }
                 ctrl := { c.ctrl with rateReq := if c.run && c.ctrl.div = 2 then some c.ctrl.cfg.updateDiv else none } }
    else m

/-- The TMON groups a converter has a declared phase on are at level `l` or above. -/
def groupAt (m : Mach) (k l : Nat) : Bool :=
  (List.range 16).any fun j => l ≤ scopeLevel m (3 + j) && (groupConvs m j).contains k

/-- The current a converter carries, from its loops' last samples: IOUT, for ICi ISRC, in mA. -/
def carriedMa (m : Mach) (k : Nat) : Nat :=
  let c := getCv m k
  if c.run then ((tget c.ctrl.loops {} (thmLoop k)).y.headD 0 / 65536).natAbs else 0

/-- The thermal shed and derate of one converter (R368). -/
def shedConv (m : Mach) (k : Nat) : Mach :=
  let c := getCv m k
  if c.prot.thmLim.isSome then m
  else
    let live := livePhases c
    let park := 2 ≤ live.length && 10 * carriedMa m k < 4 * irateTotal m k
    let m := match live.getLast? with
      | some i => if park then
          setLive (modCv m k fun c => { c with ph := tupd c.ph i fun y => { y with st := .parked }
                                               prot := { c.prot with shedPark := i + 1 } }) (cnvBlk k) .thermalShed 3 true
        else m
      | none => m
    let full := refNow m k (thmLoop k)
    let m := modCv m k fun c => { c with prot := { c.prot with thmLim := some full } }
    let m := shedLimits m k
    if k < 48 && (getCv m k).run && !(getCv m k).reverse then
      let m := modCv m k fun c =>
        { c with prot := { c.prot with derateMa := some (min full (irateTotal m k) / 2), derateAt := after m (ms 100) } }
      -- R142: the PD core offers what the limit allows
      if (getPd m k).contract then modPd m k fun x => { x with capsAt := some m.dev.now } else m
    else m

/-- The end of both (R368): a parked phase returns, and the limit is whole again. -/
def unshedConv (m : Mach) (k : Nat) : Mach :=
  match (getCv m k).prot.thmLim with
  | none => m
  | some full =>
    let i := (getCv m k).prot.shedPark
    let m := modCv m k fun c =>
      { c with ph := if i = 0 then c.ph else tupd c.ph (i - 1) fun y => if y.st = .parked then { y with st := .inService } else y
               prot := { c.prot with shedPark := 0, thmLim := none } }
    setRef (setLive m (cnvBlk k) .thermalShed 3 false) k (thmLoop k) full

/-- The charge currents under their thermal limits (R364, R185). -/
def thmCharge (m : Mach) : Mach :=
  let st := scopeLevel m 67
  let m := modChg m 0 fun c => { c with thmPct := if st = 3 then 0 else if st = 2 then 50 else 100 }
  forAll m (List.range 48) fun m p =>
    if isBay m p then modChg m (p + 1) fun c => { c with thmPct := if (thmCap m (19 + p)).lim then 0 else 100 } else m

/-- A scope's level has moved from `old` to `lvl`: the actions of R364 follow. -/
def scopeAct (m : Mach) (sc old lvl : Nat) : Mach :=
  if old = lvl then m
  else if sc = 0 then halfRate (capFollow m sc lvl) (2 ≤ lvl)
  else if sc < 3 then
    let m := capFollow m sc lvl
    if lvl = 3 then
      forAll m (scopePorts sc) fun m p => if (getPd m p).epr then m else modPort m p fun x => { x with vconn := false }
    else m
  else if sc < 19 then
    forAll m (groupConvs m (sc - 3)) fun m k =>
      let m := if groupAt m k 2 then m else modCv m k fun c => { c with prot := { c.prot with pulseSkip := false } }
      if groupAt m k 3 then (if lvl = 3 then shedConv m k else m) else unshedConv m k
  else if sc = 67 then chgApply (thmCharge (capFollow m sc lvl)) 0
  else if sc = 68 then capFollow m sc lvl
  else chgApply (thmCharge (capFollow m sc lvl)) (sc - 18)

/-- The LIVE flags of block 0x79 (R357, R364). -/
def thmLive (m : Mach) : Mach :=
  let any (l : Nat) : Bool := (List.range 94).any fun x => (getSens m x).inLvl.getD l false
  let m := setLive m blkThm .warn 2 (any 0)
  let m := setLive m blkThm .throttle 3 (any 1)
  let m := setLive m blkThm .limit 3 (any 2)
  setLive m blkThm .sensorInvalid 2 ((List.range 94).any fun x => (getSens m x).seen && !(getSens m x).valid)

/-! ### Samples (R359 to R362) -/

/-- One threshold judged on a sample (R361); `now` stamps a transition. -/
def judgeEdge (c : ThmClass) (t : Int) (now : Nat) (s : Sensor) (l : Nat) : Sensor :=
  if !bit c.arm l then s
  else
    let on := s.inLvl.getD l false
    let meets := if on then t ≤ thmEdge c l - c.hyst else thmEdge c l ≤ t
    let n := if meets then s.dwell.getD l 0 + 1 else 0
    if meets && c.dwell ≤ n then
      { s with inLvl := s.inLvl.set l (!on), dwell := s.dwell.set l 0, trans := s.trans.set l (satTo 65535 (s.trans.getD l 0 + 1))
               changes := (s.changes.filter fun x => now < x.2 + sec 60) ++ [(l, now)] }
    else { s with dwell := s.dwell.set l n }

/-- The armed edges of a sensor now (R359). -/
def armedEdges (c : ThmClass) (s : Sensor) : List Int :=
  ((List.range 3).filter fun l => bit c.arm l).map fun l =>
    if s.inLvl.getD l false then thmEdge c l - c.hyst else thmEdge c l

/-- A reading, as thresholds judge it, lies within `d` of an armed edge. -/
def nearEdge (c : ThmClass) (s : Sensor) (t : Int) (d : Nat) : Bool := (armedEdges c s).any fun e => (t - e).natAbs ≤ d

/-- A reading of sensor `x` (R357, R360, R361): its thresholds, and the actions that follow. TMON lines read in mV (R72). -/
def thmRead (m : Mach) (x : Nat) (r : Int) : Mach :=
  let tm := 24 ≤ x && x < 40
  let m := if tm then tmonRead m (x - 24) r.toNat else m
  let t := if tm then (getTmon m (x - 24)).temp else r
  let s := getSens m x
  let now := m.dev.now
  if sensInvalid m x t then
    let m := modSens m x fun s => { s with t := -32768, valid := false, seen := true, readAt := now }
    thmLive (if s.valid || !s.seen then note m blkThm .sensorInvalid 2 else m)
  else
    -- R520: an offset of KIND 4 on the readings that thresholds and windows judge
    let tj := t + ptbValue m 4 x
    let c := thmClass m x
    let sc := scopeOf x
    let old := scopeLevel m sc
    let s1 := { s with t := t, valid := true, seen := true, readAt := now }
    let s2 := (List.range 3).foldl (judgeEdge c tj now) s1
    let s2 := { s2 with far := if nearEdge c s2 tj (c.fastBand + 16) then 0 else s2.far + 1 }
    let m := modSens m x fun _ => s2
    let entered (l : Nat) : Bool := s2.inLvl.getD l false && !s1.inLvl.getD l false
    let m := if entered 0 then note m blkThm .warn 2 else m
    let m := if entered 1 then note m blkThm .throttle 3 else m
    let m := if entered 2 then note m blkThm .limit 3 else m
    scopeAct (thmLive m) sc old (scopeLevel m sc)

/-- A sample of the charge windows follows a reading (R190, R206): the Store's lowest and highest valid thermistor, or the
bay's own, an open one read as the top of its range (R357). -/
def windowRead (m : Mach) (x : Nat) (t : Int) : Mach :=
  if 40 ≤ x && x < 88 then
    (if isBay m (x - 40) then
      let v := if t = -32768 then 1280 else t + ptbValue m 4 x
      windowAct m (x - 39) v v
     else m)
  else if (configuredSntc m).contains x then
    let ts := ((configuredSntc m).filter fun y => (getSens m y).valid).map fun y =>
      (getSens m y).t + ptbValue m 4 y
    match ts with
    | [] => m
    | a :: l => windowAct m 0 (l.foldl min a) (l.foldl max a)
  else m

/-- The ADC array takes readings. -/
def measuring (m : Mach) : Bool := m.dev.adcclk && m.pwr.st ≠ .standby && m.pwr.st ≠ .ship && !m.dev.resetPhase

/-- THM_SAMPLE (R361): a reading from a fast lane. -/
def execThmSample (sensor : Nat) (t : Int) (s : State) : Host.Outcome State Fault Refusal :=
  guardUnit (sensor < 94) s fun m => when (measuring m && sensUsed m sensor) m fun m =>
    windowRead (thmRead m sensor t) sensor t

/-- LANE_CHANGE (R359): promoted at the next 1 ms slot within FAST_BAND of an armed edge; back after every reading of 1 s
lay beyond FAST_BAND + 16. -/
def execLaneChange (sensor : Nat) (s : State) : Host.Outcome State Fault Refusal :=
  guardUnit (sensor < 94) s fun m =>
    let x := getSens m sensor
    let c := thmClass m sensor
    if !x.fast then
      when (x.valid && nearEdge c x (x.t + ptbValue m 4 sensor) c.fastBand) m fun m => modSens m sensor fun x => { x with fast := true }
    else when (1000 ≤ x.far) m fun m => modSens m sensor fun x => { x with fast := false }

/-- Transitions of one threshold of a sensor within the last 60 s. -/
def recentChanges (m : Mach) (x l : Nat) : Nat :=
  ((getSens m x).changes.filter fun c => c.1 = l && m.dev.now < c.2 + sec 60).length

/-- HOVER (R362). -/
def execHover (sensor level : Nat) (s : State) : Host.Outcome State Fault Refusal :=
  guardUnit (sensor < 94 && level < 3) s fun m =>
    when (8 ≤ recentChanges m sensor level) m fun m =>
      setLive (note { m with thm := { m.thm with hoverSeen := true } } blkThm .hover 2) blkThm .hover 2 true

/-- THM_CAP_LIFT (R369): a scope has been below the level for 30 s. -/
def thmCapLift (m : Mach) (sc : Nat) : Mach :=
  let c := thmCap m sc
  let lift (m : Mach) : Mach :=
    let free (p : Nat) : Bool := !((thmCap m (1 + p / 24)).thr || (thmCap m (1 + p / 24)).lim
      || (thmCap m (19 + p)).thr || (thmCap m (19 + p)).lim)
    let m := forAll m (scopePorts sc) fun m p => if free p then modHold m p fun h => { h with thmBase := none } else m
    let m := thmCharge m
    if 19 ≤ sc && sc < 67 && isBay m (sc - 19) then chgApply m (sc - 18) else m
  match c.limAt, c.thrAt with
  | some a, some b =>
    if a ≤ b then lift (modCap (advanceTo m a) sc fun c => { c with lim := false, limAt := none })
    else lift (modCap (advanceTo m b) sc fun c => { c with thr := false, thrAt := none })
  | some a, none => lift (modCap (advanceTo m a) sc fun c => { c with lim := false, limAt := none })
  | none, some b => lift (modCap (advanceTo m b) sc fun c => { c with thr := false, thrAt := none })
  | none, none => m

def execThmCapLift (scope : Nat) (s : State) : Host.Outcome State Fault Refusal :=
  guardUnit (scope < 69) s fun m => thmCapLift m scope

/-! ### Pulse skipping (R367) -/

/-- A sourcing PCp, or AC, in steady running, not slewing to a new voltage. -/
def maySkip (m : Mach) (k : Nat) : Bool :=
  let c := getCv m k
  c.run && (k < 48 || k = 54) && !c.reverse && !c.ctrl.softStart && settled (tget c.ctrl.loops {} 0)
    && (k = 54 || ((getPd m k).psTransAt.isNone && (getPd m k).transAt.isNone))

/-- PULSE_SKIP_ENTRY: below 10 % of the combined rating for 1 ms, its group in THROTTLE or above. -/
def execPulseSkipEntry (conv ma : Nat) (s : State) : Host.Outcome State Fault Refusal :=
  guardUnit (conv < 55) s fun m => when (maySkip m conv && groupAt m conv 2 && 10 * ma < irateTotal m conv) m fun m =>
    modCv m conv fun c => { c with prot := { c.prot with pulseSkip := true } }

/-- PULSE_SKIP_EXIT: above 15 % for 1 ms. -/
def execPulseSkipExit (conv ma : Nat) (s : State) : Host.Outcome State Fault Refusal :=
  guardUnit (conv < 55) s fun m =>
    when ((getCv m conv).prot.pulseSkip && 15 * irateTotal m conv < 100 * ma) m fun m =>
      modCv m conv fun c => { c with prot := { c.prot with pulseSkip := false } }

/-! ### The housekeeping round (R79, R176, R186, R359) -/

/-- An SNTC that the profile no longer names leaves every level (R181). -/
def sensDrop (m : Mach) (x : Nat) : Mach :=
  if sensUsed m x || !(getSens m x).seen then m
  else
    let old := scopeLevel m (scopeOf x)
    let m := modSens m x fun _ => {}
    scopeAct (thmLive m) (scopeOf x) old (scopeLevel m (scopeOf x))

/-- One round: rails, taps, the sensors, the charge windows and the imbalance trim, and the samples the ADC array drops in it
(R80). The taps are read where FE-W is in service, and judge a Store found at power-up; HOVER's LIVE flag goes when no threshold
has eight transitions in its last 60 s. -/
def housekeepingRound (m : Mach) (r : Round) : Mach :=
  let m := apDrops m r.apertures
  let m := { m with path := { m.path with vstsMv := r.vstsMv, sysMv := r.sysMv, auxMv := r.auxMv } }
  let m := if (getBlk m (blkLinkE + 1)).fence.isSome then m
    else imbTrimAdjust (storeTaps (laneEnter { m with sto := { m.sto with taps := r.taps, tapsRead := true } }))
  let rd (x : Nat) : Int := r.sensors.getD x (-32768)
  let m := forAll m (List.range 94) fun m x => if sensUsed m x then thmRead m x (rd x) else sensDrop m x
  let m := match (configuredSntc m).getLast? with
    | some x => windowRead m x (rd x)
    | none => m
  let m := forAll m (List.range 48) fun m p => windowRead m (40 + p) (rd (40 + p))
  setLive m blkThm .hover 2
    (isLive m blkThm (codeOf .hover) && (List.range 94).any fun x => (List.range 3).any fun l => 8 ≤ recentChanges m x l)

def execHousekeepingRound (round : Round) (s : State) : Host.Outcome State Fault Refusal :=
  guardRead (round.taps.length = 17 && round.sensors.length = 94)
    (sysRated round.vstsMv && sysRated round.sysMv && sysRated round.auxMv && round.taps.all sysRated) s fun m =>
    when (measuring m) m fun m => housekeepingRound m round

/-! ### Configuration and status (R363, R372, R373) -/

/-- THM_CFG without its retention write (R363): a sensor in a disarmed level leaves it at once, and the exit is counted. -/
def setThmCfg (m : Mach) (p : List Byte) : Ans :=
  let cl := pU p 0 1
  let c : ThmClass := { arm := pU p 1 1, warn := pI p 2 2, throttle := pI p 4 2, limit := pI p 6 2, hyst := pU p 8 1
                        dwell := pU p 9 1, fastBand := pU p 10 1 }
  let r (v : Int) : Bool := withinI v (-400) 1280
  refuseFirst
    [(5 < cl || 7 < c.arm || !r c.warn || !r c.throttle || !r c.limit || c.throttle ≤ c.warn || c.limit ≤ c.throttle
        || 120 < c.hyst || c.dwell = 0 || c.fastBand < 16 || (cl ≤ 1 && 1320 ≤ c.limit + c.hyst), .outOfRange)] <|
    let m := { m with thm := { m.thm with classes := tupd m.thm.classes cl fun _ => c } }
    let m := forAll m ((List.range 94).filter fun x => classOf x = cl) fun m x =>
      let old := scopeLevel m (scopeOf x)
      let now := m.dev.now
      let m := modSens m x fun s =>
        (List.range 3).foldl (fun s l =>
          if s.inLvl.getD l false && !bit c.arm l then
            { s with inLvl := s.inLvl.set l false, dwell := s.dwell.set l 0
                     trans := s.trans.set l (satTo 65535 (s.trans.getD l 0 + 1)), changes := s.changes ++ [(l, now)] }
          else s) s
      scopeAct m (scopeOf x) old (scopeLevel m (scopeOf x))
    .ok (thmLive m) []

def cmdThmCfg (m : Mach) (_ : Nat) (p : List Byte) : Ans := persist 0x0A01 (pU p 0 1) p (setThmCfg m p)
def execThmCfg (slot : Nat) (s : State) := command 0x0A01 slot cmdThmCfg s

/-- The seven groups of R358. -/
def thmGroups : List (List Nat) :=
  [List.range 12, (List.range 6).map (12 + ·), (List.range 6).map (18 + ·), (List.range 16).map (24 + ·),
   (List.range 48).map (40 + ·), (List.range 4).map (88 + ·), [92, 93]]

/-- The highest level of the valid sensors of a list. -/
def validLevel (m : Mach) (l : List Nat) : Nat :=
  maxOf ((l.filter fun x => (getSens m x).valid).map fun x => sensLevel (getSens m x))

/-- THM_GROUPS_GET (R373). -/
def cmdThmGroupsGet (m : Mach) (_ : Nat) (_ : List Byte) : Ans :=
  .ok m (thmGroups.flatMap fun g => leI 2 (maxReading m g) ++ [BitVec.ofNat 8 (validLevel m g), 0])

def execThmGroupsGet (slot : Nat) (s : State) := command 0x0A02 slot cmdThmGroupsGet s

/-- THM_SENSOR_GET (R373). -/
def cmdThmSensorGet (m : Mach) (_ : Nat) (p : List Byte) : Ans :=
  let x := pU p 0 1
  let s := getSens m x
  refuseFirst [(94 ≤ x, .outOfRange)] <|
    .ok m (leI 2 (if s.valid then s.t else -32768) ++ [BitVec.ofNat 8 (sensLevel s), if s.fast then 1 else 0]
      ++ (s.trans.flatMap fun n => le 2 n)
      ++ le 2 (if s.seen then satTo 65535 ((m.dev.now - s.readAt) / 1000000) else 65535))

def execThmSensorGet (slot : Nat) (s : State) := command 0x0A03 slot cmdThmSensorGet s

/-- CLK_DIV of R372: 1 divided by 2, 2 divided by 4 (R364). -/
def clkDiv (m : Mach) : Nat := let l := scopeLevel m 0; if l = 3 then 2 else if l = 2 then 1 else 0

/-- THM_STAT (R372); TJMAX holds its reset value until a die sensor has been read. -/
def thmStatWord (m : Mach) : Nat :=
  let die := List.range 24
  let tj := if die.any fun x => (getSens m x).seen then (maxReading m die % 65536).toNat else 0
  tj * 2 ^ 16 + validLevel m (List.range 94) * 2 ^ 14 + clkDiv m * 2 ^ 12
    + flag ((List.range 55).any fun k => (getCv m k).run && (getCv m k).prot.thmHalf && (getCv m k).ctrl.div = 2) 11
    + flag ((List.range 55).any fun k => (getCv m k).prot.pulseSkip) 10
    + flag ((List.range 55).any fun k => (getCv m k).prot.shedPark ≠ 0) 9
    + flag m.grd.tsd 8 + flag m.thm.tsdSeen 7 + flag m.thm.hoverSeen 6
    + min 63 ((List.range 94).filter fun x => (getSens m x).fast).length

def thmStatWrite (m : Mach) (w : Nat) : Mach :=
  { m with thm := { m.thm with tsdSeen := m.thm.tsdSeen && !bit w 7, hoverSeen := m.thm.hoverSeen && !bit w 6 } }

end Machine
end Sys2Proof
end

