-- ==== Sys2Proof/Machine/Ports.lean ====
section
/-! DEFINITION. Sys2Proof/Machine/Ports.lean: the Type-C state machines, VCONN, DCP, moisture, washdown and the pins'
protection (chapter 9 and R526). The touch keys and LEDs stand in Ui.lean. -/
namespace Sys2Proof
namespace Machine

/-! ### Behaviour (R161, R233) -/

/-- TRY of R260 by R233: 0 source only, 1 Try.SRC, 2 Try.SNK, 3 dead-battery sink. -/
def behaviour (m : Mach) (p : Nat) : Nat :=
  let x := getPort m p
  if x.dead && (getCv m p).decl.topo ≠ 2 && (getCv m p).decl.topo ≠ 3 then 3
  else if x.role = 1 || (getCv m p).decl.topo = 2 || (getCv m p).decl.topo = 3 || !donorCond m then 0
  else if m.path.donorPol = 3 then 1 else 2

/-- Times of R235. -/
def tCCDebounce : Nat := ms 120
def tPDDebounce : Nat := ms 12
def tDrpHalf : Nat := us 37500
def tDRPTry : Nat := ms 100
def tDRPTryWait : Nat := ms 600
def tTryTimeout : Nat := ms 800
def tErrorRecovery : Nat := ms 30

/-- A moisture check's length (R236, R244). -/
def tCheck : Nat := ms 6

/-- The port's finding, or washdown, keeps its CC lines open (R247, R250). -/
def moistHeld (m : Mach) (p : Nat) : Bool := bayHeld m p

/-- The port enters its Unattached state with the behaviour of R233 as it is now, MOIST_HOLD where its finding or washdown
asks for that, Disabled and bay use by its MODE. -/
def goUnattached (m : Mach) (p : Nat) : Mach :=
  let b := behaviour m p
  let hold := moistHeld m p
  modPort m p fun x =>
    let x := { x with cc := 0, ra := false, vconn := false, vconnMa := 0, vconnOc := false, dcp := false, rp := 0
                      partnerRp := 0, debounceAt := none, debounced := false, toggleAt := none, tryAt := none
                      recoverAt := none, checkOk := false, damp5 := false, draw := true
                      checkEndAt := if x.checkKind = 0 then x.checkEndAt else none, behav := b }
    let idle := if x.checkAt.isSome || x.checkEndAt.isSome then x.checkAt else some (m.dev.now + sec 10)
    if x.mode = 0 then { x with tc := .disabled, checkAt := none, checkEndAt := none }
    else if x.mode = 2 then { x with tc := .bay, checkAt := idle }
    else if hold then { x with tc := .moistHold, checkAt := idle }
    else if b = 0 then { x with tc := .unattachedSrc, checkAt := idle }
    else { x with tc := .unattachedSnk, checkAt := idle, toggleAt := if b = 3 then none else after m tDrpHalf }

/-- The port is in an Unattached state. -/
def isUnattached (x : Port) : Bool := x.tc = .unattachedSrc || x.tc = .unattachedSnk

/-- An own check begins (R244): kind 0 idle, 1 before a sourcing, 2 before a sinking attach. -/
def startCheck (m : Mach) (p kind : Nat) : Mach :=
  modPort m p fun x => { x with checkKind := kind, checkEndAt := after m tCheck, checkOk := false
                                checkAt := if kind = 0 then none else x.checkAt }

/-! ### Sourcing (R236 to R238, R242, R243) -/

/-- VCONN may be switched on (R242, R364). -/
def vconnOn (m : Mach) (p : Nat) : Bool :=
  let x := getPort m p
  x.tc = .attachedSrc && x.ra && bit x.flags 0 && !x.vconnOc && scopeLevel m (1 + p / 24) < 2

/-- VBUS and the pass of an attached source asked for (R237): the park level from the first, then the Rp level's pass. -/
def sourceBegin (m : Mach) (p : Nat) : Mach :=
  if cnvFenced m p then m
  else
    let m := parkPass m p
    let m := modPd m p fun x => { x with pe := .startup, dfp := true, grantMw := parkMw, hardResets := 0, softResets := 0 }
    let on := vconnOn m p
    let m := modPort m p fun x => { x with vconn := on }
    let m := requestStart (modCv m p fun c => { c with reverse := false }) p
    let mx := (getPort m p).rpMax
    if mx = 2 then passRequest m p 15000 else if mx = 1 then passRequest m p 7500 else m

/-- A port's fence for SHORT ends with a new attach (R131). -/
def shortReleased (m : Mach) (p : Nat) : Mach :=
  if (getBlk m p).fence = some (codeOf .short) then
    modBlk (modBlk m p fun w => { w with fence := none }) (cnvBlk p) fun w => { w with fence := none }
  else m

/-- Attached.SRC entered after a check that holds nothing back (R236, R237). -/
def sourceAttach (m : Mach) (p : Nat) : Mach :=
  let m := shortReleased m p
  let m := modPort m p fun x =>
    { x with tc := .attachedSrc, rp := 0, checkOk := false, debounceAt := none, debounced := false, toggleAt := none
             tryAt := none, checkAt := none, damp5 := x.finding = .damp, vconnOc := false }
  let m := if m.svc.armPort = some p then { m with svc := { m.svc with noPdAt := after m (sec 1), swapTries := 0 } } else m
  sourceBegin m p

/-- ATTACHED_SRC: at the end of a check that found neither WET nor CORRODED, while no junction shutdown lasts (R370). -/
def execAttachedSrc (port : Nat) (s : State) : Host.Outcome State Fault Refusal :=
  guardUnit (port < 48) s fun m =>
    let x := getPort m port
    when (x.checkOk && (x.tc = .attachWaitSrc || x.tc = .trySrc || x.tc = .tryWaitSrc) && !m.grd.tsd) m fun m =>
      sourceAttach m port

/-- What a port loses when it goes unattached, whichever way it was attached: a transition in progress is abandoned and
journalled (R286), retries of a short are cancelled (R131), session, pass and link end. -/
def loseAttachment (m : Mach) (p abort reason : Nat) : Mach :=
  let m := stopRun (abortBy m p abort) p
  let m := setLive (modCv m p fun c =>
    { c with starting := false
             prot := { c.prot with hiccups := 0, hiccupAt := none, prebiasAt := none, prebiasTries := 0, stableAt := none
                                   derateMa := none, derateAt := none } }) (cnvBlk p) .short 4 false
  let m := dropPass (closeSession m p) p
  let m := if m.svc.link ≠ 0 && m.svc.port = p then endLink m reason else m
  let m := if m.svc.armPort = some p then { m with svc := { m.svc with noPdAt := none, swapAt := none, swapTries := 0 } } else m
  modPort m p fun x => { x with plugs := wrap32 (x.plugs + 1) }

/-- The port stop of R238. -/
def sourceStop (m : Mach) (p abort reason : Nat) : Mach := goUnattached (loseAttachment m p abort reason) p

/-- SOURCE_DETACH (R238, R261): the active CC line has opened for 500 us. Before Attached.SRC the check is abandoned and
counts in no run. -/
def sourceDetach (m : Mach) (p : Nat) : Mach :=
  match (getPort m p).tc with
  | .attachedSrc => sourceStop m p 1 4
  | .attachWaitSrc | .trySrc | .tryWaitSrc => goUnattached m p
  | _ => m

def execSourceDetach (port : Nat) (s : State) : Host.Outcome State Fault Refusal :=
  guardUnit (port < 48) s fun m => sourceDetach m port

/-- RD_DETECT (R236, R240, R261): Rd on one CC line. During an idle check AttachWait.SRC starts at the check's end. -/
def rdDetect (m : Mach) (p cc : Nat) (ra : Bool) : Mach :=
  let x := getPort m p
  let from_ := x.checkEndAt.getD m.dev.now
  match x.tc with
  | .unattachedSrc =>
    modPort m p fun x => { x with tc := .attachWaitSrc, cc := cc, ra := ra, toggleAt := none, debounced := false
                                  debounceAt := some (max from_ m.dev.now + tCCDebounce) }
  | .trySrc | .tryWaitSrc =>
    modPort m p fun x => { x with cc := cc, ra := ra, tryAt := none, debounced := false
                                  debounceAt := some (max from_ m.dev.now + tPDDebounce) }
  | _ => m

def execRdDetect (port cc : Nat) (ra : Bool) (s : State) : Host.Outcome State Fault Refusal :=
  guardUnit (port < 48 && cc < 2) s fun m => when (!(getPort m port).accessory) m fun m => rdDetect m port cc ra

/-! ### Sinking (R239, R244) -/

/-- Attached.SNK entered, or Try.SRC first where R233 says so: the port becomes a donor, or the boot sink stays one; the
draw starts under the Type-C current (R545). -/
def sinkAttachDone (m : Mach) (p : Nat) : Mach :=
  let x := getPort m p
  if x.behav = 1 && x.tc = .attachWaitSnk then
    modPort m p fun x => { x with tc := .trySrc, checkOk := false, debounced := false, debounceAt := none
                                  tryAt := after m tDRPTry }
  else
    let m := modPort (shortReleased m p) p fun x =>
      { x with tc := .attachedSnk, checkOk := false, debounced := false, debounceAt := none, toggleAt := none
               tryAt := none, checkAt := none, damp5 := x.finding = .damp, draw := true }
    let m := if m.svc.armPort = some p then { m with svc := { m.svc with noPdAt := after m (sec 1), swapTries := 0 } } else m
    let m := modPd m p fun x => { x with pe := .snkWait, dfp := false, hardResets := 0, softResets := 0, txOk := x.txOk }
    if cnvFenced m p then m
    else
      let m := { m with path := { m.path with donors := m.path.donors.filter (fun q => q ≠ p) ++ [p] } }
      requestStart (modCv m p fun c => { c with reverse := true, vbg := true, vbd := false }) p

/-- SINK_ATTACH (R244): Rp seen; the check runs within tCCDebounce. -/
def sinkAttach (m : Mach) (p cc rp : Nat) : Mach :=
  match (getPort m p).tc with
  | .unattachedSnk =>
    startCheck (modPort m p fun x =>
      { x with tc := .attachWaitSnk, cc := cc, partnerRp := rp, toggleAt := none, debounced := false
               debounceAt := after m tCCDebounce }) p 2
  | .trySnk | .tryWaitSnk =>
    startCheck (modPort m p fun x =>
      { x with cc := cc, partnerRp := rp, tryAt := none, debounced := false, debounceAt := after m tPDDebounce }) p 2
  | _ => m

def execSinkAttach (port cc rp : Nat) (s : State) : Host.Outcome State Fault Refusal :=
  guardUnit (port < 48 && cc < 2 && rp < 3) s fun m =>
    when ((getPort m port).checkEndAt.isNone) m fun m => sinkAttach m port cc rp

/-- CC_DEBOUNCE (R236): tCCDebounce, or tPDDebounce in a Try state, is over: the pre-VBUS check begins, a Try.SNK port
first goes to Try.SNK (R233), a sink whose check has ended attaches. -/
def ccDebounce (m : Mach) (p : Nat) : Mach :=
  let m := modPort m p fun x => { x with debounceAt := none }
  let x := getPort m p
  match x.tc with
  | .attachWaitSrc =>
    -- R370: no moisture check before the release of a junction shutdown
    if m.grd.tsd then modPort m p fun x => { x with debounced := true }
    else if x.behav = 2 then modPort m p fun x => { x with tc := .trySnk, tryAt := after m tDRPTry } else startCheck m p 1
  | .trySrc | .tryWaitSrc => startCheck m p 1
  | .attachWaitSnk | .trySnk | .tryWaitSnk =>
    let m := modPort m p fun x => { x with debounced := true }
    if x.checkOk then sinkAttachDone m p else m
  | _ => m

def execCcDebounce (port : Nat) (s : State) : Host.Outcome State Fault Refusal :=
  guardUnit (port < 48) s fun m => fire m (getPort m port).debounceAt fun m => ccDebounce m port

/-- The sink's attachment ends: only the draw stops (R239); its donor place goes. -/
def sinkStop (m : Mach) (p abort reason : Nat) : Mach :=
  let m := loseAttachment m p abort reason
  let m := modCv m p fun c => { c with vbg := false, vbd := false, reverse := false }
  let m := modPort m p fun x => { x with checkAt := if x.dead then some m.dev.now else x.checkAt, dead := false }
  let m := { m with path := { m.path with
      donors := m.path.donors.filter fun q => q ≠ p
      withdrawn := m.path.withdrawn.filter fun q => q ≠ p
      bootSink := if m.path.bootSink = some p then none else m.path.bootSink
      bootCapsAt := if m.path.bootSink = some p then none else m.path.bootCapsAt } }
  let m := if (getPort m p).vbsMv < 4500 then { m with dev := { m.dev with vbootMv := 0 } } else m
  goUnattached (ladderApply (rankRecompute m)) p

/-- A detach criterion of R239 holds. -/
def sinkGone (m : Mach) (p vbs : Nat) (rpAbsent : Bool) : Bool :=
  let d := getPd m p
  let vbusOff := vbs < 3670 || (d.contract && 5000 < d.vTarget && d.pe ≠ .snkTransition && 4 * vbs < 3 * d.vTarget)
  rpAbsent || (vbusOff && (getPort m p).draw && d.snkHrAt.isNone)

/-- SINK_DETACH (R239). -/
def sinkDetach (m : Mach) (p vbs : Nat) (rpAbsent : Bool) : Mach :=
  let m := modPort m p fun x => { x with vbsMv := vbs }
  match (getPort m p).tc with
  | .attachedSnk => if sinkGone m p vbs rpAbsent then sinkStop m p 1 4 else m
  | .attachWaitSnk | .trySnk | .tryWaitSnk => if rpAbsent then goUnattached m p else m
  | _ => m

def execSinkDetach (port vbsMv : Nat) (rpAbsent : Bool) (s : State) : Host.Outcome State Fault Refusal :=
  guardRead (port < 48) (vbsMv ≤ 60000) s fun m => sinkDetach m port vbsMv rpAbsent

/-! ### Toggling and tries (R235) -/

/-- DRP_TOGGLE: the other half of tDRP, an entry to an Unattached state (R233, R261); between idle checks (R244). -/
def drpToggle (m : Mach) (p : Nat) : Mach :=
  let x := getPort m p
  if !isUnattached x || x.checkEndAt.isSome then modPort m p fun x => { x with toggleAt := after m tDrpHalf }
  else
    let b := behaviour m p
    modPort m p fun x =>
      { x with behav := b, toggleAt := if b = 1 || b = 2 then after m tDrpHalf else none
               tc := if b = 0 then .unattachedSrc else if b = 3 then .unattachedSnk
                     else if x.tc = .unattachedSnk then .unattachedSrc else .unattachedSnk }

def execDrpToggle (port : Nat) (s : State) : Host.Outcome State Fault Refusal :=
  guardUnit (port < 48) s fun m => fire m (getPort m port).toggleAt fun m => drpToggle m port

/-- TRY_TIMEOUT. -/
def tryTimeout (m : Mach) (p : Nat) : Mach :=
  let m := modPort m p fun x => { x with tryAt := none }
  match (getPort m p).tc with
  | .trySrc => modPort m p fun x => { x with tc := .tryWaitSnk, tryAt := after m tTryTimeout }
  | .trySnk => modPort m p fun x => { x with tc := .tryWaitSrc, tryAt := after m tDRPTryWait }
  | .tryWaitSnk | .tryWaitSrc => goUnattached m p
  | _ => m

def execTryTimeout (port : Nat) (s : State) : Host.Outcome State Fault Refusal :=
  guardUnit (port < 48) s fun m => fire m (getPort m port).tryAt fun m => tryTimeout m port

/-- ErrorRecovery entered: CC open for tErrorRecovery (R235). -/
def errorRecovery (m : Mach) (p : Nat) : Mach :=
  modPort m p fun x =>
    { x with tc := .errorRecovery, vconn := false, dcp := false, debounceAt := none, debounced := false, toggleAt := none
             tryAt := none, checkOk := false, checkEndAt := if x.checkKind = 0 then x.checkEndAt else none
             recoverAt := after m tErrorRecovery }

/-- ERROR_RECOVERY_END. -/
def execErrorRecoveryEnd (port : Nat) (s : State) : Host.Outcome State Fault Refusal :=
  guardUnit (port < 48) s fun m => fire m (getPort m port).recoverAt fun m => goUnattached m port

/-- ACCESSORY_DETECT (R240, R539): recorded at severity 2, and a LIVE flag until the lines change. -/
def accessoryDetect (m : Mach) (p : Nat) (present : Bool) : Mach :=
  if present && !isUnattached (getPort m p) then m
  else
    let m := if present && !(getPort m p).accessory then note m p .accessory 2 else m
    setLive (modPort m p fun x => { x with accessory := present }) p .accessory 2 present

def execAccessoryDetect (port : Nat) (present : Bool) (s : State) : Host.Outcome State Fault Refusal :=
  guardUnit (port < 48) s fun m => accessoryDetect m port present

/-! ### Moisture (R244 to R249) -/

/-- A pin's resistance in ohm, none when open, that is at or above 1 200 kOhm (R245). -/
def pinOhm (x : PinMeas) : Option Nat :=
  if x.v20 < 2400 then some ((x.v20 - x.v2).toNat * 1000 / 18)
  else if x.v2 < 2400 then
    let r := (x.v2 - x.voff).toNat * 500
    if r < 1200000 then some r else none
  else none

/-- |VOFF| above 50 mV. -/
def offset (x : PinMeas) : Bool := 50 < x.voff.natAbs

/-- Pin `i` is taken as measured by this check (R244, R302): not the active CC line before VBUS, and on a bay CC1, CC2 and
VBS alone. -/
def pinUsed (x : Port) (i : Nat) (q : PinMeas) : Bool :=
  q.measured && !(x.checkKind ≠ 0 && i = x.cc) && !(x.mode = 2 && (i = 2 || i = 3))

/-- Readings that count as terminations before VBUS (R246). -/
def exempt (x : Port) (pins : List PinMeas) (i : Nat) : Bool :=
  let ohm (j : Nat) : Nat := ((pins[j]?).bind pinOhm).getD 2000000
  let hostPull (j : Nat) : Bool :=
    14250 ≤ ohm j && ohm j ≤ 24800 && match pins[j]? with
      | some q => q.voff.natAbs < 50
      | none => false
  x.checkKind ≠ 0 &&
    ((i < 2 && i ≠ x.cc && 800 ≤ ohm i && ohm i ≤ 1200) || ((i = 2 || i = 3) && hostPull 2 && hostPull 3))

/-- The finding of one pin, given its run of offsets (R247). VBS takes no part in the offset test before VBUS. -/
def pinFinding (x : Port) (pins : List PinMeas) (runs : List Nat) (i : Nat) : Finding :=
  match pins[i]? with
  | none => .clean
  | some q =>
    if !pinUsed x i q || exempt x pins i then .clean
    else
      let off := offset q && !(i = 4 && x.checkKind ≠ 0)
      let ohm := (pinOhm q).getD 2000000
      if off && 3 ≤ runs.getD i 0 then .corroded
      else if off || ohm < 200000 then .wet
      else if ohm < 1000000 then .damp else .clean

def findCode : Finding → Nat
  | .clean => 0 | .damp => 1 | .wet => 2 | .corroded => 3

/-- The worse of two findings. -/
def worse (a b : Finding) : Finding := if findCode a < findCode b then b else a

/-- The finding in force after a check that found `f` (R248): CORRODED until it is cleared, WET until six checks in a row
without WET or CORRODED, DAMP until a CLEAN idle check. -/
def findingAfter (x : Port) (f : Finding) (dry : Nat) : Finding :=
  if x.corroded || f = .corroded then .corroded
  else if f = .wet then .wet
  else if x.finding = .wet && dry < 6 then .wet
  else if x.finding = .damp && f = .clean && x.checkKind ≠ 0 then .damp
  else f

/-- The record of a finished check, and the causes that follow it. -/
def recordCheck (m : Mach) (p : Nat) (pins : List PinMeas) : Mach :=
  let x := getPort m p
  let runs := (List.range 5).map fun i =>
    match pins[i]? with
    | some q =>
      if pinUsed x i q && !(i = 4 && x.checkKind ≠ 0) then (if offset q then min 3 (x.ofsRuns.getD i 0 + 1) else 0)
      else x.ofsRuns.getD i 0
    | none => x.ofsRuns.getD i 0
  let f := (List.range 5).foldl (fun acc i => worse acc (pinFinding x pins runs i)) .clean
  let dry := if 2 ≤ findCode f then 0 else satTo 255 (x.dry + 1)
  let inForce := findingAfter x f dry
  let recs := (List.range 5).map fun i => match pins[i]? with
    | some q => if pinUsed x i q then
        { rKohm := match pinOhm q with
            | some r => r / 1000
            | none => 0xFFFF, voff := q.voff : PinRec } else {}
    | none => {}
  let m := modPort m p fun y =>
    { y with last := f, dry := dry, ofsRuns := runs, kind := x.checkKind, pins := recs, finding := inForce
             corroded := x.corroded || f = .corroded, checks := wrap32 (x.checks + 1), checkedAt := some m.dev.now
             checkEndAt := none, checkAt := some (m.dev.now + sec 10 - tCheck), washChecked := true }
  let m := match f with
    | .clean => m
    | .damp => note m p .damp 2
    | .wet => note m p .wet 3
    | .corroded => note m p .corroded 3
  let m := setLive (setLive (setLive m p .damp 2 (inForce = .damp)) p .wet 3 (inForce = .wet)) p .corroded 3
    (inForce = .corroded)
  if f = .clean && !x.corroded then m
  else
    let m := { m with ui := { m.ui with lastFind := m.dev.now } }
    forAll m (List.range 48) fun m q => modPort m q fun y => { y with washChecked := false }

/-- What the finding does to the port (R247, R248, R261). -/
def checkEffect (m : Mach) (p kind : Nat) : Mach :=
  let x := getPort m p
  let bad := x.finding = .wet || x.finding = .corroded
  let m := if bad && m.svc.link ≠ 0 && m.svc.port = p then endLink m 6 else m
  if kind = 0 then
    if x.mode ≠ 1 then m
    else if bad && isUnattached x then modPort m p fun x => { x with tc := .moistHold, toggleAt := none }
    else if !bad && x.tc = .moistHold && !m.ui.washdown then goUnattached m p
    else m
  else if bad then
    modPort m p fun x => { x with tc := .moistHold, debounceAt := none, debounced := false, toggleAt := none, tryAt := none }
  else
    let m := modPort m p fun x => { x with checkOk := true }
    if kind = 2 && x.debounced then sinkAttachDone m p else m

/-- PRT_MOIST_CLEAR on one port: the latch and the offset runs go, and an idle check follows at once (R248). -/
def moistClear (m : Mach) (p : Nat) : Mach :=
  let m := modPort m p fun x => { x with corroded := false, ofsRuns := [0, 0, 0, 0, 0], clearDue := false }
  let x := getPort m p
  if isUnattached x || x.tc = .moistHold || (x.tc = .bay && bayEmpty m p) then startCheck m p 0 else m

/-- MOISTURE_CHECK_DONE. -/
def moistureCheckDone (m : Mach) (p : Nat) (pins : List PinMeas) : Mach :=
  let kind := (getPort m p).checkKind
  let m := checkEffect (recordCheck m p pins) p kind
  if (getPort m p).clearDue then moistClear m p else m

def execMoistureCheckDone (port : Nat) (pins : List PinMeas) (s : State) : Host.Outcome State Fault Refusal :=
  guardUnit (port < 48) s fun m => fire m (getPort m port).checkEndAt fun m => moistureCheckDone m port pins

/-- MOISTURE_CHECK (R244, R302): every 10 s while Unattached or in MOIST_HOLD, and on an empty bay outside washdown. -/
def execMoistureCheck (port : Nat) (s : State) : Host.Outcome State Fault Refusal :=
  guardUnit (port < 48) s fun m =>
    let x := getPort m port
    let may := isUnattached x || x.tc = .moistHold || (x.tc = .bay && bayEmpty m port && !m.ui.washdown)
    when (may && x.checkEndAt.isNone) m fun m => fire m x.checkAt fun m => startCheck m port 0

/-- PRT_MOIST_CLEAR. -/
def cmdPrtMoistClear (m : Mach) (s : Nat) (p : List Byte) : Ans :=
  let q := pU p 0 1
  refuseFirst [(!isService m s, .privilege), (47 < q && q ≠ 0xFF, .outOfRange)] <|
    .ok (forAll m (if q = 0xFF then List.range 48 else [q]) fun m p =>
      if (getPort m p).mode = 0 then m
      else if (getPort m p).checkEndAt.isSome then modPort m p fun x => { x with clearDue := true } else moistClear m p) []

def execPrtMoistClear (slot : Nat) (s : State) := command 0x0604 slot cmdPrtMoistClear s

/-- PRT_MOIST_GET (R249). -/
def cmdPrtMoistGet (m : Mach) (_ : Nat) (p : List Byte) : Ans :=
  let q := pU p 0 1
  refuseFirst [(47 < q, .outOfRange)] <|
    let x := getPort m q
    let age := match x.checkedAt with
      | some t => satTo 65535 ((m.dev.now - t) / sec 1)
      | none => 65535
    .ok m (le 1 (findCode x.last) ++ le 1 x.dry ++ le 1 (x.ofsRuns.foldl max 0) ++ le 1 x.kind
      ++ (x.pins.flatMap fun r => le 2 r.rKohm ++ leI 2 r.voff) ++ le 2 age ++ le 2 0 ++ le 4 x.checks)

def execPrtMoistGet (slot : Nat) (s : State) := command 0x0603 slot cmdPrtMoistGet s

/-! ### Washdown (R250 to R252) -/

/-- Every port that is not off is stopped: Type-C ports into MOIST_HOLD, bays with VBG open. -/
def washPort (m : Mach) (p : Nat) : Mach :=
  let x := getPort m p
  if x.mode = 0 then m
  else if x.mode = 2 then
    let m := stopRun m p
    modBay m p fun b => { b with st := if b.st = .charging ∨ b.st = .ready then .paused else b.st }
  else
    let m := match x.tc with
      | .attachedSrc => sourceStop m p 4 5
      | .attachedSnk => sinkStop m p 4 5
      | _ => m
    goUnattached m p

/-- Washdown entered. -/
def washEnter (m : Mach) : Mach :=
  let m := { m with ui := { m.ui with washdown := true, keys := tmap m.ui.keys fun _ k =>
    { k with pressed := false, overCnt := 0, under := 0, held := false, longHeld := false, holdAt := none, longAt := none
             stuckAt := none, serviceAt := none, taps := [] } } }
  let m := if m.svc.link ≠ 0 then endLink m 5 else m
  forAll m (List.range 48) washPort

/-- Washdown left: ports return to Unattached, or stay held by their own finding; bays resume. -/
def washLeave (m : Mach) (auto : Bool) : Mach :=
  let m := { m with ui := { m.ui with washdown := false, autoExit := m.ui.autoExit || auto } }
  forAll m (List.range 48) fun m p =>
    let x := getPort m p
    if x.mode = 1 && (x.tc = .moistHold || isUnattached x) then goUnattached m p
    else if x.mode = 2 && (getBay m p).st = .paused then
      chgApply (modBay m p fun b => { b with st := .ready }) (p + 1)
    else if x.mode = 2 && (getBay m p).st = .trickle then requestStart m p
    else m

/-- PRT_WASHDOWN (R250). -/
def cmdPrtWashdown (m : Mach) (_ : Nat) (p : List Byte) : Ans :=
  let a := pU p 0 1
  let onlyBoot := bit (pathStatWord m) 28 && !m.path.storePresent && (presentInputs m).isEmpty
  refuseFirst
    [(1 < a, .outOfRange), (a = 1 && (m.ui.washdown || onlyBoot), .notInState), (a = 0 && !m.ui.washdown, .notInState)] <|
    .ok (if a = 1 then washEnter m else washLeave m false) []

def execPrtWashdown (slot : Nat) (s : State) := command 0x0605 slot cmdPrtWashdown s

/-- Every port has been checked since the last finding, and none is CORRODED; a bay with a pack is exempt. -/
def washClean (m : Mach) : Bool :=
  (List.range 48).all fun p =>
    let x := getPort m p
    x.mode = 0 || (x.mode = 2 && !bayEmpty m p) || (x.washChecked && !x.corroded)

/-- 300 s after the last finding, or now where that is past. -/
def washDue (m : Mach) : Nat := max m.dev.now (m.ui.lastFind + sec 300)

/-- WASHDOWN_AUTO_EXIT (R251). -/
def execWashdownAutoExit (s : State) : Host.Outcome State Fault Refusal :=
  next s <| when (s.m.ui.washdown && washClean s.m) s.m fun m => washLeave (advanceTo m (washDue m)) true

/-- PRT_WASH_STAT (R252). -/
def washStatWord (m : Mach) : Nat :=
  let n (f : Finding) : Nat := satTo 63 ((List.range 48).filter fun p => (getPort m p).finding = f).length
  flag m.ui.washdown 31 + satTo 0x3FF ((m.dev.now - m.ui.lastFind) / sec 1) * 2 ^ 21 + n .wet * 2 ^ 15 + n .damp * 2 ^ 9
    + n .corroded * 2 ^ 3 + flag m.ui.autoExit 2

def washStatWrite (m : Mach) (w : Nat) : Mach :=
  if bit w 2 then { m with ui := { m.ui with autoExit := false } } else m

/-! ### Pin protection (R526) -/

/-- CC_OVERVOLTAGE: CC1, CC2, DP or DM above 6 000 mV: disconnected, the port stopped as for a detach, BACKDRIVE
recorded; a check in progress is abandoned. -/
def ccOvervoltage (m : Mach) (p pin mv : Nat) : Mach :=
  if mv ≤ 6000 || (getPort m p).pinsOff.contains pin then m
  else
    let m := modPort m p fun x =>
      { x with pinsOff := x.pinsOff ++ [pin], checkEndAt := none, checkOk := false
               checkAt := if x.checkEndAt.isSome then after m (sec 10) else x.checkAt }
    let m := note m p .backdrive 4
    let x := getPort m p
    match x.tc with
    | .attachedSrc => sourceStop m p 1 4
    | .attachedSnk => sinkStop m p 1 4
    | .bay => modCv (stopRun m p) p fun c => { c with vbg := false }
    | .disabled | .moistHold | .errorRecovery => m
    | _ => goUnattached m p

def execCcOvervoltage (port pin mv : Nat) (s : State) : Host.Outcome State Fault Refusal :=
  guardRead (port < 48 && pin < 4) (mv ≤ 60000) s fun m => ccOvervoltage m port pin mv

/-- CC_PIN_RECONNECT: below 5 500 mV for 10 ms. -/
def execCcPinReconnect (port pin mv : Nat) (s : State) : Host.Outcome State Fault Refusal :=
  guardRead (port < 48 && pin < 4) (mv ≤ 60000) s fun m => when (mv < 5500) m fun m =>
    modPort m port fun x => { x with pinsOff := x.pinsOff.filter fun q => q ≠ pin }

/-! ### Status (R260) -/

def tcCode : TcSt → Nat
  | .disabled => 0 | .errorRecovery => 1 | .unattachedSrc => 2 | .attachWaitSrc => 3 | .attachedSrc => 4
  | .unattachedSnk => 5 | .attachWaitSnk => 6 | .attachedSnk => 7 | .trySrc => 8 | .tryWaitSnk => 9 | .trySnk => 10
  | .tryWaitSrc => 11 | .moistHold => 12 | .bay => 13

/-- PRT_STAT_GET (R260). -/
def cmdPrtStatGet (m : Mach) (_ : Nat) (p : List Byte) : Ans :=
  let q := pU p 0 1
  refuseFirst [(47 < q, .outOfRange)] <|
    let x := getPort m q
    let role := if x.tc = .attachedSrc then 1 else if x.tc = .attachedSnk then 2 else 0
    let src := x.tc = .attachedSrc || x.tc = .unattachedSrc || x.tc = .attachWaitSrc || x.tc = .trySrc || x.tc = .tryWaitSrc
    let fl := x.cc + flag x.vconn 1 + flag x.dcp 2 + flag x.ra 3 + flag (m.svc.armPort = some q) 4
      + flag (m.svc.link ≠ 0 && m.svc.port = q) 5 + flag ((getKey m q).hostLed).isSome 6
    .ok m (le 1 x.mode ++ le 1 (tcCode x.tc) ++ le 1 role ++ le 1 x.behav ++ le 1 (if src then x.rp else 3)
      ++ le 1 (findCode x.finding) ++ le 1 fl ++ le 1 0 ++ le 2 x.vbsMv ++ le 2 x.vconnMa ++ le 4 x.plugs)

def execPrtStatGet (slot : Nat) (s : State) := command 0x0602 slot cmdPrtStatGet s

end Machine
end Sys2Proof
end

