-- ==== Sys2Proof/Machine/Ui.lean ====
section
/-! DEFINITION. Sys2Proof/Machine/Ui.lean: the UI pins: LED patterns, touch keys, gestures and arms (R253 to R259,
R507), and the DR_Swap an arm asks for (R282, R508). -/
namespace Sys2Proof
namespace Machine

/-! ### The device's own DR_Swap (R282 to R284, R508) -/

/-- DR_Swap sent toward UFP or DFP; as sink it waits for SinkTxOk (R283), and never comes sooner than 100 ms after one that
was abandoned (R284). -/
def drSwapOut (m : Mach) (p : Nat) (toUfp : Bool) : Mach :=
  let x := getPd m p
  let sink := (getPort m p).tc = .attachedSnk
  let early := match x.drHoldAt with
    | some t => m.dev.now < t
    | none => false
  if x.drPending || early then m
  else if sink && x.rev = 3 && !x.txOk then modPd m p fun x => { x with waiting := some .drSwap, drToUfp := toUfp }
  else modPd m p fun x =>
    pdSend { x with drPending := true, drToUfp := toUfp, senderAt := after m tSenderResponse } m .drSwap

/-- An armed port whose contract stands as DFP sends DR_Swap toward UFP, up to three times in all (R508). -/
def stavskaKick (m : Mach) (p : Nat) : Mach :=
  let x := getPd m p
  if m.svc.armPort = some p && m.svc.link = 0 && x.contract && x.dfp && !x.drPending && m.svc.swapAt.isNone
      && m.svc.swapTries < 3 then
    drSwapOut { m with svc := { m.svc with swapTries := m.svc.swapTries + 1, noPdAt := none } } p true
  else m

/-- The running link ends (R514): the port, if it is still attached, returns to DFP by DR_Swap and presents DCP again. -/
def stavskaEnd (m : Mach) (reason : Nat) : Mach :=
  let p := m.svc.port
  let was := m.svc.link ≠ 0
  let m := endLink m reason
  if was && attachedTypeC m p then
    let x := getPd m p
    dcpEval (if x.contract && !x.dfp then drSwapOut m p false else m) p
  else m

/-! ### Arms (R257, R507) -/

/-- R257 arms nothing on this port: a bay, MOIST_HOLD, a fence, the link on another port. -/
def armBarred (m : Mach) (p : Nat) : Bool :=
  isBay m p || (getPort m p).tc = .moistHold || (getBlk m p).fence.isSome || cnvFenced m p
    || (m.svc.link ≠ 0 && m.svc.port ≠ p)

/-- The port armed for 60 s; any other arm ends. -/
def arm (m : Mach) (p : Nat) : Mach :=
  let noPd := attachedTypeC m p && !(getPd m p).contract
  stavskaKick { m with svc := { m.svc with
    armPort := some p, armAt := after m (sec 60), swapTries := 0, swapAt := none
    noPdAt := if noPd then after m (sec 1) else none } } p

/-- ARM_EXPIRE (R507). -/
def execArmExpire (s : State) : Host.Outcome State Fault Refusal :=
  guardUnit true s fun m => fire m m.svc.armAt fun m =>
    { m with svc := { m.svc with armPort := none, armAt := none, swapAt := none, noPdAt := none, swapTries := 0 } }

/-! ### Events (R259) -/

/-- A gesture reported with a time: the ring holds 64, and the oldest is dropped and counted. -/
def report (m : Mach) (p gesture timeMs : Nat) (armed : Bool) : Mach :=
  let e : UiEvent := { timeMs := timeMs, port := p, gesture := gesture, armed := armed }
  let full := 64 ≤ m.ui.events.length
  { m with ui := { m.ui with
      events := (if full then m.ui.events.drop 1 else m.ui.events) ++ [e]
      dropped := if full then satTo 65535 (m.ui.dropped + 1) else m.ui.dropped } }

/-- The SERVICE window closed: the taps it withheld are reported with their own times (R256). -/
def closeWindow (m : Mach) (p : Nat) : Mach :=
  let m := (getKey m p).taps.foldl (fun m t => report m p 1 t false) m
  modKey m p fun k => { k with serviceAt := none, taps := [] }

/-- A TAP, or the third one of a SERVICE gesture, which arms the port (R256, R257). -/
def tap (m : Mach) (p : Nat) : Mach :=
  let k := getKey m p
  let open_ := match k.serviceAt with
    | some t => m.dev.now ≤ t
    | none => false
  if !open_ then report m p 1 (nowMs m) false
  else if k.taps.length < 2 then modKey m p fun k => { k with taps := k.taps ++ [nowMs m] }
  else
    let m := modKey m p fun k => { k with serviceAt := none, taps := [] }
    if armBarred m p then report m p 5 (nowMs m) false else report (arm m p) p 5 (nowMs m) true

/-- A press ends (R256): ignored below 30 ms, a TAP below 1 500 ms, else RELEASE; the release of a LONG_HOLD opens the
SERVICE window. -/
def releaseKey (m : Mach) (p : Nat) : Mach :=
  let k := getKey m p
  let d := (m.dev.now - k.pressAt) / ms 1
  let m := modKey m p fun k =>
    { k with pressed := false, overCnt := 0, under := 0, held := false, longHeld := false, holdAt := none, longAt := none
             stuckAt := none }
  if d < 30 then m
  else if d < 1500 then tap m p
  else
    let m := report m p 4 (nowMs m) false
    if 5000 ≤ d then modKey m p fun k => { k with serviceAt := after m (ms 3000), taps := [] } else m

/-! ### Frames (R253, R255) -/

/-- Touch acts on the key (R31, R257). -/
def touchOn (m : Mach) (p : Nat) : Bool := m.dev.tchclk && !m.ui.washdown && (getPort m p).mode ≠ 0 && (getKey m p).touchEn

/-- Frames between two measurements: 1, 2 or 4 as TCHCLK is divided (R253, R364); in QUIET every fourth frame (R486). -/
def frameDiv (m : Mach) : Nat := if m.pwr.st = .quiet then 4 else 2 ^ clkDiv m

/-- One measurement of one key, `n` frames after the last one: the baseline follows with 8 s while the key is released; a
press or a release takes three measurements in a row. -/
def keyStep (m : Mach) (n p cap : Nat) : Mach :=
  let k := getKey m p
  if !touchOn m p then m
  else if !k.seeded then modKey m p fun k => { k with base := cap * 8000, seeded := true }
  else if k.pressed then
    let low := 10 * 8000 * cap < 10 * k.base + 6 * 8000 * k.delta
    if low && 2 ≤ k.under then releaseKey m p else modKey m p fun k => { k with under := if low then k.under + 1 else 0 }
  else if k.water then m
  else
    let high := k.base + 8000 * k.delta ≤ 8000 * cap
    let m := modKey m p fun k => { k with base := k.base + n * cap - n * (k.base / 8000) }
    if high && 2 ≤ k.overCnt then
      modKey m p fun k =>
        { k with pressed := true, overCnt := 0, under := 0, pressAt := m.dev.now, held := false, longHeld := false
                 holdAt := after m (ms 1500), longAt := after m (ms 5000), stuckAt := after m (sec 30) }
    else modKey m p fun k => { k with overCnt := if high then k.overCnt + 1 else 0 }

/-- More than six keys of a die pressed within 20 ms are water: each press is rejected and reported (R255). -/
def waterCheck (m : Mach) (die : Nat) : Mach :=
  let wet := (List.range 24).map (24 * die + ·) |>.filter fun p =>
    let k := getKey m p
    (k.pressed || k.water) && m.dev.now ≤ k.pressAt + ms 20
  if wet.length ≤ 6 then m
  else forAll m (wet.filter fun p => (getKey m p).pressed) fun m p =>
    report (modKey m p fun k =>
      { k with pressed := false, water := true, overCnt := 0, under := 0, holdAt := none, longAt := none, stuckAt := none })
      p 7 (nowMs m) false

/-- Time up to the frame that is due. -/
def toFrame (m : Mach) : Mach :=
  match m.ui.frameAt with
  | some t => advanceTo m t
  | none => m

/-- UI_FRAME: every 1 ms while the scanner's clock runs. -/
def uiFrame (m : Mach) (caps : List Nat) : Mach :=
  let m := toFrame m
  let n := m.ui.frames + 1
  let d := frameDiv m
  let m := { m with ui := { m.ui with frameAt := after m (ms 1), frames := if d ≤ n then 0 else n } }
  if n < d then m
  else
    let m := caps.zipIdx.foldl (fun m x => keyStep m n x.2 x.1) m
    waterCheck (waterCheck m 0) 1

def execUiFrame (caps : List Nat) (s : State) : Host.Outcome State Fault Refusal :=
  guardRead (caps.length = 48) (caps.all fun c => c ≤ 65535) s fun m =>
    when (m.dev.tchclk && m.dev.configApplied && m.pwr.st ≠ .standby && m.pwr.st ≠ .ship) m fun m => uiFrame m caps

/-- HOLD_REACHED: it ends an open SERVICE window. -/
def execHoldReached (port : Nat) (s : State) : Host.Outcome State Fault Refusal :=
  guardUnit (port < 48) s fun m => when (touchOn m port) m fun m => fire m (getKey m port).holdAt fun m =>
    let m := modKey (closeWindow m port) port fun k => { k with held := true, holdAt := none }
    report m port 2 (nowMs m) false

/-- LONG_HOLD_REACHED. -/
def execLongHoldReached (port : Nat) (s : State) : Host.Outcome State Fault Refusal :=
  guardUnit (port < 48) s fun m => when (touchOn m port) m fun m => fire m (getKey m port).longAt fun m =>
    report (modKey m port fun k => { k with longHeld := true, longAt := none }) port 3 (nowMs m) false

/-- STUCK: reported, released, and the baseline seeded afresh by the next measurement. -/
def execStuck (port : Nat) (s : State) : Host.Outcome State Fault Refusal :=
  guardUnit (port < 48) s fun m => when (touchOn m port) m fun m => fire m (getKey m port).stuckAt fun m =>
    modKey (releaseKey (report m port 6 (nowMs m) false) port) port fun k => { k with seeded := false }

/-- SERVICE_WINDOW_END. -/
def execServiceWindowEnd (port : Nat) (s : State) : Host.Outcome State Fault Refusal :=
  guardUnit (port < 48) s fun m => fire m (getKey m port).serviceAt fun m => closeWindow m port

/-- BASELINE_RESEED: a key rejected as water has been stable within 0.2 pF for 2 s. -/
def execBaselineReseed (port cap : Nat) (s : State) : Host.Outcome State Fault Refusal :=
  guardRead (port < 48) (cap ≤ 65535) s fun m => when ((getKey m port).water) m fun m =>
    modKey m port fun k => { k with base := cap * 8000, seeded := true, water := false }

/-! ### LED patterns (R254) -/

/-- The automatic pattern: the highest code whose condition holds, but pattern 5 on every LED in washdown (R250). -/
def autoPattern (m : Mach) (p : Nat) : Nat :=
  let x := getPort m p
  let bay := x.mode = 2
  let chg := getChg m (p + 1)
  if x.mode = 0 || !(getKey m p).ledEn then 0
  else if m.ui.washdown then 5
  else if x.finding = .damp then 8
  else if m.svc.link = 3 && m.svc.port = p then 7
  else if m.svc.armPort = some p then 6
  else if x.finding = .wet || x.finding = .corroded || (getBlk m p).fence.isSome || cnvFenced m p then 4
  else if (attachedTypeC m p && !(getPd m p).contract) || (bay && packPresent m p && chg.st = .done) then 3
  else if (x.tc = .attachedSrc && (getCv m p).run) || x.tc = .attachedSnk || (bay && (getBay m p).st = .charging) then 2
  else 1

/-- The LEDs are driven: TCHCLK runs, and the device is not in STANDBY or SHIP (R31, R486). -/
def ledsOn (m : Mach) : Bool := m.dev.tchclk && m.pwr.st ≠ .standby && m.pwr.st ≠ .ship

/-- The pattern an LED shows: the host's in place of the automatic one, but for codes 4 to 7. -/
def ledPattern (m : Mach) (p : Nat) : Nat :=
  let a := autoPattern m p
  if !ledsOn m || (getPort m p).mode = 0 || !(getKey m p).ledEn then 0
  else if within a 4 7 then a else (getKey m p).hostLed.getD a

/-! ### Commands -/

/-- PRT_UI_CFG (R258): a changed threshold releases a press in progress without a gesture. -/
def cmdPrtUiCfg (m : Mach) (_ : Nat) (p : List Byte) : Ans :=
  let q := pU p 0 1
  refuseFirst
    [((47 < q && q ≠ 0xFF) || 200 < pU p 1 1 || 100 < pU p 2 1 || 3 < pU p 3 1 || !within (pU p 4 2) 10 2000,
      .outOfRange)] <|
    .ok (forAll m (if q = 0xFF then List.range 48 else [q]) fun m i => modKey m i fun k =>
      let off := k.delta ≠ pU p 4 2 || !bit (pU p 3 1) 0
      let k := { k with ledDma := pU p 1 1, dimPct := pU p 2 1, touchEn := bit (pU p 3 1) 0, ledEn := bit (pU p 3 1) 1
                        delta := pU p 4 2 }
      if off then { k with pressed := false, overCnt := 0, under := 0, held := false, longHeld := false, holdAt := none
                           longAt := none, stuckAt := none } else k) []

def execPrtUiCfg (slot : Nat) (s : State) := command 0x0606 slot cmdPrtUiCfg s

/-- PRT_UI_EVENT_GET (R259). -/
def cmdPrtUiEventGet (m : Mach) (_ : Nat) (_ : List Byte) : Ans :=
  let es := m.ui.events.take 32
  .ok { m with ui := { m.ui with events := m.ui.events.drop 32, dropped := 0 } }
    (le 2 es.length ++ le 2 m.ui.dropped
      ++ es.flatMap fun e => le 4 e.timeMs ++ le 1 e.port ++ le 1 e.gesture ++ le 1 (if e.armed then 1 else 0) ++ le 1 0)

def execPrtUiEventGet (slot : Nat) (s : State) := command 0x0607 slot cmdPrtUiEventGet s

/-- PRT_LED_SET (R254). -/
def cmdPrtLedSet (m : Mach) (_ : Nat) (p : List Byte) : Ans :=
  let q := pU p 0 1
  let pt := pU p 1 1
  refuseFirst [(47 < q || (8 < pt && pt ≠ 0xFF) || 100 < pU p 2 1, .outOfRange)] <|
    .ok (modKey m q fun k => { k with hostLed := if pt = 0xFF then none else some pt, level := pU p 2 1 }) []

def execPrtLedSet (slot : Nat) (s : State) := command 0x0608 slot cmdPrtLedSet s

end Machine
end Sys2Proof
end

