-- ==== Sys2Proof/Machine/Pd.lean ====
section
/-! DEFINITION. Sys2Proof/Machine/Pd.lean: USB Power Delivery on the ports (chapter 10): offers and requests as source,
requests as sink, resets, swaps, keep-alives, and the delivery of Lift's grants (R208). Moves between PD cores stand in
PdCore.lean. Rows carry whole messages as the PHY delivers them; an extended one goes out in chunks (R267). -/
namespace Sys2Proof
namespace Machine

/-! ### Times of R268 and others -/

def tSrcTransition : Nat := ms 28
def tPSTransition (epr : Bool) : Nat := if epr then ms 925 else ms 500
def tDiscoverIdentity : Nat := ms 45
def tPPSRequest : Nat := sec 8
def tPPSTimeout : Nat := sec 13
def tTypeCSendSourceCap : Nat := ms 150
def nCapsCount : Nat := 50
def nDiscoverIdentityCount : Nat := 20
def nHardResetCount : Nat := 2
def nRetryCount (x : Sess) : Nat := if x.rev = 3 then 2 else 3

/-! ### What a port is -/

def isSource (m : Mach) (p : Nat) : Bool := (getPort m p).tc = .attachedSrc
def isSink (m : Mach) (p : Nat) : Bool := (getPort m p).tc = .attachedSnk

/-- A PD core serves the port (R291). -/
def served (m : Mach) (p : Nat) : Bool := coreOk m (tget m.serves 99 p)

/-- The port may sink under R233. -/
def maySink (m : Mach) (p : Nat) : Bool := behaviour m p ≠ 0

/-- Between Accept and PS_RDY. -/
def inTransition (x : Sess) : Bool := x.pe = .transition || x.pe = .snkTransition

/-- A message boundary at which no transmission is queued, outside a power transition (R290). -/
def atBoundary (m : Mach) (p : Nat) : Bool :=
  let x := getPd m p
  let queued := match x.txAt with
    | some t => m.dev.now < t
    | none => false
  !inTransition x && !queued

/-- A port whose move is asked for is frozen from its next message boundary (R290). -/
def frozen (m : Mach) (p : Nat) : Bool := (getPd m p).migTo.isSome && atBoundary m p

/-- Rp of a source under collision avoidance: SinkTxNG during a sequence it started, SinkTxOk otherwise (R283). -/
def rpAvoid (m : Mach) (p : Nat) : Mach :=
  let x := getPd m p
  if isSource m p && x.contract && x.rev = 3 then
    modPort m p fun y => { y with rp := if x.senderAt.isSome || x.drPending || inTransition x then 1 else 2 }
  else m

/-- A PD row on one port: its effect where the port is served, then Rp and DCP as they follow. -/
def pdRow (port : Nat) (s : State) (f : Mach → Mach) : Host.Outcome State Fault Refusal :=
  guardUnit (port < 48) s fun m => when ((attachedTypeC m port) && served m port) m fun m =>
    dcpEval (rpAvoid (f m) port) port

/-- A message of a frozen port is stored in RX_HOLD (R290, R297). -/
def holdRx (m : Mach) (p : Nat) (i : PdRx) : Mach := modPd m p fun x => { x with rxHold := x.rxHold ++ [i] }

/-- The message a PD core has written lies in a word that cannot be corrected: its consumer discards it (R28, R539). -/
def eccDiscard (m : Mach) (core : Nat) : Mach :=
  note { m with mbx := { m.mbx with eccPd := m.mbx.eccPd.filter fun k => k ≠ core } } blkCxm .eccUnc 2

/-- A SOP message received on a port: while a perturbation of KIND 5 withholds its GoodCRC, it is not delivered and is
counted (R520); a frozen port's waits for the takeover (R290). -/
def rxRow (i : PdRx) (port : Nat) (s : State) (f : Mach → Mach) : Host.Outcome State Fault Refusal :=
  pdRow port s fun m =>
    if m.svc.ptbs.any fun b => b.kind = 5 && b.target = port && 0 < b.remaining then
      { m with svc := { m.svc with ptbs := m.svc.ptbs.map fun b =>
          if b.kind = 5 ∧ b.target = port then { b with remaining := b.remaining - 1 } else b } }
    else if m.mbx.eccPd.contains (tget m.serves 0 port) then eccDiscard m (tget m.serves 0 port)
    else if frozen m port then holdRx m port i
    else f m

/-- A received message: the last one sent was acknowledged, its MessageID is the next, and a sink's silence ends (R264,
R280). -/
def rxd (m : Mach) (p : Nat) : Mach :=
  modPd m p fun x => { x with
    msgIdRx := some ((x.msgIdRx.getD 7 + 1) % 8), txAt := none, noRespAt := none
    srcKeepAt := x.srcKeepAt.map fun _ => m.dev.now + tSourceEprKeepAlive }

/-! ### Offers (R269, R270) -/

/-- I_CAB (R275). -/
def iCab (m : Mach) (p : Nat) : Nat :=
  let x := getPort m p
  if x.vconn && !x.vconnOc && 2 ≤ (getPd m p).cable then 5000 else 3000

/-- The lowest of I_CAB, IMAX_MA and the limit of R140, which a derate interval may hold lower (R142). -/
def iOffer (m : Mach) (p : Nat) : Nat :=
  let i := min (min (iCab m p) (getPd m p).imaxMa) (irateTotal m p)
  match (getCv m p).prot.derateMa with
  | some ma => if (getCv m p).prot.derateAt.isSome then min i ma else i
  | none => i

/-- OFFER_MW (R269): in a hold the present grant; within the grant while it stands reclaimed (R218); within a thermal cap
and a derate interval's pass. -/
def offerMw (m : Mach) (p : Nat) : Nat :=
  let x := getPd m p
  let h := getHold m p
  if !holderRuns m then max parkMw h.grant
  else
    let head := ((m.lft.dMax : Int) + m.lft.s - m.lft.cost).toNat
    let o := (head + holdCost m p) * m.lft.effOut / 1000 / 100 * 100
    let o := min o x.pmaxMw
    let o := if h.want.isSome then min o h.grant else o
    let o := match passCap m p with
      | some c => min o c
      | none => o
    let o := match (getCv m p).prot.derateMa with
      | some ma => if (getCv m p).prot.derateAt.isSome && x.contract then min o (x.vTarget * ma / 1000) else o
      | none => o
    max parkMw o

/-- A current rounded down to 50 mA. -/
def r50 (ma : Nat) : Nat := ma / 50 * 50

/-- The current of a power at a voltage, bounded. -/
def maAt (o i mv : Nat) : Nat := r50 (min i (o * 1000 / mv))

/-- The fixed objects of a list of (PDO_MASK bit, mV). -/
def fixedObjs (mask o i : Nat) (l : List (Nat × Nat)) : List PdObj :=
  (l.filter fun x => bit mask x.1 && 1000 ≤ maAt o i x.2).map fun x => .fixed x.2 (maAt o i x.2)

/-- An EPR position: its object, or a zero object. -/
def eprObj (mask o i bit_ mv : Nat) : PdObj :=
  if bit mask bit_ && 1000 ≤ maAt o i mv then .fixed mv (maAt o i mv) else .zero

/-- A list without the zero objects at its end. -/
def trimZeros (l : List PdObj) : List PdObj := (l.reverse.dropWhile fun x => x = .zero).reverse

/-- The offer of R270 for a ceiling; EPR positions in EPR mode while it is not being left. -/
def buildOffer (m : Mach) (p o : Nat) (epr : Bool) : List PdObj :=
  let x := getPd m p
  let i := iOffer m p
  let five : PdObj := .fixed 5000 (max 500 (maAt o i 5000))
  if (getPort m p).damp5 || ptbLow m then [five]
  else
    let spr := five :: fixedObjs x.pdoMask o i [(0, 9000), (1, 15000), (2, 20000)]
      ++ (if bit x.pdoMask 3 && x.rev = 3 && 1000 ≤ maAt o i 21000 then [.pps 3300 21000 (maAt o i 21000)] else [])
    if !epr then spr
    else
      let pdp := min (o / 1000) 240
      let avs : PdObj := if bit x.pdoMask 7 && 15 ≤ pdp then .avs 15000 48000 pdp else .zero
      let up : List PdObj := if x.eprExit then [] else
        [eprObj x.pdoMask o i 4 28000, eprObj x.pdoMask o i 5 36000, eprObj x.pdoMask o i 6 48000, avs]
      trimZeros (spr ++ List.replicate (7 - spr.length) .zero ++ up)

/-- In Guard-only hold the offer keeps no object above 5 V that the contract does not use (R38, R269). -/
def holdOffer (m : Mach) (p : Nat) (l : List PdObj) : List PdObj :=
  let x := getPd m p
  if holderRuns m then l
  else trimZeros (l.zipIdx.map fun y =>
    if y.2 = 0 || (x.contract && y.2 + 1 = x.pos) then y.1 else .zero)

/-- The EPR conditions of the offer's flag (R270); a Revision 2.0 partner has SPR alone (R262). -/
def eprCapable (m : Mach) (p : Nat) : Bool :=
  let x := getPd m p
  x.eprEn && 100000 < x.pmaxMw && x.cable = 3 && x.rev = 3

/-- An input delivers (R270). -/
def anyInputDelivers (m : Mach) : Bool := (List.range 6).any fun i => inputDelivers m i

/-- Source_Capabilities, or EPR_Source_Capabilities in EPR mode, sent within an optional further ceiling; a Request is due
within tSenderResponse. A resend asked for by PD_RESET ends with it (R295). -/
def sendCaps (m : Mach) (p : Nat) (ceil : Option Nat) : Mach :=
  let x := getPd m p
  let o := match ceil with
    | some c => max parkMw (min c (offerMw m p))
    | none => offerMw m p
  let objs := holdOffer m p (buildOffer m p o x.epr)
  let fl := flag (maySink m p) 0 + 2 + flag (anyInputDelivers m) 2 + flag (eprCapable m p) 3
  let m := match x.rstSeq with
    | some q => closeEntry m q 0 0
    | none => m
  modPd m p fun x =>
    pdSend { x with offer := objs, offerMw := o, offerFlags := fl, offerEpr := x.epr, capsAt := none, rstSeq := none
                    senderAt := after m tSenderResponse, pe := if x.contract then .ready else .negotiate }
      m (.sourceCaps objs x.epr)

/-! ### Hard Resets (R265, R278, R281) -/

/-- A sink's Hard Reset: the draw stops and the VBUS criteria wait, without a detach (R278). -/
def sinkHard (m : Mach) (p : Nat) : Mach :=
  let m := closeSession.closeOutcomes m p
  let m := modPort (stopRun m p) p fun x => { x with draw := false }
  modPd m p fun x =>
    { pdoMask := x.pdoMask, drPol := x.drPol, eprEn := x.eprEn, pmaxMw := x.pmaxMw, imaxMa := x.imaxMa
      snkEpr := x.snkEpr, snkPmax := x.snkPmax, snkVmin := x.snkVmin, snkVmax := x.snkVmax, seq := wrap32 (x.seq + 1)
      rev := x.rev, offerMw := x.offerMw, hardCount := x.hardCount, hardResets := satTo 65535 (x.hardResets + 1), softResets := x.softResets
      txFail := x.txFail, lastAbort := if x.pe = .snkTransition then 3 else x.lastAbort, sent := x.sent
      alertBits := x.alertBits, migTo := x.migTo, migAt := x.migAt, rxHold := x.rxHold, dfp := false, txOk := x.txOk
      pe := .hardReset, snkHrAt := after m (ms 650 + ms 750 + ms 20) }

/-- Hard Reset signalling sent as sink (R264, R278). -/
def sinkSignal (m : Mach) (p : Nat) : Mach :=
  modPd (sinkHard m p) p fun y =>
    pdSend { y with hardCount := y.hardCount + 1, noRespAt := after m tNoResponse } m .hardReset

/-- A Hard Reset the device sends. After two without a response a source stays at vSafe5V with its Type-C current, and a
sink enters ErrorRecovery (R265). -/
def hardSend (m : Mach) (p : Nat) : Mach :=
  let x := getPd m p
  if isSink m p then
    if nHardResetCount ≤ x.hardCount then
      errorRecovery (modCv (loseAttachment m p 3 4) p fun c => { c with vbg := false, reverse := false }) p
    else sinkSignal m p
  else if nHardResetCount ≤ x.hardCount then
    let m := closeSession.closeOutcomes m p
    modPd m p fun y => { y with pe := .noPd, senderAt := none, capsAt := none, noRespAt := none, pendReq := none, drSeq := none
                                rstSeq := none, drPending := false }
  else hardSignal m p

/-- A PD timeout or a retry failure, which a consequence window keeps to the detail list (R391, R392). -/
def pdTimeout (m : Mach) (p : Nat) (f : Mach → Mach) : Mach :=
  match maskedBy m (.pdTimeout p) with
  | some o => consequential m p .pdTimeout o
  | none => f m

/-- PD_HARD_RESET: sent or received as source; one received in a freeze waits for the takeover (R297). -/
def hardRx (m : Mach) (p : Nat) : Mach := modPd (hardResetOut m p) p fun x => { x with hardCount := 0 }

def execPdHardReset (port : Nat) (sent : Bool) (s : State) : Host.Outcome State Fault Refusal :=
  guardUnit (port < 48) s fun m => when (isSource m port && (getPd m port).pe ≠ .hardReset) m fun m =>
    if sent then hardSend m port else if frozen m port then holdRx m port .hardReset else hardRx m port

/-- HARD_RESET_STOP (R281, R544): tPSHardReset after the signalling; below SYS_LOW the restart waits for SYS_RECOVER
(R167). -/
def execHardResetStop (port : Nat) (s : State) : Host.Outcome State Fault Refusal :=
  guardUnit (port < 48) s fun m => fire m (getPd m port).hrStopAt fun m =>
    let m := modPort (stopRun m port) port fun x => { x with vconn := false, dcp := false, rp := 0 }
    modPd m port fun x => { x with hrStopAt := none, recoverAt := after m tSrcRecover }

/-- SRC_RECOVER (R281). -/
def execSrcRecover (port : Nat) (s : State) : Host.Outcome State Fault Refusal :=
  guardUnit (port < 48) s fun m => fire m (getPd m port).recoverAt fun m =>
    let m := modPd m port fun x => { x with recoverAt := none }
    if m.path.sysLow || m.path.restartWait then
      { m with path := { m.path with lowRestart := m.path.lowRestart.filter (fun q => q ≠ port) ++ [port] } }
    else
      let m := match (getPd m port).rstSeq with
        | some q => modPd (closeEntry m q 0 0) port fun x => { x with rstSeq := none }
        | none => m
      let on := vconnOn m port
      requestStart (modPd (modPort m port fun x => { x with vconn := on }) port fun x => { x with pe := .startup }) port

/-- DERATE_END (R142, R143): no new contract after 100 ms: Hard Reset as source. -/
def derateEnd (m : Mach) (p : Nat) (req : Mach → Nat → Mach) : Mach :=
  let m := modProt m p fun x => { x with derateAt := none, derateMa := none }
  if (getCv m p).reverse then req m p else if isSource m p then hardSend m p else m

/-! ### Contracts as source (R271 to R274) -/

/-- KIND of R289 for an object. -/
def kindOf : PdObj → Nat
  | .fixed mv _ => if 20000 < mv then 3 else 1
  | .pps .. => 2
  | .avs .. => 4
  | .zero => 0

/-- The voltage a request stands for. -/
def reqMv (o : PdObj) (r : PdReq) : Nat :=
  match o with
  | .fixed mv _ => mv
  | _ => r.mv

/-- The operating current of a request: rounded down to 50 mA (R263). -/
def reqMa (r : PdReq) : Nat := r50 r.ma

/-- The object a request names in the last offer. -/
def reqObj (x : Sess) (r : PdReq) : Option PdObj := if r.pos = 0 then none else x.offer[r.pos - 1]?

/-- The request lies within the object it names (R271, R263); a Revision 2.0 partner has fixed SPR contracts
only (R262). -/
def reqOk (x : Sess) (r : PdReq) : Bool :=
  r.ma ≤ 5000 && (x.rev = 3 || !r.epr) && match reqObj x r with
    | some (.fixed _ ma) => r.ma ≤ ma
    | some (.pps lo hi ma) => x.rev = 3 && r.ma ≤ ma && within r.mv lo hi && r.mv % 20 = 0
    | some (.avs lo hi pdp) => x.rev = 3 && r.mv * r.ma ≤ pdp * 1000000 && within r.mv lo hi && r.mv % 100 = 0
    | _ => false

/-- V x operating current, rounded up. -/
def reqMw (o : PdObj) (r : PdReq) : Nat := ceilDiv (reqMv o r * reqMa r) 1000

/-- The IOUT limit of a contract (R272). -/
def contractLimit (m : Mach) (p : Nat) (o : PdObj) (r : PdReq) : Nat :=
  let l := match o with
    | .pps .. => reqMa r
    | .avs _ _ pdp => portLimit (pdp * 1000000 / max 1 r.mv)
    | _ => portLimit (reqMa r)
  min (min l (irateTotal m p)) (min (getPd m p).imaxMa (iCab m p))

/-- Accept sent: the transition of R274 follows. -/
def acceptReq (m : Mach) (p : Nat) (r : PdReq) : Mach :=
  modPd m p fun x =>
    pdSend { x with pendReq := none, req := some r, mismatch := r.mismatch, pe := .transition, senderAt := none
                    transAt := after m tSrcTransition } m .accept

/-- Reject sent; the contract stands, or vSafe5V (R271). -/
def rejectReq (m : Mach) (p : Nat) : Mach :=
  modPd m p fun x => pdSend { x with pendReq := none, pe := if x.contract then .ready else .negotiate } m .reject

/-- PD_REQUEST_RX (R271): checked against the offer, then a pass is asked for. In a transition it is a protocol error. -/
def pdRequestRx (m : Mach) (p : Nat) (r : PdReq) : Mach :=
  let m := rxd m p
  let x := getPd m p
  if !isSource m p then m
  else if x.pe = .transition then hardSend m p
  else if x.pe ≠ .negotiate && x.pe ≠ .ready then m
  else
    let m := modPd m p fun x => { x with
      senderAt := none, hardCount := 0, rev := if r.rev2 then 2 else 3, ppsAt := x.ppsAt.map fun _ => m.dev.now + tPPSTimeout }
    let x := getPd m p
    match reqObj x r with
    | none => rejectReq m p
    | some o =>
      if !reqOk x r || (r.epr && !x.epr) || (ptbLow m && 5000 < reqMv o r) then rejectReq m p
      else passRequest (modPd m p fun x => { x with pendReq := some r }) p (reqMw o r)

def execPdRequestRx (port : Nat) (req : PdReq) (s : State) : Host.Outcome State Fault Refusal :=
  rxRow (.request req) port s fun m => pdRequestRx m port req

/-- The first explicit contract starts the discovery of the cable on SOP' (R275). -/
def discover (m : Mach) (p : Nat) : Mach :=
  let x := getPd m p
  if (getPort m p).vconn && x.cable = 0 && x.discAt.isNone && x.discTries < nDiscoverIdentityCount then
    modPd m p fun x => { x with discTries := x.discTries + 1, discAt := after m tDiscoverIdentity
                                sent := (x.sent.drop (x.sent.length - 7)) ++ [.discoverIdentity] }
  else m

/-- EPR mode left once a contract of 20 V or less stands (R276). -/
def leaveEpr (m : Mach) (p : Nat) : Mach :=
  let x := getPd m p
  if x.eprExit && x.epr && x.vTarget ≤ 20000 then
    sendCaps (modPd m p fun x => pdSend { x with epr := false, eprExit := false, srcKeepAt := none } m .eprExit) p none
  else m

/-- PS_RDY sent: the new contract is in force; a reclaim it satisfies, and a derate interval, end (R142, R218, R274). -/
def psRdy (m : Mach) (p : Nat) : Mach :=
  let x := getPd m p
  match x.req with
  | none => m
  | some r =>
    let o := (reqObj x r).getD .zero
    let h := getHold m p
    let fits := reqMw o r ≤ h.grant
    let m := modPd m p fun x =>
      pdSend { x with contract := true, pe := .ready, kind := kindOf o, pos := r.pos, opMa := reqMa r, hardCount := 0
                      capsTries := 0, ppsAt := if kindOf o = 2 then after m tPPSTimeout else none } m .psRdy
    let m := modHold m p fun h => if fits then { h with renego := false, hardAt := none, restoring := false } else h
    -- only a contract within the derated limit ends the interval
    let m := modProt m p fun x =>
      if reqMa r ≤ x.derateMa.getD (reqMa r) then { x with derateMa := none, derateAt := none } else x
    let m := leaveEpr (discover m p) p
    let m := stavskaKick m p
    if !fits || (getPd m p).capsAt.isSome then sendCaps m p none else m

/-- SRC_TRANSITION_START (R274): the new target and limit; a change of current alone is done at once. -/
def srcTransitionStart (m : Mach) (p : Nat) : Mach :=
  let x := getPd m p
  match x.req with
  | none => m
  | some r =>
    let o := (reqObj x r).getD .zero
    let v := reqMv o r
    let lim := contractLimit m p o r
    let same := x.vTarget = v
    let m := setRef (setRef m p 1 lim) p 0 v
    let m := modPd m p fun x => { x with transAt := none, vTarget := v, ilim := lim }
    if same then psRdy m p else m

def execSrcTransitionStart (port : Nat) (s : State) : Host.Outcome State Fault Refusal :=
  pdRow port s fun m => when (isSource m port) m fun m => fire m (getPd m port).transAt fun m => srcTransitionStart m port

/-- TRANSITION_SETTLED (R274): the reference equals the target and VCS has stayed within 3 % of it for 100 us. -/
def execTransitionSettled (port vcsMv : Nat) (s : State) : Host.Outcome State Fault Refusal :=
  guardRead (port < 48) (vcsMv ≤ 60000) s fun m =>
    let x := getPd m port
    let l := tget (getCv m port).ctrl.loops {} 0
    when (isSource m port && x.pe = .transition && x.transAt.isNone && l.ref = fx x.vTarget && settled l
        && 97 * x.vTarget ≤ 100 * vcsMv && 100 * vcsMv ≤ 103 * x.vTarget) m fun m =>
      dcpEval (rpAvoid (psRdy m port) port) port

/-- SEND_SOURCE_CAP (R268): at most nCapsCount times without an answer; VCONN is reapplied by then (R281). -/
def execSendSourceCap (port : Nat) (s : State) : Host.Outcome State Fault Refusal :=
  pdRow port s fun m =>
    let x := getPd m port
    when (isSource m port && !inTransition x && (x.pe = .startup || x.pe = .negotiate || x.pe = .ready)) m fun m =>
      fire m x.capsAt fun m =>
        if nCapsCount ≤ x.capsTries && !x.contract then modPd m port fun x => { x with pe := .noPd, capsAt := none }
        else
          let on := vconnOn m port
          let m := modPort m port fun y => { y with vconn := on }
          sendCaps (modPd m port fun x => { x with capsTries := x.capsTries + 1 }) port none

/-- PPS_UNDERVOLTAGE (R273). -/
def execPpsUndervoltage (port vcsMv : Nat) (s : State) : Host.Outcome State Fault Refusal :=
  guardRead (port < 48) (vcsMv ≤ 60000) s fun m =>
    let x := getPd m port
    when (isSource m port && x.contract && x.kind = 2 && (getCv m port).ctrl.sel = 1 && vcsMv < 3300 && served m port) m
      fun m => hardSend m port

/-! ### Grants (R208, R218, R237, R243, R271) -/

/-- A published grant at a sourcing port. -/
def portGrant (m : Mach) (p : Nat) (answers : Bool) : Mach :=
  let h := getHold m p
  let m := modPd m p fun x => { x with grantMw := h.grant }
  let x := getPd m p
  match x.pendReq with
  | some r =>
    if !answers then m
    else
      let need := reqMw ((reqObj x r).getD .zero) r
      if need ≤ h.grant then acceptReq m p r else sendCaps (rejectReq m p) p (some h.grant)
  | none =>
    if x.contract then
      let m := if (passCap m p).isSome && x.rev = 3 then pdTell m p (.alert 8) else m
      if inTransition x || !served m p then modPd m p fun x => { x with capsAt := some m.dev.now } else sendCaps m p none
    else
      let m := modHold m p fun h => { h with renego := false, hardAt := none }
      let m := if answers && h.grant < h.req && h.req = 15000 then passRequest m p 7500 else m
      typeCSettle m p

/-- GRANT_DELIVERY (R208): to a PD core, a charge machine, or AUX. -/
def grantDelivery (m : Mach) (h : Nat) : Mach :=
  let x := getHold m h
  if !x.deliver then m
  else
    let m := modHold m h fun x => { x with deliver := false, answers := false }
    if h = 49 then chgApply m 0
    else if h = 48 then auxGrant m
    else if isBay m h then
      if (getBay m h).st = .trickle then
        if (getCv m h).run then setRef m h 1 (trickleRef m h)
        else if 0 < x.grant && !bayHeld m h then requestStart m h
        else m
      else chgApply m (h + 1)
    else if isSource m h then rpAvoid (dcpEval (portGrant m h x.answers) h) h
    else m

def execGrantDelivery (holder : Nat) (s : State) : Host.Outcome State Fault Refusal :=
  guardUnit (holder < 50) s fun m => grantDelivery m holder

/-! ### Cables (R242, R275, R276) -/

/-- EPR can no longer be offered: capabilities that lead to 20 V or less, then Exit (R276). -/
def eprLeave (m : Mach) (p : Nat) : Mach :=
  let x := getPd m p
  if !x.epr || x.eprExit then m
  else
    let m := modPd m p fun x => { x with eprExit := true }
    if x.vTarget ≤ 20000 then leaveEpr m p
    else if inTransition x then modPd m p fun x => { x with capsAt := some m.dev.now } else sendCaps m p none

/-- VCONN_OC (R242): VCONN goes for the attachment; a contract that needs the cable follows R276. -/
def vconnOcAct (m : Mach) (p ma : Nat) (atLimit : Bool) : Mach :=
  let m := modPort m p fun x => { x with vconnMa := ma }
  if !isSource m p || !(getPort m p).vconn || !(200 < ma || atLimit) then m
  else
    let m := note (modPort m p fun x => { x with vconn := false, vconnOc := true }) p .vconnOc 3
    let m := modPd m p fun x => { x with cable := 0, discAt := none }
    if served m p && (getPd m p).contract then eprLeave m p else m

def execVconnOc (port ma : Nat) (atLimit : Bool) (s : State) : Host.Outcome State Fault Refusal :=
  guardUnit (port < 48) s fun m => vconnOcAct m port ma atLimit

/-- PD_CABLE_IDENTITY_RX (R275): a cable that changes what is offered leads to new Source_Capabilities. -/
def cableIdentity (m : Mach) (p ma vmax : Nat) (epr : Bool) : Mach :=
  if !isSource m p || !(getPort m p).vconn then m
  else
    let old := (iCab m p, eprCapable m p)
    let c := if epr && 5000 ≤ ma && 50000 ≤ vmax then 3 else if 5000 ≤ ma then 2 else 1
    let m := modPd m p fun x => { x with cable := c, discAt := none }
    if (getPd m p).offer.isEmpty || (iCab m p, eprCapable m p) = old then m
    else if inTransition (getPd m p) || (getPd m p).pendReq.isSome then modPd m p fun x => { x with capsAt := some m.dev.now }
    else sendCaps m p none

def execPdCableIdentityRx (port ma vmaxMv : Nat) (eprCable : Bool) (s : State) : Host.Outcome State Fault Refusal :=
  pdRow port s fun m => cableIdentity m port ma vmaxMv eprCable

/-- DISCOVER_IDENTITY_RETRY (R275). -/
def execDiscoverIdentityRetry (port : Nat) (s : State) : Host.Outcome State Fault Refusal :=
  pdRow port s fun m => fire m (getPd m port).discAt fun m =>
    discover (modPd m port fun x => { x with discAt := none }) port

/-- PD_EPR_MODE_RX (R276): Enter and Exit from the sink; as sink, the source's Succeeded, and its Exit or Failed. -/
def eprModeRx (m : Mach) (p : Nat) (enter : Bool) : Mach :=
  let m := rxd m p
  let x := getPd m p
  if isSource m p then
    if enter then
      if bit x.offerFlags 3 && x.cable = 3 && x.rev = 3 && (getPort m p).vconn && !(getPort m p).damp5 && x.contract
          && !inTransition x && !ptbLow m then
        let m := modPd m p fun x =>
          pdSend (pdSend { x with epr := true, srcKeepAt := after m tSourceEprKeepAlive } m .eprAck) m .eprSucceeded
        sendCaps m p none
      else pdTell m p .eprFailed
    else if x.epr then
      if 20000 < x.vTarget then hardSend m p
      else sendCaps (modPd m p fun x => { x with epr := false, eprExit := false, srcKeepAt := none }) p none
    else m
  else modPd m p fun x => { x with epr := enter, keepAliveAt := if enter then after m tSinkEprKeepAlive else none }

def execPdEprModeRx (port : Nat) (enter : Bool) (s : State) : Host.Outcome State Fault Refusal :=
  rxRow (.eprMode enter) port s fun m => eprModeRx m port enter

/-- PD_EPR_KEEPALIVE_RX (R280). -/
def keepaliveRx (m : Mach) (p : Nat) : Mach :=
  let m := rxd m p
  if isSource m p && (getPd m p).epr then pdTell m p .keepAliveAck else m

def execPdEprKeepaliveRx (port : Nat) (s : State) : Host.Outcome State Fault Refusal :=
  rxRow .keepalive port s fun m => keepaliveRx m port

/-- SOURCE_EPR_KEEPALIVE_TIMEOUT (R280). -/
def execSourceEprKeepaliveTimeout (port : Nat) (s : State) : Host.Outcome State Fault Refusal :=
  pdRow port s fun m => when (isSource m port && (getPd m port).epr) m fun m =>
    fire m (getPd m port).srcKeepAt fun m =>
      pdTimeout (modPd m port fun x => { x with srcKeepAt := none }) port fun m => hardSend m port

/-- PPS_TIMEOUT (R280). -/
def execPpsTimeout (port : Nat) (s : State) : Host.Outcome State Fault Refusal :=
  pdRow port s fun m => when (isSource m port && (getPd m port).contract) m fun m =>
    fire m (getPd m port).ppsAt fun m =>
      pdTimeout (modPd m port fun x => { x with ppsAt := none }) port fun m => hardSend m port

/-! ### Sinking (R277 to R279) -/

/-- The power budget of a sink: SNK_PMAX_MW, or BOOT_PWR_W for the boot sink. -/
def snkMw (m : Mach) (p : Nat) : Nat := if m.path.bootSink = some p then m.path.bootPwrW * 1000 else (getPd m p).snkPmax

/-- The request an object allows within the limits: mV, mA; none where no voltage fits, and for all but fixed SPR objects
of a Revision 2.0 source (R262). -/
def snkPoint (m : Mach) (p : Nat) (o : PdObj) : Option (Nat × Nat) :=
  let x := getPd m p
  let boot := m.path.bootSink = some p
  let lo := if boot then 0 else x.snkVmin
  let hi := if boot then 60000 else x.snkVmax
  let lim (mv step ma : Nat) : Nat := min (min ma 5000) (min (snkMw m p * 1000 / max 1 mv) (irateTotal m p)) / step * step
  match o with
  | .fixed mv ma => if within mv lo hi && (x.rev = 3 || mv ≤ 20000) then some (mv, lim mv 10 ma) else none
  | .pps a b ma => if x.rev ≠ 3 then none else
    let mv := min b hi / 20 * 20
    if a ≤ mv && lo ≤ mv then some (mv, lim mv 50 ma) else none
  | .avs a b pdp => if x.rev ≠ 3 then none else
                    let mv := min b hi / 100 * 100
                    if a ≤ mv && lo ≤ mv then some (mv, lim mv 50 (pdp * 1000000 / max 1 mv)) else none
  | .zero => none

/-- The best request of R277: the highest power, then the lowest voltage; 5 V alone on a DAMP port, 100 mA of it for a
withdrawn donor. Where nothing fits, the 5 V object with the mismatch bit. -/
def snkSelect (m : Mach) (p : Nat) (objs : List PdObj) (epr : Bool) : PdReq :=
  let five (ma : Nat) (mis : Bool) : PdReq := { pos := 1, ma := ma, mv := 5000, mismatch := mis, epr := epr }
  let ma5 := match objs with
    | .fixed _ ma :: _ => min (min ma (snkMw m p / 5)) (irateTotal m p) / 10 * 10
    | _ => 0
  if m.path.withdrawn.contains p then five 100 false
  else if (getPort m p).damp5 then five ma5 false
  else
    let cands := objs.zipIdx.filterMap fun y => (snkPoint m p y.1).map fun q => (y.2 + 1, q.1, q.2)
    match cands with
    | [] => five ma5 true
    | c :: cs =>
      let b := cs.foldl (fun a b =>
        if a.2.1 * a.2.2 < b.2.1 * b.2.2 || (a.2.1 * a.2.2 = b.2.1 * b.2.2 && b.2.1 < a.2.1) then b else a) c
      { pos := b.1, ma := b.2.2, mv := b.2.1, mismatch := false, epr := epr }

/-- A Request sent as sink; one that starts a sequence waits for SinkTxOk (R283). -/
def requestOut (m : Mach) (p : Nat) (r : PdReq) (starts : Bool) : Mach :=
  let x := getPd m p
  if starts && x.rev = 3 && !x.txOk then modPd m p fun x => { x with waiting := some (.request r) }
  else modPd m p fun x =>
    pdSend { x with pe := .snkRequest, pendReq := some r, senderAt := after m tSenderResponse } m (.request r)

/-- The present capabilities of the source requested anew; an exchange in progress ends first (R143). -/
def reRequest (m : Mach) (p : Nat) : Mach :=
  let x := getPd m p
  if x.pe = .snkReady && !x.partnerCaps.isEmpty then
    requestOut (modPd m p fun x => { x with reReqDue := false }) p (snkSelect m p x.partnerCaps x.epr) true
  else modPd m p fun x => { x with reReqDue := !x.partnerCaps.isEmpty }

/-- A Request that waited for the end of an exchange goes out. -/
def reRequestDue (m : Mach) (p : Nat) : Mach :=
  let x := getPd m p
  if x.reReqDue && x.pe = .snkReady then reRequest m p else m

/-- PD_SOURCE_CAPABILITIES_RX (R277): a payload above 260 bytes is no message (R267). -/
def sourceCapsRx (m : Mach) (p : Nat) (objs : List PdObj) (epr eprCapable rev2 : Bool) : Mach :=
  let m := rxd m p
  if !isSink m p || inTransition (getPd m p) || objs.isEmpty || 260 < 4 * objs.length then m
  else
    let m := modPd m p fun x =>
      { x with partnerCaps := objs, partnerEpr := eprCapable && !rev2, hardCount := 0, rev := if rev2 then 2 else 3 }
    let m := if m.path.bootSink = some p then { m with path := { m.path with bootCapsAt := none } } else m
    requestOut m p (snkSelect m p objs epr) false

def execPdSourceCapabilitiesRx (port : Nat) (objs : List PdObj) (epr eprCapable rev2 : Bool) (s : State) :
    Host.Outcome State Fault Refusal :=
  rxRow (.sourceCaps objs epr eprCapable rev2) port s fun m => sourceCapsRx m port objs epr eprCapable rev2

/-- A request as sink names this object of the source's offer. -/
def snkObj (x : Sess) (r : PdReq) : PdObj := if r.pos = 0 then .zero else x.partnerCaps.getD (r.pos - 1) .zero

/-- Accept (R278, R282, R266): the answer to a Soft_Reset, to a DR_Swap, or to a Request. -/
def acceptRx (m : Mach) (p : Nat) : Mach :=
  let m := rxd m p
  let x := getPd m p
  if x.pe = .softReset then
    let m := match x.rstSeq with
      | some q => closeEntry m q 0 0
      | none => m
    reRequestDue (modPd m p fun x =>
      { x with senderAt := none, rstSeq := none
               pe := if isSink m p then (if x.contract then .snkReady else .snkWait)
                     else if x.contract then .ready else .negotiate
               capsAt := if isSink m p then none else if x.contract then x.capsAt else some m.dev.now }) p
  else if x.drPending then
    let m := match x.drSeq with
      | some q => closeEntry m q 0 0
      | none => m
    modPd m p fun x => { x with drPending := false, dfp := !x.drToUfp, senderAt := none, drSeq := none }
  else if x.pe = .snkRequest then
    -- R278: 2 500 mW at the present VBUS, which a running sink's FOLD loop samples
    let c := getCv m p
    let v := if c.run then ((tget c.ctrl.loops {} 3).y.headD 0 / 65536).toNat else if x.contract then x.vTarget else 5000
    let m := setRef m p 2 (parkMw * 1000 / max 1 v)
    modPd m p fun x => { x with pe := .snkTransition, senderAt := none, req := x.pendReq, pendReq := none
                                psTransAt := after m (tPSTransition x.epr) }
  else m

/-- PD_ACCEPT_RX; `sameRole` says that its header, or that of the GoodCRC that follows, carries the device's own data role
after a swap: Soft Reset at once, the roles as the device last had them (R285). -/
def acceptRoleRx (m : Mach) (p : Nat) (sameRole : Bool) : Mach :=
  if !sameRole then acceptRx m p
  else softResetOut (if (getPd m p).drPending then acceptRx m p else rxd m p) p

def execPdAcceptRx (port : Nat) (sameRole : Bool) (s : State) : Host.Outcome State Fault Refusal :=
  rxRow (.accept sameRole) port s fun m => acceptRoleRx m port sameRole

/-- A DR_Swap that was refused or not answered: an arm tries again 1 s later, up to three times (R508); a command's
outcome is a failure. -/
def drRefused (m : Mach) (p : Nat) : Mach :=
  let x := getPd m p
  let m := match x.drSeq with
    | some q => closeEntry m q (statusCode .notInState) 0
    | none => m
  let m := modPd m p fun x => { x with drPending := false, senderAt := none, drSeq := none }
  if m.svc.armPort = some p && m.svc.link = 0 && x.drToUfp then
    if m.svc.swapTries < 3 then { m with svc := { m.svc with swapAt := after m (sec 1) } }
    else { m with svc := { m.svc with lastFail := 2, swapAt := none } }
  else m

/-- Reject or Wait (R266). -/
def rejectRx (m : Mach) (p : Nat) : Mach :=
  let m := rxd m p
  let x := getPd m p
  if x.drPending then drRefused m p
  else if x.pe = .snkRequest then
    reRequestDue (modPd m p fun x =>
      { x with senderAt := none, pendReq := none, pe := if x.contract then .snkReady else .snkWait }) p
  else m

/-- PD_REJECT_RX: after Wait a sink may repeat its Request. -/
def rejectWaitRx (m : Mach) (p : Nat) (wait : Bool) : Mach :=
  let again := wait && (getPd m p).pe = .snkRequest
  let m := rejectRx m p
  if again && (getPd m p).contract && (getPd m p).kind = 2 then
    modPd m p fun x => { x with ppsRepAt := after m (ms 100) } else m

def execPdRejectRx (port : Nat) (wait : Bool) (s : State) : Host.Outcome State Fault Refusal :=
  rxRow (.reject wait) port s fun m => rejectWaitRx m port wait

/-- PD_PS_RDY_RX (R278): the sink's new contract; EPR mode is entered where the configuration and the source allow it
(R277); a boot sink starts its converter (R171). -/
def psRdyRx (m : Mach) (p : Nat) : Mach :=
  let m := rxd m p
  let x := getPd m p
  if x.pe ≠ .snkTransition then m
  else match x.req with
    | none => m
    | some r =>
      let o := snkObj x r
      let v := reqMv o r
      let m := modPd m p fun x =>
        { x with contract := true, pe := .snkReady, psTransAt := none, kind := kindOf o, pos := r.pos, opMa := r.ma
                 mismatch := r.mismatch, vTarget := v, ilim := r.ma, hardCount := 0
                 ppsRepAt := if kindOf o = 2 then after m tPPSRequest else none }
      let m := setRef (setRef m p 2 r.ma) p 3 (if 5000 < v then v * 9 / 10 else 4400)
      let m := if m.path.bootSink = some p && !(getCv m p).run then requestStart m p else m
      let m := if x.snkEpr && x.partnerEpr && !x.epr && !(getPort m p).damp5 then pdTell m p .eprEnter else m
      stavskaKick (reRequestDue m p) p

def execPdPsRdyRx (port : Nat) (s : State) : Host.Outcome State Fault Refusal :=
  rxRow .psRdy port s fun m => psRdyRx m port

/-- PS_TRANSITION_TIMEOUT (R278). -/
def execPsTransitionTimeout (port : Nat) (s : State) : Host.Outcome State Fault Refusal :=
  pdRow port s fun m => when (isSink m port) m fun m => fire m (getPd m port).psTransAt fun m =>
    pdTimeout (modPd m port fun x => { x with psTransAt := none }) port fun m => hardSend m port

/-- SINK_HARD_RESET (R278): Hard Reset signalling received; in a freeze it waits for the takeover (R297). -/
def sinkHardRx (m : Mach) (p : Nat) : Mach := modPd (sinkHard m p) p fun x => { x with hardCount := 0 }

def execSinkHardReset (port : Nat) (s : State) : Host.Outcome State Fault Refusal :=
  guardUnit (port < 48) s fun m => when (isSink m port) m fun m =>
    if frozen m port then holdRx m port .sinkHardReset else sinkHardRx m port

/-- SINK_VBUS_RESTORED (R278): vSafe5V again, or the time for it is over. -/
def sinkRestored (m : Mach) (p vbs : Nat) : Mach :=
  let m := match (getPd m p).rstSeq with
    | some q => closeEntry m q 0 0
    | none => m
  let m := modPd (modPort m p fun x => { x with draw := true, vbsMv := vbs }) p fun x =>
    { x with snkHrAt := none, pe := .snkWait, rstSeq := none }
  if m.path.bootSink = some p then m else requestStart m p

def execSinkVbusRestored (port vbsMv : Nat) (s : State) : Host.Outcome State Fault Refusal :=
  guardRead (port < 48) (vbsMv ≤ 60000) s fun m =>
    when (isSink m port && (getPd m port).snkHrAt.isSome) m fun m =>
      if within vbsMv 4750 5500 then sinkRestored m port vbsMv
      else fire m (getPd m port).snkHrAt fun m => sinkRestored m port vbsMv

/-- SINK_EPR_KEEPALIVE (R279). -/
def execSinkEprKeepalive (port : Nat) (s : State) : Host.Outcome State Fault Refusal :=
  pdRow port s fun m => when (isSink m port && (getPd m port).epr) m fun m =>
    fire m (getPd m port).keepAliveAt fun m => pdTell m port .keepAlive

/-- PPS_REQUEST_REPEAT (R279). -/
def execPpsRequestRepeat (port : Nat) (s : State) : Host.Outcome State Fault Refusal :=
  pdRow port s fun m => when (isSink m port && (getPd m port).kind = 2) m fun m =>
    fire m (getPd m port).ppsRepAt fun m =>
      let m := modPd m port fun x => { x with ppsRepAt := after m tPPSRequest }
      match (getPd m port).req with
      | some r => requestOut m port r true
      | none => m

/-- SINK_RP_CHANGE (R283): a sequence that waited for SinkTxOk starts. -/
def sinkRpChange (m : Mach) (p : Nat) (ok : Bool) : Mach :=
  let w := (getPd m p).waiting
  let m := modPort m p fun y => { y with partnerRp := if ok then 2 else 1 }
  let m := modPd m p fun x => { x with txOk := ok, waiting := if ok then none else x.waiting }
  if !ok then m
  else match w with
    | some (.request r) => requestOut m p r true
    | some .drSwap => drSwapOut m p (getPd m p).drToUfp
    | _ => m

def execSinkRpChange (port : Nat) (txOk : Bool) (s : State) : Host.Outcome State Fault Refusal :=
  guardUnit (port < 48) s fun m => when (isSink m port) m fun m => sinkRpChange m port txOk

/-- DONOR_WITHDRAW (R161): 10 s after its condition ended, a donor's limit goes to 0 and 5 V at 100 mA is requested. -/
def execDonorWithdraw (port : Nat) (s : State) : Host.Outcome State Fault Refusal :=
  guardUnit (port < 48) s fun m =>
    when (m.path.donors.contains port && !donorCond m && (m.path.donorPol = 1 || m.path.donorPol = 2)
        && m.path.bootSink ≠ some port && !m.path.withdrawn.contains port) m fun m => fire m m.path.donorEndAt fun m =>
      reRequest (setRef { m with path := { m.path with withdrawn := m.path.withdrawn ++ [port] } } port 1 0) port

/-- BOOT_CAPS_TIMEOUT (R171): the boot sink draws at vSafe5V what Rp advertises less 450 mA; Default leaves nothing. -/
def execBootCapsTimeout (port : Nat) (s : State) : Host.Outcome State Fault Refusal :=
  guardUnit (port < 48) s fun m => when (m.path.bootSink = some port) m fun m => fire m m.path.bootCapsAt fun m =>
    let m := { m with path := { m.path with bootCapsAt := none } }
    if (getPort m port).partnerRp = 0 then m else requestStart m port

def execDerateEnd (port : Nat) (s : State) : Host.Outcome State Fault Refusal :=
  guardUnit (port < 48) s fun m => fire m (protOf m port).derateAt fun m => derateEnd m port reRequest

/-! ### Resets, swaps and queries (R264 to R266, R282 to R285) -/

/-- PD_SOFT_RESET_RX (R266): Accept, and the contract stands. -/
def softResetRx (m : Mach) (p : Nat) : Mach :=
  let m := closeSwap (rxd m p) p
  let m := modPd m p fun x =>
    let x := { x with softResets := satTo 65535 (x.softResets + 1), senderAt := none, pendReq := none, drPending := false
                      waiting := none, transAt := none, psTransAt := none
                      pe := if isSink m p then (if x.contract then .snkReady else .snkWait)
                            else if x.contract then .ready else .negotiate
                      capsAt := if isSink m p then none else if x.contract then x.capsAt else some m.dev.now }
    { pdSend x m .accept with msgIdTx := 0, msgIdRx := none }
  reRequestDue m p

def execPdSoftResetRx (port : Nat) (s : State) : Host.Outcome State Fault Refusal :=
  rxRow .softReset port s fun m => softResetRx m port

/-- The answer to a partner's DR_Swap by DR_POL (R282). -/
def drAllowed (m : Mach) (p : Nat) : Bool :=
  let x := getPd m p
  let link := m.svc.link ≠ 0 && m.svc.port = p
  if x.dfp then x.drPol = 2 || (x.drPol = 1 && m.svc.armPort = some p) else x.drPol = 0 || !link

/-- PD_DR_SWAP_RX (R282 to R284): a protocol error in a transition; a collision keeps the source's own swap. -/
def drSwapRx (m : Mach) (p : Nat) : Mach :=
  let m := rxd m p
  let x := getPd m p
  if inTransition x then hardSend m p
  else if x.drPending && isSource m p then pdTell m p .wait
  else
    let m := if x.drPending then
        modPd m p fun x => { x with drPending := false, senderAt := none, drHoldAt := after m (ms 100) } else m
    let ok := drAllowed m p
    let m := if ok then modPd m p fun x => pdSend { x with dfp := !x.dfp } m .accept else pdTell m p .reject
    match x.drPending, x.drSeq with
    | true, some q =>
      let got := (getPd m p).dfp = !x.drToUfp
      modPd (closeEntry m q (if got then 0 else statusCode .notInState) 0) p fun x => { x with drSeq := none }
    | _, _ => m

def execPdDrSwapRx (port : Nat) (s : State) : Host.Outcome State Fault Refusal :=
  rxRow .drSwap port s fun m => drSwapRx m port

/-- The sink's own capabilities from PD_SNK_CFG (R266): 5 V, and the highest voltage where that lies above. -/
def sinkCapObjs (x : Sess) : List PdObj :=
  .fixed 5000 (min 5000 (x.snkPmax / 5) / 10 * 10)
    :: if 5000 < x.snkVmax then [.fixed x.snkVmax (min 5000 (x.snkPmax * 1000 / x.snkVmax) / 10 * 10)] else []

/-- PD_GET_CAP_RX (R266): a source answers with its current offer; in a power transition that follows PS_RDY. -/
def getCapRx (m : Mach) (p : Nat) (sinkCap : Bool) : Mach :=
  let m := rxd m p
  let x := getPd m p
  if sinkCap then (if maySink m p then pdTell m p (.sinkCaps (sinkCapObjs (getPd m p))) else pdTell m p .notSupported)
  else if !isSource m p then pdTell m p .notSupported
  else if inTransition x || x.pendReq.isSome then modPd m p fun x => { x with capsAt := some m.dev.now }
  else if x.pe = .startup || x.pe = .negotiate || x.pe = .ready then sendCaps m p none
  else m

def execPdGetCapRx (port : Nat) (sinkCap epr : Bool) (s : State) : Host.Outcome State Fault Refusal :=
  rxRow (.getCap sinkCap epr) port s fun m => getCapRx m port sinkCap

def queryAnswer : PdQuery → PdMsg
  | .getStatus => .status
  | .getPpsStatus => .ppsStatus
  | .getSourceCapExtended => .srcCapExtended
  | .getRevision => .revision
  | .getSourceInfo => .sourceInfo
  | .getManufacturerInfo => .manufacturerInfo

/-- PD_INFO_QUERY_RX. -/
def infoQueryRx (m : Mach) (p : Nat) (q : PdQuery) : Mach := pdTell (rxd m p) p (queryAnswer q)

def execPdInfoQueryRx (port : Nat) (q : PdQuery) (s : State) : Host.Outcome State Fault Refusal :=
  rxRow (.infoQuery q) port s fun m => infoQueryRx m port q

/-- PD_UNSUPPORTED_RX. -/
def unsupportedRx (m : Mach) (p : Nat) : Mach := pdTell (rxd m p) p .notSupported

def execPdUnsupportedRx (port : Nat) (s : State) : Host.Outcome State Fault Refusal :=
  rxRow .unsupported port s fun m => unsupportedRx m port

/-- PD_ALERT_RX: recorded, and answered with Get_Status. -/
def alertRx (m : Mach) (p bits : Nat) : Mach :=
  pdTell (modPd (rxd m p) p fun x => { x with alertBits := bits }) p .getStatus

def execPdAlertRx (port bits : Nat) (s : State) : Host.Outcome State Fault Refusal :=
  rxRow (.alert bits) port s fun m => alertRx m port bits

/-- PD_VENDOR_DEFINED_RX. -/
def vendorRx (m : Mach) (p : Nat) (discoverIdentity : Bool) : Mach :=
  pdTell (rxd m p) p (if discoverIdentity then .vdmAck else .vdmNak)

def execPdVendorDefinedRx (port : Nat) (discoverIdentity : Bool) (s : State) : Host.Outcome State Fault Refusal :=
  rxRow (.vendor discoverIdentity) port s fun m => vendorRx m port discoverIdentity

/-- PD_BIST_RX: honoured only at vSafe5V. -/
def bistRx (m : Mach) (p mode vbusMv : Nat) : Mach :=
  let m := rxd m p
  if within vbusMv 4750 5500 then modPd m p fun x => { x with bist := some mode } else m

def execPdBistRx (port mode vbusMv : Nat) (s : State) : Host.Outcome State Fault Refusal :=
  rxRow (.bist mode vbusMv) port s fun m => bistRx m port mode vbusMv

/-- PD_SINK_CAPABILITIES_RX: recorded. -/
def sinkCapsRx (m : Mach) (p : Nat) (objs : List PdObj) : Mach := modPd (rxd m p) p fun x => { x with partnerSnk := objs }

def execPdSinkCapabilitiesRx (port : Nat) (objs : List PdObj) (s : State) : Host.Outcome State Fault Refusal :=
  rxRow (.sinkCaps objs) port s fun m => sinkCapsRx m port objs

/-- CABLE_RESET_RX: the PHY resets its counters (R264). -/
def execCableResetRx (port : Nat) (s : State) : Host.Outcome State Fault Refusal :=
  guardUnit (port < 48) s fun m => modPd m port fun x => { x with msgIdTx := 0, msgIdRx := none }

/-- PD_RETRANSMIT (R264): no GoodCRC within tReceive, up to nRetryCount times; the MessageID stays. -/
def execPdRetransmit (port : Nat) (s : State) : Host.Outcome State Fault Refusal :=
  guardUnit (port < 48) s fun m =>
    let x := getPd m port
    when (x.retries < nRetryCount x) m fun m => fire m x.txAt fun m =>
      modPd m port fun x => { x with retries := x.retries + 1, txAt := after m tReceive }

/-- PD_TX_FAIL (R265): Hard Reset in a power transition and for a Soft_Reset, Soft Reset otherwise; Source_Capabilities
that nobody acknowledges are sent again after tTypeCSendSourceCap. -/
def txFail (m : Mach) (p : Nat) : Mach :=
  let x := getPd m p
  let m := modPd m p fun x => { x with txFail := wrap32 (x.txFail + 1), txAt := none }
  if inTransition x || x.pe = .softReset then hardSend m p
  else if x.pe = .negotiate && !x.contract then
    modPd m p fun x => { x with senderAt := none, pe := .startup, capsAt := after m tTypeCSendSourceCap }
  else softResetOut m p

def execPdTxFail (port : Nat) (s : State) : Host.Outcome State Fault Refusal :=
  pdRow port s fun m =>
    let x := getPd m port
    when (x.txAt.isSome && nRetryCount x ≤ x.retries) m fun m => pdTimeout m port fun m => txFail m port

/-- SENDER_RESPONSE_TIMEOUT (R265, R268): a swap is dropped; a Soft Reset, an offer or a Request leads to Hard Reset. -/
def execSenderResponseTimeout (port : Nat) (s : State) : Host.Outcome State Fault Refusal :=
  pdRow port s fun m => fire m (getPd m port).senderAt fun m =>
    pdTimeout (modPd m port fun x => { x with senderAt := none }) port fun m =>
      if (getPd m port).drPending then drRefused m port else hardSend m port

/-- NO_RESPONSE_TIMEOUT (R268, R265). -/
def execNoResponseTimeout (port : Nat) (s : State) : Host.Outcome State Fault Refusal :=
  pdRow port s fun m => fire m (getPd m port).noRespAt fun m =>
    pdTimeout (modPd m port fun x => { x with noRespAt := none }) port fun m => hardSend m port

/-! ### Commands (R292 to R295) -/

/-- The ports a PORT field names. -/
def portsOf (q : Nat) : List Nat := if q = 0xFF then List.range 48 else [q]

/-- A per-port configuration payload written to one item per port. -/
def persistPorts (code : Nat) (p : List Byte) (a : Ans) : Ans :=
  match a with
  | .ok m out => .ok (forAll m (portsOf (pU p 0 1)) fun m q => nvmConfig m code q (le 1 q ++ p.drop 1)) out
  | a => a

/-- PD_SRC_CFG without its retention write (R292). -/
def setPdSrcCfg (m : Mach) (p : List Byte) : Ans :=
  let q := pU p 0 1
  refuseFirst
    [((47 < q && q ≠ 0xFF) || 2 < pU p 2 1 || 1 < pU p 3 1 || !within (pU p 4 4) 2500 240000 || !within (pU p 8 2) 500 5000,
      .outOfRange)] <|
    .ok (forAll m (portsOf q) fun m i =>
      let m := modPd m i fun x => { x with pdoMask := pU p 1 1, drPol := pU p 2 1, eprEn := bit (pU p 3 1) 0
                                           pmaxMw := pU p 4 4, imaxMa := pU p 8 2 }
      let x := getPd m i
      if !isSource m i || x.offer.isEmpty then m
      else
        let m := if x.epr && (!x.eprEn || x.pmaxMw ≤ 100000) then modPd m i fun x => { x with eprExit := true } else m
        let o := offerMw m i
        let objs := buildOffer m i o x.epr
        -- R292: a contract the new offer does not cover is handled as a reclaim
        let covered := match x.req with
          | some r => (objs[r.pos - 1]?).isSome && reqOk { x with offer := objs } r
          | none => true
        let m := if x.contract && !covered then
            modHold m i fun h => { h with renego := true, hardAt := some (m.dev.now + ms m.lft.reclaimHardMs) } else m
        modPd m i fun x => { x with capsAt := some m.dev.now }) []

def cmdPdSrcCfg (m : Mach) (_ : Nat) (p : List Byte) : Ans := persistPorts 0x0701 p (setPdSrcCfg m p)
def execPdSrcCfg (slot : Nat) (s : State) := command 0x0701 slot cmdPdSrcCfg s

/-- PD_SNK_CFG without its retention write (R293). -/
def setPdSnkCfg (m : Mach) (p : List Byte) : Ans :=
  let q := pU p 0 1
  refuseFirst
    [((47 < q && q ≠ 0xFF) || 1 < pU p 1 1 || !within (pU p 4 4) 2500 240000 || !within (pU p 8 2) 5000 48000
        || !within (pU p 10 2) (pU p 8 2) 48000, .outOfRange)] <|
    .ok (forAll m (portsOf q) fun m i => modPd m i fun x =>
      { x with snkEpr := bit (pU p 1 1) 0, snkPmax := pU p 4 4, snkVmin := pU p 8 2, snkVmax := pU p 10 2 }) []

def cmdPdSnkCfg (m : Mach) (_ : Nat) (p : List Byte) : Ans := persistPorts 0x0702 p (setPdSnkCfg m p)
def execPdSnkCfg (slot : Nat) (s : State) := command 0x0702 slot cmdPdSnkCfg s

/-- SESSION of R294. -/
def sessionCode (m : Mach) (p : Nat) : Nat :=
  let x := getPd m p
  if frozen m p then 5
  else match x.pe with
    | .off | .noPd | .startup | .snkWait => if x.contract then 2 else 0
    | .hardReset => 4
    | _ => if x.contract then (if x.epr && 3 ≤ x.kind then 3 else 2) else 1

/-- ROLES of R289. -/
def rolesByte (m : Mach) (p : Nat) : Nat :=
  let x := getPd m p
  flag (isSource m p) 0 + flag (attachedTypeC m p && x.dfp) 1 + flag x.epr 2 + flag x.contract 3

/-- PD_STAT_GET (R294). -/
def cmdPdStatGet (m : Mach) (_ : Nat) (p : List Byte) : Ans :=
  let q := pU p 0 1
  refuseFirst [(47 < q, .outOfRange)] <|
    let x := getPd m q
    let fl := flag (getPort m q).damp5 0 + flag x.mismatch 1
      + flag (x.contract && x.kind = 2 && (getCv m q).run && (getCv m q).ctrl.sel = 1) 2 + flag (getPort m q).vconnOc 3
    .ok m (le 1 (sessionCode m q) ++ le 1 x.rev ++ le 1 (rolesByte m q) ++ le 1 (tget m.serves 0xFF q) ++ le 1 x.kind
      ++ le 1 x.pos ++ le 1 x.cable ++ le 1 fl ++ le 2 (if x.contract then x.vTarget else 0) ++ le 2 x.opMa
      ++ le 4 x.offerMw ++ le 2 x.hardResets ++ le 2 x.softResets ++ le 4 x.txFail ++ le 1 x.lastAbort ++ le 3 0)

def execPdStatGet (slot : Nat) (s : State) := command 0x0703 slot cmdPdStatGet s

/-- The port has a PD session that a command may act on (R295). -/
def commandable (m : Mach) (q : Nat) : Bool :=
  attachedTypeC m q && served m q && sessionCode m q ≠ 0 && sessionCode m q ≠ 5

/-- PD_DR_SWAP_REQ (R295): the outcome follows the partner's answer. -/
def cmdPdDrSwapReq (m : Mach) (s : Nat) (p : List Byte) : Ans :=
  let q := pU p 0 1
  let role := pU p 1 1
  let x := getPd m q
  refuseFirst
    [(47 < q || 1 < role, .outOfRange),
     (!commandable m q || x.dfp = (role = 1) || x.drPending || x.drSeq.isSome, .notInState)] <|
    .accepted (drSwapOut (modPd m q fun x => { x with drSeq := some (getSlot m s).jseq }) q (role = 0))

def execPdDrSwapReq (slot : Nat) (s : State) := command 0x0704 slot cmdPdDrSwapReq s

/-- PD_RESET (R295): Soft Reset, Hard Reset, or Source_Capabilities again. -/
def cmdPdReset (m : Mach) (s : Nat) (p : List Byte) : Ans :=
  let q := pU p 0 1
  let k := pU p 1 1
  let seq := (getSlot m s).jseq
  let mark (m : Mach) : Mach := modPd m q fun x => { x with rstSeq := some seq }
  refuseFirst
    [(k = 1 && !isService m s, .privilege), (47 < q || 2 < k, .outOfRange),
     (!commandable m q || (getPd m q).rstSeq.isSome || (k = 2 && !isSource m q), .notInState)] <|
    .accepted (if k = 0 then mark (softResetOut m q)
      else if k = 1 then
        mark (if isSink m q then sinkSignal m q else hardSignal m q)
      else mark (modPd m q fun x => { x with capsAt := some m.dev.now }))

def execPdReset (slot : Nat) (s : State) := command 0x0705 slot cmdPdReset s

end Machine
end Sys2Proof
end

