-- ==== Sys2Proof/Machine/PdCore.lean ====
section
/-! DEFINITION. Sys2Proof/Machine/PdCore.lean: the PD cores, and the moves of ports between them (R288 to R291, R296). -/
namespace Sys2Proof
namespace Machine

/-- A message of RX_HOLD handled (R290). -/
def heldOne (p : Nat) (m : Mach) : PdRx → Mach
  | .request r => pdRequestRx m p r
  | .eprMode e => eprModeRx m p e
  | .keepalive => keepaliveRx m p
  | .sourceCaps o e c r => sourceCapsRx m p o e c r
  | .accept r => acceptRoleRx m p r
  | .reject w => rejectWaitRx m p w
  | .psRdy => psRdyRx m p
  | .softReset => softResetRx m p
  | .drSwap => drSwapRx m p
  | .getCap c _ => getCapRx m p c
  | .infoQuery q => infoQueryRx m p q
  | .unsupported => unsupportedRx m p
  | .alert b => alertRx m p b
  | .vendor d => vendorRx m p d
  | .bist k v => bistRx m p k v
  | .sinkCaps o => sinkCapsRx m p o
  | .hardReset => if isSource m p then hardRx m p else m
  | .sinkHardReset => if isSink m p then sinkHardRx m p else m

/-- The freeze of a port is over: RX_HOLD in arrival order, then Rp and DCP as they follow (R290). -/
def thaw (m : Mach) (p : Nat) : Mach :=
  let l := (getPd m p).rxHold
  if l.isEmpty then m
  else dcpEval (rpAvoid (l.foldl (heldOne p) (modPd m p fun x => { x with rxHold := [] })) p) p

/-- A move that is abandoned: the port stays with its core, MIGRATE_FAIL is recorded on the core, and bit p - 24 d of the
outcome, on die d, names the port (R296, R469). -/
def migrationLeft (m : Mach) (p : Nat) : Mach :=
  let k := tget m.serves 0 p
  let m := modPd m p fun x => { x with migTo := none, migAt := none }
  thaw (migrationDone (modCore (note m (0x70 + k) .migrateFail 2) k fun c =>
    { c with migFailed := c.migFailed + flag (!bit c.migFailed (p % 24)) (p % 24) }) k) p

/-- A port taken over: its record is written with a fresh SEQ, deadlines and contract stand; a port that had no PD starts
again; an authentication in progress on a bay restarts (R290, R291, R319). -/
def takeOver (m : Mach) (p k : Nat) : Mach :=
  let m := bayRestart (serveBy m p k) p
  modPd m p fun x =>
    { x with seq := wrap32 (x.seq + 1), migTo := none, migAt := none
             pe := if x.pe = .noPd then .startup else x.pe
             capsAt := if x.pe = .noPd && isSource m p then some m.dev.now else x.capsAt }

/-- PD_MIGRATION (R290, R297): freeze, record and takeover at a message boundary; a target that is gone leaves the port
where it is. -/
def pdMigration (m : Mach) (p : Nat) : Mach :=
  let src := tget m.serves 0 p
  match (getPd m p).migTo with
  | none => m
  | some k =>
    if !atBoundary m p then m
    else if !coreOk m k || 12 ≤ (corePorts m k).length then migrationLeft m p
    else thaw (migrationDone (takeOver m p k) src) p

/-- A PD core fenced; what its ports held is handled by the cores that take them (R290, R291). -/
def coreFence (m : Mach) (k code : Nat) : Mach := forAll (fenceCore m k code) (corePorts m k) thaw

def execPdMigration (port : Nat) (s : State) : Host.Outcome State Fault Refusal :=
  guardUnit (port < 48) s fun m => pdMigration m port

/-- MIGRATION_ABANDON (R290): no boundary within 500 ms. -/
def execMigrationAbandon (port : Nat) (s : State) : Host.Outcome State Fault Refusal :=
  guardUnit (port < 48) s fun m => fire m (getPd m port).migAt fun m => migrationLeft m port

/-- PD_CORE_FENCE (R291): a fault of the core fences it; its ports move. -/
def execPdCoreFence (core : Nat) (s : State) : Host.Outcome State Fault Refusal :=
  guardUnit (core < 8) s fun m =>
    if ((getBlk m (0x70 + core)).fence).isSome then movePorts m core
    else
      let (m, act) := detect m (0x70 + core) .exception 5 (ms 10)
      if !act then m
      else
        -- R499: a core that faults in its probation stops the update
        let m := if m.upd.kind = 2 && m.upd.st = .probation && m.upd.coresDone.getLast? = some core then
            { m with upd := { m.upd with step := 9 } } else m
        coreFence m core (codeOf .exception)

/-- The ports of a core asked to move to a sibling. -/
def migrateAll (m : Mach) (src dst : Nat) (seq : Option Nat) : Mach :=
  let m := forAll m (corePorts m src) fun m p => modPd m p fun x => { x with migTo := some dst, migAt := after m (ms 500) }
  modCore m src fun c => { c with migSeq := seq, migFailed := 0 }

/-- The least-loaded sibling, the lower number first. -/
def leastLoaded (m : Mach) (k : Nat) : Option Nat :=
  ((List.range 8).filter fun j => j / 4 = k / 4 && j ≠ k && coreOk m j).foldl (fun acc j => match acc with
    | none => some j
    | some b => if (corePorts m j).length < (corePorts m b).length then some j else some b) none

/-- PD_MIGRATE (R296). -/
def cmdPdMigrate (m : Mach) (s : Nat) (p : List Byte) : Ans :=
  let src := pU p 0 1
  let dst := pU p 1 1
  let tgt := if dst = 0xFF then (leastLoaded m src).getD src else dst
  refuseFirst
    [(7 < src || (7 < dst && dst ≠ 0xFF) || (dst ≠ 0xFF && (src / 4 ≠ dst / 4 || src = dst)), .outOfRange),
     (12 < (corePorts m tgt).length + (corePorts m src).length && tgt ≠ src || (getCore m src).migSeq.isSome, .busy),
     (tgt = src || !coreOk m tgt, .fenced)] <|
    .accepted (migrateAll m src tgt (some (getSlot m s).jseq))

def execPdMigrate (slot : Nat) (s : State) := command 0x0707 slot cmdPdMigrate s

/-- PD_CORE_STAT_GET (R296): idle is a running core that serves no port. -/
def cmdPdCoreStatGet (m : Mach) (_ : Nat) (_ : List Byte) : Ans :=
  let st (k : Nat) : Nat :=
    if ((getBlk m (0x70 + k)).fence).isSome then 2 else if (getCore m k).updating then 1
    else if (corePorts m k).isEmpty then 3 else 0
  .ok m (((List.range 8).flatMap fun k =>
      le 4 (st k * 2 ^ 28 + (corePorts m k).length % 16 * 2 ^ 24 + (getCore m k).fwMinor * 2 ^ 16
        + (getCore m k).fwMajor * 2 ^ 8))
    ++ (List.range 8).flatMap fun k => le 8 (bitmap (corePorts m k)))

def execPdCoreStatGet (slot : Nat) (s : State) := command 0x0706 slot cmdPdCoreStatGet s

end Machine
end Sys2Proof
end

