-- ==== Sys2Proof/Machine/Bays.lean ====
section
/-! DEFINITION. Sys2Proof/Machine/Bays.lean: pack bays (chapter 11), the proofing pause of R339, the reading of R206, and
PRT_CFG (R231, R232), which makes a port a bay. -/
namespace Sys2Proof
namespace Machine

/-! ### Records (R313, R314) -/

/-- A record is held by a bay, or released once the write under way has ended (R319). -/
def recHeld (m : Mach) (x : Nat) : Bool := (tget m.recs {} x).holder ≠ 0xFF || learnBusy m x

def modRec (m : Mach) (x : Nat) (f : PackRec → PackRec) : Mach := { m with recs := tupd m.recs x f }

/-- The identity record written to its slot (R430): PACK_ID, KEY_IDX, last-seen time, insertions, profile. -/
def recSave (m : Mach) (x : Nat) : Mach :=
  let r := tget m.recs {} x
  nvmConfig m 0x0804 x (r.packId ++ le 1 r.keyIdx ++ le 4 r.lastSeen ++ le 2 r.inserts ++ r.prof)

/-- The record a saved item spells. -/
def recOf (p : List Byte) : PackRec :=
  { used := true, packId := p.take 8, keyIdx := pU p 8 1, lastSeen := pU p 9 4, inserts := pU p 13 2, prof := p.drop 15 }

/-- The record a pack takes (R313): its own, a free one, or the one least recently seen among those not held. -/
def recChoose (m : Mach) (id : List Byte) : Nat :=
  let all := List.range 256
  match all.find? fun x => (tget m.recs {} x).used && (tget m.recs {} x).packId = id with
  | some x => x
  | none =>
    match all.find? fun x => !(tget m.recs {} x).used with
    | some x => x
    | none =>
      let free := all.filter fun x => !recHeld m x
      free.foldl (fun b x => if (tget m.recs {} x).lastSeen < (tget m.recs {} b).lastSeen then x else b) (free.headD 0)

/-- A verified pack's record, taken by a bay. A replaced record's learned values go, and that is journalled. -/
def recTake (m : Mach) (p : Nat) (id : List Byte) (key : Nat) (prof : List Byte) (fresh : Bool) : Mach :=
  let x := recChoose m id
  let r := tget m.recs {} x
  let m := if r.used && r.packId ≠ id then journal (modCtx m x fun _ => {}) .cmd p else m
  let m := modRec m x fun r =>
    let r := if r.used && r.packId = id then r else { used := true, packId := id }
    { r with keyIdx := key, holder := p, prof := prof, inserts := if fresh then satTo 65535 (r.inserts + 1) else r.inserts }
  let m := match (getBay m p).record with
    | some y => if y = x then m else modRec m y fun r => { r with holder := 0xFF }
    | none => m
  recSave (modBay m p fun b => { b with record := some x }) x

/-- A bay's record released at removal, its learned values queued and its context closed (R314, R315). -/
def recRelease (m : Mach) (p : Nat) : Mach :=
  match (getBay m p).record with
  | none => m
  | some x =>
    let m := if (getCtx m x).active then deactivate (learnWrite m x) x else m
    let m := modRec m x fun r => { r with holder := 0xFF, lastSeen := nowS m }
    recSave (modBay m p fun b => { b with record := none }) x

/-! ### The link (R303 to R305) -/

/-- A frame with a payload of `n` bytes on the wire at 250 kbit/s (R303): preamble, start set, 10 bits a byte, EOP. -/
def frameNs (n : Nat) : Nat := 4000 * (64 + 20 + 10 * (6 + n) + 5)

/-- How long a reply to a request of this TYPE may take, from the start of the request (R305). -/
def replyNs (type : Nat) : Nat := if type = 3 then frameNs 40 + ms 250 else frameNs 0 + ms 2

/-- A request sent. -/
def bayAsk (m : Mach) (p type : Nat) : Mach :=
  modBay m p fun b => { b with reqType := type, retries := 0, replyAt := after m (replyNs type) }

/-- An attempt begins with HELLO (R308); a trickle stays what it is, and a BAY_CFG takes effect. -/
def bayAttempt (m : Mach) (p : Nat) : Mach :=
  let m := modBay m p fun b =>
    let b := match b.trickleNext with
      | some [n, ch, ma, mn] => { b with trickleCells := n, trickleChem := ch, trickleMa := ma, trickleMin := mn }
      | _ => b
    { b with st := if b.st = .trickle then .trickle else .link, attempts := satTo 255 (b.attempts + 1), trickleNext := none
             helloId := [], prof := [], sig := [], cert := [], retryAt := none, verdictAt := none }
  bayAsk m p 1

/-- The machine of a bay that has lost its verdict: OFF, its converter stopped. -/
def bayOff (m : Mach) (p : Nat) : Mach :=
  chgEnter (modChg (stopRun (eisAbort m (p + 1)) p) (p + 1) fun c =>
    { c with prof := { c.prof with valid := false }, paused := false }) (p + 1) .off

/-- REJECTED with the last verdict (R309). -/
def bayReject (m : Mach) (p : Nat) : Mach :=
  modBay (bayOff m p) p fun b => { b with st := .rejected, reqType := 0, replyAt := none, retryAt := none, trickleAt := none
                                          trickleTryAt := none, trickleMv := 0, pollAt := none, startAt := none, revoked := false }

/-- The voltage limit of a trickle: cells times the chemistry's VCELL_PRE (R311). -/
def trickleLimit (b : Bay) : Nat := b.trickleCells * (if b.trickleChem = 2 then 2500 else 3000)

/-- An attempt ended with a verdict other than OK (R309, R311, R316). -/
def attemptFail (m : Mach) (p v : Nat) : Mach :=
  let b := getBay m p
  let m := modBay m p fun b => { b with verdict := if b.revoked then 8 else v, failed := b.failed + 1, reqType := 0
                                        replyAt := none, verdictAt := none }
  if b.revoked then bayReject m p
  else if b.st = .trickle && v = 2 then m
  else
    let m := if b.st = .trickle then
        modBay (stopRun m p) p fun b => { b with st := .link, trickleAt := none, trickleTryAt := none, trickleMv := 0 }
      else m
    if v = 2 && b.trickleCells ≠ 0 && (getChg m (p + 1)).vMv < trickleLimit b && !bayHeld m p then
      modBay m p fun b => { b with st := .trickle, trickleMv := trickleLimit b, trickleAt := after m (sec (60 * b.trickleMin))
                                   trickleTryAt := after m (sec 10) }
    else if 3 ≤ b.failed + 1 then bayReject m p
    else modBay m p fun b => { b with retryAt := after m (sec 1) }

/-- An exchange failed (R305, R306): repeated twice after 5 ms; the third failure ends the attempt with NO_LINK, or suspends
the machine until a fresh authentication has succeeded. -/
def linkFail (m : Mach) (p : Nat) : Mach :=
  let b := getBay m p
  let m := modBay m p fun b => { b with linkErr := satTo 65535 (b.linkErr + 1) }
  if b.retries < 2 then
    modBay m p fun b => { b with retries := b.retries + 1, replyAt := after m (ms 5 + replyNs b.reqType) }
  else if b.reqType = 4 then
    let m := modBay (note m p .noLink 3) p fun b => { b with reqType := 0, replyAt := none, retries := 0, pollAt := none
                                                             retryAt := after m (sec 1) }
    let m := modChg m (p + 1) fun c => { c with linkStop := 9 }
    chgApply (if chgPermits (getChg m (p + 1)) then chgSuspend m (p + 1) 9 else m) (p + 1)
  else attemptFail m p 2

/-- A STATUS reply (R306, R319): termination in the same second governs. -/
def bayStatus (m : Mach) (p : Nat) (pl : List Byte) : Mach :=
  let c := p + 1
  let stop := pU pl 4 2 % 4 ≠ 0
  let m := modBay m p fun b => { b with reqType := 0, replyAt := none, retries := 0, vpackMv := pU pl 0 2, packTemp := pI pl 2 2
                                        stopClear := if stop then 0 else b.stopClear + 1 }
  let m := match (getBay m p).record with
    | some x => modRec m x fun r => { r with lastSeen := nowS m }
    | none => m
  let x := getChg m c
  if stop then
    if (x.st = .cv && terminated m c && !x.prof.topoffEn) || (x.st = .topoff && 10 ≤ x.termRun) then terminate m c
    else
      let fresh := x.linkStop ≠ 8
      let m := modChg m c fun y => { y with linkStop := if y.linkStop < 9 then 8 else y.linkStop }
      let m := if fresh then learnMach (note m p .packStop 3) c else m
      chgApply (if chgPermits (getChg m c) then chgSuspend m c 8 else m) c
  else if x.linkStop = 8 && 3 ≤ (getBay m p).stopClear then modChg m c fun y => { y with linkStop := 0 }
  else m

/-- BAY_LINK_REPLY (R304 to R306): a frame that is damaged, a NAK, or not the reply asked for is a failed exchange. -/
def bayLinkReply (m : Mach) (p type : Nat) (pl : List Byte) (crcOk : Bool) : Mach :=
  let b := getBay m p
  let n := pl.length
  let fits := if b.reqType = 1 then n = 12 else if b.reqType = 2 then n = (if b.win then 56 else 40)
    else if b.reqType = 3 then n = 160 else n = 8
  if !crcOk || type ≠ 0x80 + b.reqType || !fits then linkFail m p
  else
    match b.reqType with
    | 1 => bayAsk (modBay m p fun b =>
        { b with helloId := pl.take 8, packId := pl.take 8, helloKey := pU pl 8 1, keyIdx := pU pl 8 1
                 yParity := pU pl 9 1 % 2, win := bit (pU pl 9 1) 1, packFw := pU pl 10 2 }) p 2
    | 2 =>
      let (n, m) := draw m
      bayAsk (modBay m p fun b => { b with prof := pl, nonce := Config.nonce n }) p 3
    | 3 =>
      let t := max m.dev.now m.dev.pkBusyUntil + us 2000
      let m := { m with dev := { m.dev with pkBusyUntil := t } }
      modBay m p fun b => { b with st := if b.st = .trickle then .trickle else .verify, sig := pl.take 64, cert := pl.drop 64
                                   reqType := 0, replyAt := none, retries := 0, verdictAt := some t }
    | _ => bayStatus m p pl

def execBayLinkReply (port type : Nat) (payload : List Nat) (crcOk : Bool) (s : State) : Host.Outcome State Fault Refusal :=
  guardUnit (port < 48) s fun m =>
    when (isBay m port && (getBay m port).reqType ≠ 0) m fun m => bayLinkReply m port type (payload.map (BitVec.ofNat 8)) crcOk

/-- BAY_REPLY_TIMEOUT (R305). -/
def execBayReplyTimeout (port : Nat) (s : State) : Host.Outcome State Fault Refusal :=
  guardUnit (port < 48) s fun m => fire m (getBay m port).replyAt fun m => linkFail m port

/-! ### The verdict (R307 to R310) -/

/-- The profile of a pack meets R181 as R308 has it. -/
def packProfileOk (m : Mach) (p : Nat) (pl : List Byte) : Bool :=
  let x := profileOf pl
  let v := x.cells * x.term
  profileOk pl 1 && pU pl 39 1 < 16 && within v 3300 48000
    && ((getCv m p).decl.topo ≠ 2 || v + 1000 ≤ m.path.sysMin)

/-- Another bay holds a verified pack with this PACK_ID. -/
def packElsewhere (m : Mach) (p : Nat) (id : List Byte) : Bool :=
  (List.range 48).any fun q => q ≠ p && isBay m q && (getBay m q).verdict = 1 && packPresent m q && (getBay m q).packId = id

/-- The checks of R308 in their order; the first failure decides. -/
def verdictOf (m : Mach) (p : Nat) : Nat :=
  let b := getBay m p
  let k := tget m.keys {} b.helloKey
  let pubx := b.cert.take 32
  let block := b.helloId ++ le 1 b.helloKey ++ le 1 b.yParity ++ pubx ++ sha256 b.prof
  if !k.used then 3
  else
    match decompress (ofLe pubx) b.yParity with
    | none => 4
    | some q =>
      if !sigOk (k.x, k.y) block (b.cert.drop 32) then 4
      else if !sigOk q (le 32 b.nonce.toNat ++ b.helloId ++ le 8 Config.uid.toNat) b.sig then 5
      else if !packProfileOk m p b.prof then 6
      else if packElsewhere m p b.helloId then 7
      else 1

/-- A pack verified (R310, R313): its record and context open, and its machine starts in CHECK with the clamped profile;
a machine suspended by the link goes on in its cycle. -/
def bayVerified (m : Mach) (p : Nat) : Mach :=
  let b := getBay m p
  let lim := irateTotal m p
  let x := profileOf b.prof
  let resume := (getChg m (p + 1)).prof.valid && (getChg m (p + 1)).st = .suspended
  let m := if b.st = .trickle then stopRun m p else m
  let m := recTake m p b.helloId b.helloKey b.prof (b.record.isNone)
  let m := modBay m p fun b =>
    { b with verdict := 1, verdictAt := none, revoked := false, trickleAt := none, trickleTryAt := none, trickleMv := 0
             authMs := if b.record.isSome && b.authMs ≠ 0 then b.authMs else satTo 65535 ((m.dev.now - b.insertedAt) / 1000000)
             stopClear := 0
             st := if m.ui.washdown then .paused else if (getCv m p).run && (getCv m p).vbg && resume then .charging else .ready }
  let m := modChg m (p + 1) fun c =>
    { c with prof := { x with iCc := min x.iCc lim, iPre := min x.iPre lim }, linkStop := 0
             twin := if b.prof.length = 56 then some (twinOf (b.prof.drop 40)) else none
             newCycle := c.newCycle || !resume }
  let m := if (getBay m p).st = .charging then modBay m p fun b => { b with pollAt := after m (sec 1) } else m
  reopen m p

/-- AUTH_VERDICT (R308): DUPLICATE_ID is journalled (R319). -/
def authVerdict (m : Mach) (p : Nat) : Mach :=
  let v := verdictOf m p
  if v = 1 then bayVerified m p
  else attemptFail (if v = 7 then journal m .cmd p else m) p v

def execAuthVerdict (port : Nat) (s : State) : Host.Outcome State Fault Refusal :=
  guardUnit (port < 48) s fun m => fire m (getBay m port).verdictAt fun m => authVerdict m port

/-- AUTH_RETRY (R309). -/
def execAuthRetry (port : Nat) (s : State) : Host.Outcome State Fault Refusal :=
  guardUnit (port < 48) s fun m => fire m (getBay m port).retryAt fun m => bayAttempt m port

/-- BAY_STATUS_POLL (R306). -/
def execBayStatusPoll (port : Nat) (s : State) : Host.Outcome State Fault Refusal :=
  guardUnit (port < 48) s fun m => fire m (getBay m port).pollAt fun m =>
    let m := modBay m port fun b => { b with pollAt := if b.st = .charging then after m (sec 1) else none }
    if (getBay m port).st = .charging && (getBay m port).reqType = 0 then bayAsk m port 4 else m

/-! ### Trickle (R311) -/

/-- TRICKLE_RETRY: every 10 s; where an attempt still runs, the next is due 10 s later. -/
def execTrickleRetry (port : Nat) (s : State) : Host.Outcome State Fault Refusal :=
  guardUnit (port < 48) s fun m => fire m (getBay m port).trickleTryAt fun m =>
    let m := modBay m port fun b => { b with trickleTryAt := after m (sec 10) }
    if (getBay m port).reqType = 0 && (getBay m port).verdictAt.isNone then bayAttempt m port else m

/-- TRICKLE_EXPIRE. -/
def execTrickleExpire (port : Nat) (s : State) : Host.Outcome State Fault Refusal :=
  guardUnit (port < 48) s fun m => fire m (getBay m port).trickleAt fun m =>
    bayReject (modBay m port fun b => { b with verdict := 2, failed := b.failed + 1, verdictAt := none }) port

/-! ### Presence (R301, R315) -/

/-- A pack gone (R315): converter and load switch open, machine OFF with its timers discarded, attempt abandoned, record
released with its learned values queued; the contact is discharged once the bay reads empty (R300). -/
def bayGone (m : Mach) (p : Nat) : Mach :=
  let m := stopRun (eisAbort m (p + 1)) p
  let m := recRelease m p
  let m := modChg m (p + 1) fun c => { winTransitions := c.winTransitions, vMv := c.vMv, chgEn := c.chgEn }
  let m := modBay m p fun b =>
    { trickleCells := b.trickleCells, trickleChem := b.trickleChem, trickleMa := b.trickleMa, trickleMin := b.trickleMin
      trickleNext := b.trickleNext, idMv := b.idMv, inserts := b.inserts, lateId := b.lateId }
  modCv (dropPass m p) p fun c => { c with starting := false, vbg := false, vbd := 2400 < (getBay m p).idMv }

/-- PACK_REMOVAL: detectors 0 CC1 above 2 400 mV, 1 VBS above V_CHG + 300 mV with the current below 10 % of I_CHG, 2 VBS
below 2 000 mV. -/
def packRemoval (m : Mach) (p det vbs i : Nat) : Mach :=
  let x := getChg m (p + 1)
  let hit : Bool := if det = 0 then true
    else if det = 1 then (getCv m p).run && (getCv m p).vbg && chgPermits x && x.vChg + 300 < vbs && 10 * i < x.iNow
    else vbs < 2000
  if !packPresent m p || !hit then m
  else
    let m := modBay m p fun b => { b with lateId := if det = 0 then b.lateId else wrap32 (b.lateId + 1)
                                          idMv := if det = 0 then 2500 else b.idMv }
    journal (bayGone m p) .cmd p

def execPackRemoval (port detector vbsMv iMa : Nat) (s : State) : Host.Outcome State Fault Refusal :=
  guardRead (port < 48 && detector < 3) (vbsMv ≤ 60000) s fun m =>
    when (isBay m port) m fun m => packRemoval m port detector vbsMv iMa

/-- BAY_ID_READ: every 10 ms while the bay is empty or idle. -/
def bayIdRead (m : Mach) (p mv : Nat) : Mach :=
  let old := getBay m p
  let m := modBay m p fun b => { b with idMv := mv }
  let short (m : Mach) : Mach :=
    setLive (note (modBay m p fun b => { b with st := .idFault, insertAt := none }) p .idShort 3) p .idShort 3 true
  let seen (m : Mach) : Mach :=
    modCv (modBay m p fun b => { b with st := .detect, insertAt := after m (ms 50) }) p fun c => { c with vbd := false }
  let empty (m : Mach) : Mach :=
    modCv (modBay m p fun b => { b with st := .empty, insertAt := none }) p fun c =>
      { c with vbd := c.vbd || old.idMv ≤ 2400 }
  let lift (m : Mach) : Mach := if old.st = .idFault then setLive m p .idShort 3 false else m
  if 2400 < mv then
    match old.st with
    | .empty | .detect | .idFault => empty (lift m)
    | _ => packRemoval m p 0 0 0
  else if 2200 < mv then m
  else if mv < 100 then
    match old.st with
    | .idFault => m
    | .empty | .detect => short m
    | _ => short (journal (bayGone m p) .cmd p)
  else
    match old.st with
    | .empty | .idFault => seen (lift m)
    | _ => m

def execBayIdRead (port cc1Mv : Nat) (s : State) : Host.Outcome State Fault Refusal :=
  guardRead (port < 48) (cc1Mv ≤ 5500) s fun m =>
    let st := (getBay m port).st
    when (isBay m port && m.dev.configApplied && st ≠ .link && st ≠ .verify && st ≠ .trickle && st ≠ .charging) m fun m =>
      bayIdRead m port cc1Mv

/-- PACK_INSERT: present for 50 ms without a break. -/
def execPackInsert (port : Nat) (s : State) : Host.Outcome State Fault Refusal :=
  guardUnit (port < 48) s fun m => fire m (getBay m port).insertAt fun m =>
    bayAttempt (modBay m port fun b =>
      { b with insertAt := none, insertedAt := m.dev.now, inserts := wrap32 (b.inserts + 1), attempts := 0, failed := 0
               verdict := 0, linkErr := 0, keyIdx := 0xFF, authMs := 0 }) port

/-! ### Starting and resting (R312, R206, R339) -/

/-- BAY_START: VBG closes once the two readings lie within 200 mV, and the current rises from 0; where they do not within
20 ms the start is refused. -/
def bayStart (m : Mach) (p vcs vbs : Nat) : Mach :=
  let near := vcs < vbs + 200 && vbs < vcs + 200
  if near then
    let m := modCv m p fun c => { c with vbg := true }
    let b := getBay m p
    let m := modBay m p fun b => { b with startAt := none }
    if b.st = .trickle then setRef (setRef m p 1 (trickleRef m p)) p 0 b.trickleMv
    else
      let m := modBay m p fun b => { b with st := .charging, pollAt := if b.pollAt.isSome then b.pollAt else after m (sec 1) }
      let m := setRef m p 1 0
      chgApply (modChg m (p + 1) fun c => { c with rise := true, iNow := 0 }) (p + 1)
  else
    fire m (getBay m p).startAt fun m =>
      refuseStart (note (modBay m p fun b => { b with startAt := none }) (cnvBlk p) .prebiasUnstable 4) p

def execBayStart (port vcsMv vbsMv : Nat) (s : State) : Host.Outcome State Fault Refusal :=
  guardRead (port < 48) (vcsMv ≤ 60000 && vbsMv ≤ 60000) s fun m =>
    when (isBay m port && (getBay m port).startAt.isSome && (getCv m port).run && !(getCv m port).vbg) m fun m =>
      bayStart m port vcsMv vbsMv

/-- The next reading of a bay in DONE. -/
def doneDue (m : Mach) (p : Nat) : Nat :=
  let e := (getChg m (p + 1)).entered
  match (getBay m p).doneAt with
  | some t => if e < t then t else e + sec 60
  | none => e + sec 60

/-- BAY_DONE_READ: the reading serves R183, and R331 as a 1 min point. -/
def execBayDoneRead (port vbsMv : Nat) (s : State) : Host.Outcome State Fault Refusal :=
  guardRead (port < 48) (vbsMv ≤ 60000) s fun m =>
    when (isBay m port && (getChg m (port + 1)).st = .done) m fun m => fire m (some (doneDue m port)) fun m =>
      let m := modBay m port fun b => { b with doneAt := after m (sec 60) }
      let m := modChg m (port + 1) fun c => { c with vMv := vbsMv }
      let cell : Int := vbsMv * 1000 / max 1 (getChg m (port + 1)).prof.cells
      forAll m (machCtxs m (port + 1)) fun m x => modCtx m x fun c => { c with doneV := (cell :: c.doneV).take 11 }

/-- PROOFING_PAUSE (R339). -/
def proofingPause (m : Mach) (p : Nat) : Mach :=
  let c := p + 1
  let m := stopRun (eisAbort m c) p
  let m := modChg m c fun x => { x with paused := true, pauseRun := true, pauseReq := false, iNow := 0, rise := false }
  let m := modBay m p fun b => { b with pauseAt := after m (sec 90) }
  forAll m (machCtxs m c) fun m x => modCtx m x fun k => { k with fit := some {} }

def execProofingPause (port : Nat) (s : State) : Host.Outcome State Fault Refusal :=
  guardUnit (port < 48) s fun m =>
    let want := (getChg m (port + 1)).pauseReq || (machCtxs m (port + 1)).any fun x =>
      (m.est.pauseSigma : Rat) < 100 * (getCtx m x).sigma || m.est.pauseAgeH * 3600000 ≤ (getCtx m x).anchorAge
    when (isBay m port && want && pauseBase m port) m fun m => proofingPause m port

/-- PROOFING_PAUSE_END: the fit runs (R338), and charging resumes under R312 with the current rising from 0. -/
def proofingPauseEnd (m : Mach) (p : Nat) : Mach :=
  let c := p + 1
  let m := forAll m (machCtxs m c) fun m x =>
    match (getCtx m x).fit with
    | some w => if 80 ≤ w.pts.length && !m.est.halted then fitAnchor m x { w with pts := w.pts.take 80 }
        else modCtx m x fun k => { k with fit := none, fitRejects := satTo 65535 (k.fitRejects + 1) }
    | none => m
  let m := modBay m p fun b => { b with pauseAt := none }
  chgApply (modChg m c fun x => { x with paused := false, iNow := 0, rise := true }) c

def execProofingPauseEnd (port : Nat) (s : State) : Host.Outcome State Fault Refusal :=
  guardUnit (port < 48) s fun m => fire m (getBay m port).pauseAt fun m => proofingPauseEnd m port

/-! ### Fleet keys (R316) -/

/-- A slot as a payload sets it. -/
def putKey (m : Mach) (p : List Byte) : Mach :=
  { m with keys := tupd m.keys (pU p 0 1) fun _ =>
      if pU p 1 1 = 1 then { used := true, x := pU p 4 32, y := pU p 36 32 } else {} }

/-- BAY_KEY_SET: a cleared slot ends the attempts that use it (R319) and makes the packs verified under it due. -/
def setBayKey (m : Mach) (s : Nat) (p : List Byte) : Ans :=
  let k := pU p 0 1
  let a := pU p 1 1
  refuseFirst
    [(!isService m s, .privilege), (3 < k || 1 < a || (a = 1 && !onCurve (pU p 4 32) (pU p 36 32)), .outOfRange),
     (a = 1 && (tget m.keys {} k).used, .notInState)] <|
    let m := putKey m p
    .ok (if a = 1 then m
      else forAll m ((List.range 48).filter fun q => isBay m q && packPresent m q) fun m q =>
        let b := getBay m q
        let trying := (2 ≤ b.reqType && b.reqType ≤ 3) || b.verdictAt.isSome
        if trying && b.helloKey = k then attemptFail m q 8
        else if b.verdict = 1 && b.record.isSome && b.keyIdx = k then
          modBay m q fun b => { b with revokeAt := after m (sec 1) }
        else m) []

def cmdBayKeySet (m : Mach) (s : Nat) (p : List Byte) : Ans := persist 0x0802 (pU p 0 1) p (setBayKey m s p)
def execBayKeySet (slot : Nat) (s : State) := command 0x0802 slot cmdBayKeySet s

/-- A bay's charge suspended until a new attempt has succeeded (R316, R317). -/
def bayAgain (m : Mach) (p : Nat) : Mach :=
  let c := p + 1
  let m := modChg m c fun x => { x with linkStop := 10 }
  let m := chgApply (if chgPermits (getChg m c) then chgSuspend m c 10 else m) c
  bayAttempt (modBay m p fun b => { b with verdict := 0, pollAt := none }) p

/-- KEY_REVOKE_REAUTH. -/
def execKeyRevokeReauth (port : Nat) (s : State) : Host.Outcome State Fault Refusal :=
  guardUnit (port < 48) s fun m => fire m (getBay m port).revokeAt fun m =>
    bayAgain (modBay m port fun b => { b with revokeAt := none, revoked := true }) port

def cmdBayKeyGet (m : Mach) (_ : Nat) (_ : List Byte) : Ans :=
  .ok m ((List.range 4).flatMap fun k =>
    let x := tget m.keys {} k
    le 1 (if x.used then 1 else 0) ++ le 3 0 ++ le 32 x.x ++ le 32 x.y)

def execBayKeyGet (slot : Nat) (s : State) := command 0x0805 slot cmdBayKeyGet s

/-! ### Configuration and status (R317, R318) -/

def cmdBayCfg (m : Mach) (_ : Nat) (p : List Byte) : Ans :=
  let q := pU p 0 1
  refuseFirst
    [((q ≠ 0xFF && (47 < q || !isBay m q)) || 16 < pU p 1 1 || !within (pU p 2 1) 1 2 || !within (pU p 4 2) 20 500
      || !within (pU p 6 2) 1 120, .outOfRange)] <|
    .ok (forAll m ((if q = 0xFF then List.range 48 else [q]).filter fun i => isBay m i) fun m i =>
      modBay m i fun b => { b with trickleNext := some [pU p 1 1, pU p 2 1, pU p 4 2, pU p 6 2] }) []

def execBayCfg (slot : Nat) (s : State) := command 0x0801 slot cmdBayCfg s

/-- BAY_REAUTH: a REJECTED bay, or one with a verified pack, makes a new attempt; the attempt count starts again. -/
def cmdBayReauth (m : Mach) (_ : Nat) (p : List Byte) : Ans :=
  let q := pU p 0 1
  refuseFirst [(47 < q || !isBay m q, .outOfRange), (!packPresent m q, .notInState)] <|
    let m := modBay m q fun b => { b with attempts := 0, failed := 0, revokeAt := none }
    .ok (if (getBay m q).st = .rejected || (getBay m q).verdict = 1 then bayAgain m q else m) []

def execBayReauth (slot : Nat) (s : State) := command 0x0807 slot cmdBayReauth s

def bayCode : BaySt → Nat
  | .empty => 0 | .detect => 1 | .link => 2 | .verify => 3 | .trickle => 4 | .ready => 5 | .charging => 6 | .rejected => 7
  | .paused => 8 | .idFault => 9

def cmdBayStatGet (m : Mach) (_ : Nat) (p : List Byte) : Ans :=
  let q := pU p 0 1
  refuseFirst [(47 < q, .outOfRange)] <|
    let b := getBay m q
    .ok m (le 1 (bayCode b.st) ++ le 1 b.verdict ++ le 1 b.attempts ++ le 1 b.keyIdx ++ b.packId
      ++ le 2 (b.record.getD 0xFFFF) ++ le 2 (if 2400 < b.idMv then 0xFFFF else b.idMv / 20) ++ le 2 b.authMs ++ le 2 b.linkErr
      ++ le 4 b.inserts ++ le 4 b.lateId)

def execBayStatGet (slot : Nat) (s : State) := command 0x0803 slot cmdBayStatGet s

def cmdBayRecordGet (m : Mach) (_ : Nat) (p : List Byte) : Ans :=
  let x := pU p 0 2
  refuseFirst [(255 < x, .outOfRange)] <|
    let r := tget m.recs {} x
    .ok m (r.packId ++ le 1 r.keyIdx ++ le 1 r.holder ++ le 2 r.inserts ++ le 4 r.lastSeen
      ++ (r.prof ++ List.replicate 40 0).take 40)

def execBayRecordGet (slot : Nat) (s : State) := command 0x0804 slot cmdBayRecordGet s

/-- BAY_RECORD_FORGET: the record is free, and its learned values go with it. -/
def cmdBayRecordForget (m : Mach) (s : Nat) (p : List Byte) : Ans :=
  let x := pU p 0 2
  refuseFirst [(!isService m s, .privilege), (255 < x, .outOfRange), (recHeld m x, .notInState)] <|
    .ok (nvmConfig (modCtx (modRec m x fun _ => {}) x fun _ => {}) 0x0804 x []) []

def execBayRecordForget (slot : Nat) (s : State) := command 0x0806 slot cmdBayRecordForget s

/-! ### PRT_CFG (R231, R232) -/

/-- A port as a payload configures it; what the port was ends, and it starts from Unattached, Disabled or as an empty bay. -/
def putPrtCfg (m : Mach) (p : List Byte) : Mach :=
  let q := pU p 0 1
  let m := if isBay m q && (getPort m q).mode ≠ pU p 1 1 then bayGone m q else m
  let m := if pU p 1 1 = 0 then stopRun m q else m
  goUnattached (modPort m q fun x =>
    { x with mode := pU p 1 1, role := pU p 2 1, rpMax := pU p 3 1, flags := pU p 4 1 }) q

/-- The port is in an Attached, AttachWait, Try or TryWait state. -/
def tcBusy (x : Port) : Bool :=
  match x.tc with
  | .attachWaitSrc | .attachedSrc | .attachWaitSnk | .attachedSnk | .trySrc | .tryWaitSnk | .trySnk | .tryWaitSrc => true
  | _ => false

def setPrtCfg (m : Mach) (p : List Byte) : Ans :=
  let q := pU p 0 1
  let topo := (getCv m q).decl.topo
  refuseFirst
    [(47 < q || 2 < pU p 1 1 || 1 < pU p 2 1 || 2 < pU p 3 1 || 3 < pU p 4 1
      || (pU p 1 1 = 2 && topo ≠ 1 && topo ≠ 2), .outOfRange),
     (tcBusy (getPort m q) || (m.svc.link ≠ 0 && m.svc.port = q), .notInState)] <|
    .ok (putPrtCfg m p) []

def cmdPrtCfg (m : Mach) (_ : Nat) (p : List Byte) : Ans := persist 0x0601 (pU p 0 1) p (setPrtCfg m p)
def execPrtCfg (slot : Nat) (s : State) := command 0x0601 slot cmdPrtCfg s

end Machine
end Sys2Proof
end

