-- ==== Sys2Proof/Machine/Reset.lean ====
section
/-! DEFINITION. Sys2Proof/Machine/Reset.lean: what a station reset leaves of each record (R382, R479 to R481, R491, R492),
and what taking the Bib does (R399, R401, R421, R471). Every field that is not named takes its reset value. -/
namespace Sys2Proof
namespace Machine

/-- The station resets of R479, in the order of LAST_RESET (R490). -/
inductive RKind where
  | por | bor | pin | swr | esc
deriving DecidableEq, Repr

/-- LAST_RESET (R490). -/
def rkCode : RKind → Nat
  | .por => 0 | .bor => 1 | .pin => 2 | .swr => 3 | .esc => 4

/-- The always-on domain is kept (R479). -/
def keepsAon (k : RKind) : Bool := k ≠ .por

/-- The CXM, the status words and the retention controller are kept (R29, R479). -/
def keepsCxm (k : RKind) : Bool := k ≠ .por && k ≠ .bor

/-- Runtime configuration, recalled configuration and the battery FET's mode are kept (R479, R491). -/
def keepsRun (k : RKind) : Bool := k = .swr || k = .esc

/-! ### One record at a time -/

/-- Clocks restart where XIN runs; the rails stay where `rails` says so; the straps are latched again but for SWR and ESC
(R33, R47, R436). `fed` says that VBOOT alone feeds VPRE, which a POR records (R51). -/
def resetDev (d : Dev) (k : RKind) (rails fed : Bool) : Dev :=
  { now := d.now, freeCtr := d.freeCtr
    mclk := d.xin, ceclk := d.xin, pwmclk := d.xin, adcclk := d.xin, estclk := d.xin, usbclk := d.xin, tchclk := d.xin
    xin := d.xin, aonclk := !keepsAon k || d.aonclk
    vpreGood := rails && d.vpreGood, vioGood := rails && d.vioGood, vcoreGood := rails && d.vcoreGood
    holdOk := rails && d.holdOk, resetPhase := true, recallDone := keepsRun k && d.recallDone
    strapsLatched := keepsRun k && d.strapsLatched, hsel := d.hsel, hadr := d.hadr, dbp := d.dbp
    bootCable := if keepsAon k then d.bootCable else rails && fed, vbootMv := if rails then d.vbootMv else 0
    aonMs := if keepsAon k then d.aonMs else 0, aonAcc := if keepsAon k then d.aonAcc else 0
    aonTick := if keepsAon k then d.aonTick else 0, aonFrac := if keepsAon k then d.aonFrac else 0 }

/-- CAUSE, FIRST, SEV, details and routing stay through PIN, SWR and ESC; fences and LIVE conditions go (R382, R383). -/
def resetBlk (w : Blk) (k : RKind) : Blk :=
  if keepsCxm k then
    { w with live := [], fence := none, resetting := false, updating := false, reactSev := 0, reactUntil := none }
  else {}

/-- The configuration of WDH that the retention memory holds (R411, R437). -/
def wdhCfgOf (b : List Byte) : WdhCfg :=
  let f := pU b 3 1
  { periodMs := pU b 0 2, win := pU b 2 1, compat := bit f 0, autostart := bit f 1, park := bit f 2 }

/-- WDH after a station reset (R412, R414): its configuration is the retained one, and MODE and AUTOSTART are those last
written, but for ESC. -/
def resetWdh (m : Mach) (k : RKind) : Wdh :=
  let w := m.wdh
  let held := match m.nvm.items.find? fun x => x.code = 0x0C01 with
    | some x => (itemData x).map wdhCfgOf
    | none => none
  let cfg : WdhCfg :=
    if k = .esc then w.cfg
    else if k = .swr then { w.cfg with compat := w.nextCompat, autostart := w.nextAutostart }
    else held.getD {}
  let lock1600 := keepsCxm k && w.lock1600
  let runs := (!cfg.compat && cfg.autostart) || lock1600
  { st := if runs then .running else .off
    close := cfg.periodMs * 1000, openAt := cfg.periodMs * 1000 * cfg.win / 8, waiting := runs
    lock := keepsAon k && w.lock, lock1600 := lock1600
    expired := keepsAon k && w.expired, early := keepsAon k && w.early, badKey := keepsAon k && w.badKey
    expiries := if keepsAon k then w.expiries else 0
    cfg := cfg, cfgKnown := keepsRun k && w.cfgKnown
    nextCompat := if k = .esc then w.nextCompat else cfg.compat
    nextAutostart := if k = .esc then w.nextAutostart else cfg.autostart }

/-- WDS is off until a holder enables it (R419); its counts run since POR (R424, R425). -/
def resetWds (w : Wds) (k : RKind) : Wds :=
  if keepsAon k then
    { faults := w.faults, badTokens := w.badTokens, rejects := w.rejects, lastMs := w.lastMs, wdCount := w.wdCount
      wdTarget := w.wdTarget }
  else {}

/-- The retention controller goes on through PIN, SWR and ESC; POR and BOR tear its write (R434, R435, R479). -/
def resetNvm (m : Mach) (k : RKind) : Mach :=
  if keepsCxm k then
    -- the command that waited for a page write has ended with the reset (R471)
    let free (w : PageWrite) : PageWrite := { w with slot := none }
    { m with nvm := { m.nvm with cur := m.nvm.cur.map free, queue := m.nvm.queue.map free, saving := none } }
  else
    let m := tearWrite m
    { m with nvm := { bytes := m.nvm.bytes, stat := m.nvm.stat, items := m.nvm.items } }

/-- The always-on values of R490 stay; the counts rise by the reset. -/
def resetPwr (m : Mach) (k : RKind) : Pwr :=
  let p := m.pwr
  let run := keepsRun k
  let base : Pwr :=
    if keepsAon k then
      { st := if p.shipLatch then .ship else .run, lastReset := rkCode k, lastWake := p.lastWake, escTimes := p.escTimes
        standbyS := p.standbyS, borCause := p.borCause, shipLatch := p.shipLatch, cutoff := p.cutoff, ferTimes := p.ferTimes
        counts := p.counts.modify (rkCode k - 1) fun n => satTo 65535 (n + 1) }
    else {}
  { base with
    wakeEn := if run then p.wakeEn else base.wakeEn
    quietAfterS := if run then p.quietAfterS else base.quietAfterS
    wakeTimerS := if run then p.wakeTimerS else base.wakeTimerS }

/-- Counters of R120 and R145 stay with the CXM, and a VBUS that a stop has left is discharged (R544); declaration, options, sets,
map and protection settings stay with the configuration. -/
def resetConv (c : Conv) (k : RKind) : Conv :=
  let x := c.ctrl
  let p := c.prot
  let base : Conv :=
    if keepsCxm k then
      { ph := tmap c.ph fun _ y => { trips := y.trips, skips := y.skips, dropped := y.dropped }
        peakPeriods := c.peakPeriods, skipPeriods := c.skipPeriods, vbd := c.vbd
        ctrl := { commits := x.commits, squashes := x.squashes, snowploughs := x.snowploughs, snowRunMax := x.snowRunMax
                  snowRun := x.snowRun, sqLate := x.sqLate, sqResidual := x.sqResidual, sqSelect := x.sqSelect, sqClamp := x.sqClamp
                  selChanges := x.selChanges }
        prot := { ovCount := p.ovCount, shortCount := p.shortCount, shedCount := p.shedCount } }
    else {}
  if keepsRun k then
    { base with
      decl := c.decl, selftest := if c.decl.topo = 0 then 0 else 1
      ctrl := { base.ctrl with cfg := x.cfgPend.getD x.cfg, sets := x.sets, map := x.pendMap.getD x.map }
      prot := { base.prot with ovPermille := p.ovPermille, ovMinMv := p.ovMinMv, uvPermille := p.uvPermille
                               uvTimeMs := p.uvTimeMs } }
  else base

/-- The path (R165, R481): SWR and ESC keep the battery FET's mode and the settings. -/
def resetPath (p : Path) (k : RKind) : Path :=
  if keepsRun k then
    { mode := p.mode, sysMinCfg := p.sysMinCfg, sysFoldCfg := p.sysFoldCfg, sysMin := p.sysMin, sysFold := p.sysFold
      pdCapMw := p.pdCapMw, vStep := p.vStep, donorPol := p.donorPol, iStep := p.iStep, diodeOfs := p.diodeOfs
      donorSoc := p.donorSoc, bootPwrW := p.bootPwrW, sysTgt := p.sysTgt, sysTgtSet := p.sysTgtSet
      storePresent := p.storePresent, storeJudge := p.storeJudge, vstsMv := p.vstsMv, sysMv := p.sysMv, auxMv := p.auxMv }
  else {}

def resetInput (x : Input) (k : RKind) : Input :=
  let base : Input := { scanSkipped := if keepsAon k then x.scanSkipped else 0 }
  if keepsRun k then
    { base with
      typ := x.typ, rank := x.rank, enable := x.enable, startPath := x.startPath, ilimMa := x.ilimMa
      vfloorMv := x.vfloorMv, vmaxMv := x.vmaxMv, presentMv := x.presentMv, stepMv := x.stepMv, periodMs := x.periodMs
      scanS := x.scanS, foc := x.foc, vehHoldS := x.vehHoldS }
  else base

/-- CHG_EN stays, and the Store's profile (R200, R491); a bay's machine begins with its pack. WIN_TRANSITIONS counts since POR
(R202). -/
def resetChg (c : Nat) (x : ChgM) (k : RKind) : ChgM :=
  let base : ChgM := { winTransitions := if keepsAon k then x.winTransitions else 0 }
  if keepsRun k then { base with prof := if c = 0 then x.prof else {}, chgEn := x.chgEn } else base

def resetAux (x : Aux) (k : RKind) : Aux :=
  if keepsRun k then
    { enable := x.enable, policy := x.policy, cls := x.cls, soc := x.soc, voutMv := x.voutMv, ilimMa := x.ilimMa, holdS := x.holdS }
  else {}

/-- Every pass is released (R481); the settings of R225 are runtime configuration. CYCLE counts since POR (R226). -/
def resetLift (x : Lift) (k : RKind) : Lift :=
  let base : Lift := { cycle := if keepsAon k then x.cycle else 0 }
  if keepsRun k then
    { base with
      ovhMw := x.ovhMw, resMw := x.resMw, effIn := x.effIn, effOut := x.effOut, bridgeMinS := x.bridgeMinS
      reclaimHardMs := x.reclaimHardMs, floorMw := x.floorMw, restoreS := x.restoreS, socRes := x.socRes
      socTaper := x.socTaper, restMargin := x.restMargin, classSet := x.classSet }
  else base

/-- A port's settings, its plug count and its CORRODED latch (R492); an attachment that the reset ends has been counted. -/
def resetPort (x : Port) (k : RKind) : Port :=
  let cor := keepsAon k && x.corroded
  let ended := x.tc = .attachedSrc || x.tc = .attachedSnk
  let base : Port :=
    { plugs := if keepsCxm k then wrap32 (x.plugs + (if ended then 1 else 0)) else 0
      checks := if keepsAon k then x.checks else 0, corroded := cor, finding := if cor then .corroded else .clean }
  if keepsRun k then { base with mode := x.mode, role := x.role, rpMax := x.rpMax, flags := x.flags } else base

/-- Key settings (R254, R258); baselines are seeded again. -/
def resetKey (x : Key) (k : RKind) : Key :=
  if keepsRun k then
    { ledDma := x.ledDma, dimPct := x.dimPct, touchEn := x.touchEn, ledEn := x.ledEn, delta := x.delta
      hostLed := x.hostLed, level := x.level }
  else {}

/-- Washdown is held in the always-on domain (R492). -/
def resetUi (u : Ui) (k : RKind) : Ui :=
  { keys := tmap u.keys fun _ x => resetKey x k
    washdown := keepsAon k && u.washdown, autoExit := keepsAon k && u.autoExit, lastFind := if keepsAon k then u.lastFind else 0 }

/-- PD settings, the record's SEQ, and TX_FAIL, which counts since POR (R294). -/
def resetSess (x : Sess) (k : RKind) : Sess :=
  if keepsRun k then
    { pdoMask := x.pdoMask, drPol := x.drPol, eprEn := x.eprEn, pmaxMw := x.pmaxMw, imaxMa := x.imaxMa, snkEpr := x.snkEpr
      snkPmax := x.snkPmax, snkVmin := x.snkVmin, snkVmax := x.snkVmax, seq := x.seq, txFail := x.txFail }
  else { seq := if keepsCxm k then x.seq else 0, txFail := if keepsAon k then x.txFail else 0 }

def resetBay (x : Bay) (k : RKind) : Bay :=
  let base : Bay := { inserts := if keepsAon k then x.inserts else 0, lateId := if keepsAon k then x.lateId else 0 }
  if keepsRun k then
    let t := x.trickleNext.getD [x.trickleCells, x.trickleChem, x.trickleMa, x.trickleMin]
    { base with trickleCells := t.getD 0 0, trickleChem := t.getD 1 1, trickleMa := t.getD 2 100, trickleMin := t.getD 3 30 }
  else base

def resetRec (x : PackRec) (k : RKind) : PackRec := if keepsCxm k then { x with holder := 0xFF } else {}

/-- A context stops and keeps what it has counted and learned while the CXM holds (R492); four counts run since POR (R353). -/
def resetCtx (x : Ctx) (k : RKind) : Ctx :=
  if keepsCxm k then
    { x with active := false, fit := none, hist := [], doneV := [], restMs := 0, stale := false, noAnchor := false
             initDue := false, lastFull := none, lastRest := none, awayKnown := x.active || x.awayKnown }
  else if keepsAon k then
    { reAnchors := x.reAnchors, fitRejects := x.fitRejects, capRejects := x.capRejects, restAborts := x.restAborts }
  else {}

def resetEst (m : Mach) (k : RKind) : Est :=
  let e := m.est
  let base : Est :=
    if keepsCxm k then { acc := e.acc, learnLost := e.learnLost, eisAborts := e.eisAborts, countAt := m.dev.now } else
      { countAt := m.dev.now }
  if keepsRun k then
    { base with
      restMin := e.restMin, dvdt := e.dvdt, slope := e.slope, noAnchorH := e.noAnchorH, restReqH := e.restReqH
      pauseAgeH := e.pauseAgeH, pauseSigma := e.pauseSigma, eisDays := e.eisDays, crate := e.crate, qNom := e.qNom
      tabs := e.tabs }
  else base

def resetThm (x : Thm) (k : RKind) : Thm := if keepsRun k then { classes := x.classes } else {}

/-- A retired ADC stays retired until POR (R83). -/
def resetAdc (a : Adc) (k : RKind) : Adc :=
  let d : Adc := {}
  { d with units := tmap d.units fun i u =>
      let o := tget a.units {} i
      if keepsAon k && o.st = .retired then o else u }

def resetGuard (g : Guard) (k : RKind) : Guard :=
  { failovers := if keepsAon k then g.failovers else 0, handovers := if keepsAon k then g.handovers else 0
    holdTimeS := if keepsRun k then g.holdTimeS else 10, afterReset := keepsCxm k, limits := g.limits }

/-- The TAP is reset by POR alone (R516); a running link has ended with LAST_FAIL 9 (R514, R515). -/
def resetSvc (x : Svc) (k : RKind) : Svc :=
  { lastFail := if x.link ≠ 0 then 9 else x.lastFail, out := x.out, tap := if keepsAon k then x.tap else 0x01 }

/-! ### The station reset -/

/-- What a reset leaves in force: the LIVE bits of a CORRODED latch (R382) and of suspended speculation (R122), SCAN_ACTIVE of the
TAP, which keeps its instruction (R516, R518), and the cause CUTOFF (R198). -/
def liveAgain (m : Mach) : Mach :=
  let m := forAll m (List.range 48) fun m p => if (getPort m p).corroded then setLive m p .corroded 3 true else m
  let m := if scanHolds m then setLive m blkGuard .scanActive 1 true else m
  let m := if m.eng.suspended then setLive m blkEng .specSuspended 6 true else m
  if m.pwr.cutoff && (getBlk m blkStore).sticky.all (fun x => x.1 ≠ codeOf .cutoff) then note m blkStore .cutoff 6 else m

/-- VBOOT alone feeds VPRE: SYS lies below it (R51, R170). -/
def vbootFeeds (m : Mach) : Bool := m.path.sysMv < m.dev.vbootMv

/-- Step 1 of R481: every running converter stops, with the pin effects of R544. -/
def stopPins (m : Mach) : Mach := forAll m ((List.range 55).filter fun k => (getCv m k).run) stopConv

/-- A station reset (R481): converters stop, passes and sessions go, and each record takes what R491 and R492 leave it. The
reset phase of 20 us follows. -/
def stationReset (m0 : Mach) (k : RKind) (rails : Bool) : Mach :=
  let fed := vbootFeeds m0
  let boot := if rails && fed then m0.path.bootSink else none
  let m := resetNvm (endLink (stopPins m0) 9) k
  let upd : Upd := { regions := m.upd.regions, ptrBank := m.upd.ptrBank }
  liveAgain
    { m with
      dev := resetDev m.dev k rails fed
      host := {}
      mbx := if keepsCxm k then m.mbx else { lost := if keepsAon k then m.mbx.lost else 0 }
      blk := tmap m.blk fun _ w => resetBlk w k
      grd := resetGuard m.grd k
      wdh := resetWdh m k
      wds := resetWds m.wds k
      pwr := resetPwr m k
      upd := upd
      svc := resetSvc m.svc k
      cnv := tmap m.cnv fun _ c => resetConv c k
      spares := if keepsRun k then m.spares else Vector.replicate 4 none
      adc := resetAdc m.adc k
      tmon := Vector.replicate 16 {}
      eng := { suspended := keepsRun k && m.eng.suspended }
      path := { resetPath m.path k with bootSink := boot }
      inp := tmap m.inp fun _ x => resetInput x k
      sto := { twin := if keepsRun k then m.sto.twin else {} }
      chg := tmap m.chg fun c x => resetChg c x k
      aux := resetAux m.aux k
      lft := resetLift m.lft k
      prt := tmap m.prt fun _ x => resetPort x k
      ui := resetUi m.ui k
      pd := tmap m.pd fun _ x => resetSess x k
      core := Vector.replicate 8 {}
      serves := Vector.ofFn fun i => i.val / 6
      bay := tmap m.bay fun _ x => resetBay x k
      keys := if keepsRun k then m.keys else Vector.replicate 4 {}
      recs := tmap m.recs fun _ x => resetRec x k
      ctx := tmap m.ctx fun _ x => resetCtx x k
      est := resetEst m k
      thm := resetThm m.thm k }

/-! ### The Bib (R394 to R401) -/

/-- Token of gate `g` at its seed (R421). -/
def wdsSeed (g : Nat) : BitVec 24 := BitVec.ofNat 24 (0x6C0000 + (g + 1))

/-- OWNER has changed: every token is reseeded, and the Slalom period runs afresh while OWNER names a processor (R421,
R423). -/
def wdsRestart (m : Mach) : Mach :=
  if !m.wds.enabled then m
  else
    { m with wds := { m.wds with
        tokens := Vector.ofFn fun g => wdsSeed g.val, passed := 0, doubled := 0
        periodAt := if m.grd.owner = 0 then none else after m (ms m.wds.periodMs) } }

/-- OWNER set to none: no processor acts as holder. -/
def dropBib (m : Mach) : Mach :=
  let m := { m with grd := { m.grd with owner := 0 } }
  wdsRestart (forAll m [0, 1] fun m a => modProc m a fun x => { x with actsHolder := false })

/-- Guard-only hold (R399): GUARD_HOLD at severity 7 on block 0x7A; HOLD_TIME begins. -/
def enterHold (m : Mach) : Mach :=
  if m.grd.hold then m
  else
    -- R297: a Request that awaits Lift is rejected, and the offer follows R269
    let m := note { m with grd := { m.grd with hold := true, holdAt := after m (sec m.grd.holdTimeS) } } blkGuard .guardHold 7
    forAll m ((List.range 48).filter fun p => (getPd m p).pendReq.isSome && isSource m p) fun m p =>
      sendCaps (rejectReq m p) p none

/-- Parked ports return through ordinary admission, with Source_Capabilities, and charging resumes, once neither the hold
nor a PARK profile parks them (R401, R417). -/
def unparkAll (m : Mach) : Mach :=
  if m.grd.holdParked || m.grd.wdhPark then m
  else
    let ports := m.grd.parkedPorts
    let m := { m with grd := { m.grd with parkedPorts := [], parkNext := none, parkAt := none } }
    let m := forAll m ports offerAgain
    forAll m (List.range 49) chgApply

/-- The work a new holder finds in the journal (R471): a command begun and not answered is abandoned; after a station reset
so is one answered ACCEPTED. Commands accepted and not begun wait. -/
def takeJournal (m : Mach) : Mach :=
  let begun := m.mbx.accepted.filter fun s => (getSlot m s).deferred
  let m := forAll m begun abandonSlot
  if m.grd.afterReset then
    let r := m.mbx.ring.map fun e =>
      if e.st = .executing ∧ e.answered then { e with st := .abandoned, doneMs := nowMs m } else e
    { m with mbx := flushWaiting { m.mbx with ring := r } 64 }
  else m

/-- A processor takes the Bib: the journal first, then the frozen or mirrored grants are the start of its first Lift cycle
at the next 1 ms boundary (R229, R396, R401). -/
def takeBib (m : Mach) (a : Nat) : Mach :=
  let m := takeJournal m
  let parked := m.grd.holdParked
  let m := { m with grd := { m.grd with
      owner := a + 1, hold := false, holdParked := false, holdAt := none, afterReset := false, failingProc := none
      haltAckBy := none, handover := none } }
  let m := modProc m a fun x => { x with actsHolder := true }
  let m := { m with lft := { m.lft with cycleAt := some ((m.dev.now / ms 1 + 1) * ms 1) } }
  let m := wdsRestart m
  if parked then unparkAll m else m

/-! ### Configuration images (R493 to R495) -/

/-- Index of a kind's region in a bank. -/
def regionIdx (kind bank : Nat) : Nat := 4 * bank + (kind - 1)
def regionOf (m : Mach) (kind bank : Nat) : Region := tget m.upd.regions {} (regionIdx kind bank)
def modRegion (m : Mach) (kind bank : Nat) (f : Region → Region) : Mach :=
  { m with upd := { m.upd with regions := tupd m.upd.regions (regionIdx kind bank) f } }
def ptrOf (m : Mach) (kind : Nat) : Nat := tget m.upd.ptrBank 0 (kind - 1)

/-- ARB_VERSION (R440). -/
def arbVersion (m : Mach) : Nat := (ctrRead m.nvm 1).1

/-- A region boots: its container passed every check but INCOMPATIBLE, and its ARB still stands (R494). -/
def regionBoots (m : Mach) (kind bank : Nat) : Bool :=
  let r := regionOf m kind bank
  r.bootable && arbVersion m ≤ r.arb

/-- VERSION of the release this manual describes, for a region as shipped (R457). -/
def factoryVersion (kind : Nat) : Nat :=
  if kind = 1 then Config.fwMajor * 2 ^ 24 + Config.fwMinor * 2 ^ 16 + Config.fwBuild.toNat
  else if kind = 2 then Config.pdFwMajor * 2 ^ 24 + Config.pdFwMinor * 2 ^ 16
  else if kind = 3 then Config.estFwMajor * 2 ^ 24 + Config.estFwMinor * 2 ^ 16
  else 0

/-- VERSION of a region; 0 where it does not boot (R497). -/
def regionVersion (m : Mach) (kind bank : Nat) : Nat :=
  if !regionBoots m kind bank then 0
  else
    let r := regionOf m kind bank
    if r.bytes.isEmpty then factoryVersion kind else r.version

/-- A PD core that runs the image of a bank (R494, R296). -/
def coreFrom (m : Mach) (bank : Nat) : Core :=
  let v := regionVersion m 2 bank
  { bank := bank, fwMajor := v / 2 ^ 24 % 256, fwMinor := v / 2 ^ 16 % 256 }

/-- The bank a kind starts from: the pointer's, the other one where that fails, none where both fail (R494). -/
def bootBank (m : Mach) (kind : Nat) : Option Nat :=
  let b := ptrOf m kind
  if regionBoots m kind b then some b else if regionBoots m kind (1 - b) then some (1 - b) else none

/-- The table a payload of kind 4 holds (R501): ceilings of VCS, SYSS and AUXS, SYS_CRIT_HI, SYS_CRIT_LO, then one peak
maximum per channel, 4 bytes each (log entry 21). -/
def limitsOf (b : List Byte) : Limits :=
  { vcs := pU b 0 4, syss := pU b 4 4, auxs := pU b 8 4, critHi := pU b 12 4, critLo := pU b 16 4
    peaks := (List.range 256).map fun c => pU b (20 + 4 * c) 4 }

/-- The limits table the Guard loads: the region's, or the defaults of R393 where it holds none that passes. -/
def loadLimits (m : Mach) : Mach :=
  let t : Limits := match bootBank m 4 with
    | some b =>
      let r := regionOf m 4 b
      if r.bytes.isEmpty then {} else limitsOf (r.bytes.drop 192)
    | none => {}
  { m with grd := { m.grd with limits := t } }

end Machine
end Sys2Proof
end

