-- ==== Sys2Proof/Machine/Guard.lean ====
section
/-! DEFINITION. Sys2Proof/Machine/Guard.lean: fences by command and their release (R384 to R387, R502), the Guard limits
and the junction shutdown (R370, R371, R393), consequence windows (R392), the Bib, failover, handover and Guard-only hold
(R394 to R401, R542), die links and clocks (R20, R21, R31 to R35, R402). -/
namespace Sys2Proof
namespace Machine

/-! ### Fence details (R384) -/

/-- The 8 bytes of a detail entry: bit 2 of FLAGS says that its cause is LIVE now. -/
def detailBytes (m : Mach) (b : Nat) (d : Detail) : List Byte :=
  let live := (liveOf m b).any fun x => x.1 = d.code
  le 1 d.code ++ le 1 (flag d.consequential 0 + flag d.merged 1 + flag live 2) ++ le 1 d.origin ++ le 1 d.count ++ le 4 d.timeMs

/-- FLT_DETAIL_GET. -/
def cmdFltDetailGet (m : Mach) (_ : Nat) (p : List Byte) : Ans :=
  let b := pU p 0 1
  refuseFirst [(!isBlock b, .outOfRange)] <|
    let w := getBlk m b
    .ok m (le 4 (statusWord m b) ++ le 4 w.firstMs ++ le 1 w.firstTick ++ le 1 w.maxSev ++ le 2 w.occur ++ le 2 w.merged
      ++ [0] ++ le 1 w.details.length ++ w.details.flatMap (detailBytes m b))

def execFltDetailGet (slot : Nat) (s : State) := command 0x0B01 slot cmdFltDetailGet s

/-! ### Release (R385, R386) -/

/-- BLOCK names a block that can be fenced. -/
def fenceable (b : Nat) : Bool := b < 0x68 || (0x70 ≤ b && b < 0x78) || b = 0x7F || b = 0x80 || b = 0x84 || b = 0x85

/-- An input's converter asked to start where the input takes part. -/
def inputGo (m : Mach) (i : Nat) : Mach :=
  if inputLive m i && (getInp m i).stopped = 0 then requestStart m (48 + i) else m

/-- A port whose fence has ended: a source restarts from vSafe5V, a sink sends Hard Reset and negotiates afresh, a bay's
machine begins a new cycle (R126, R371, R385). -/
def portAgain (m : Mach) (p : Nat) : Mach :=
  match (getPort m p).tc with
  | .attachedSrc => sourceBegin m p
  | .attachedSnk =>
    let m := modCv m p fun c => { c with reverse := true }
    let m := { m with path := { m.path with donors := m.path.donors.filter (fun q => q ≠ p) ++ [p] } }
    requestStart (hardSend (modPd m p fun x => { x with dfp := false }) p) p
  | .bay =>
    let m := modChg m (p + 1) fun x => { x with newCycle := true }
    if (getBay m p).st = .trickle then requestStart m p else m
  | _ => m

/-- Fences of the TMON groups of some channels: the mask of R502 set or ended. -/
def maskGroups (m : Mach) (chs : List Nat) (until_ : Option Nat) : Mach :=
  forAll m (chs.map tmonOf) fun m j => modTmon m j fun t => { t with maskUntil := until_ }

/-- Channels of the declared phases of a converter. -/
def convChans (m : Mach) (k : Nat) : List Nat :=
  (List.range (declaredPhases (getCv m k).decl)).map fun i => phaseChan m k i

/-- The converter behind a block: PCp for a port's. -/
def convOf (b : Nat) : Nat := if b < 0x30 then b else b - 0x30

/-- A phase out of its fence: it waits for the self-test, at once on a stopped converter (R385). -/
def releasePhase (m : Mach) (k i : Nat) : Mach :=
  let m := modCv m k fun c =>
    { c with ph := tupd c.ph i fun y => { y with st := .pending, cause := 0 }
             selftest := if c.run then c.selftest else max c.selftest 1 }
  maskGroups m [phaseChan m k i] none

/-- AC after its fence: it starts again with its pre-bias check and soft start where it is wanted (R121, R204, R385). -/
def auxAgain (m : Mach) : Mach :=
  let m := auxEval m
  if m.aux.wants then requestStart m 54 else m

/-- A block's own fence ends (R385). -/
def releaseBlock (m : Mach) (b : Nat) : Mach :=
  let clr (m : Mach) (b : Nat) : Mach := modBlk m b fun w => { w with fence := none, reactUntil := none }
  if b < 0x67 then
    let k := convOf b
    let m := maskGroups m (convChans m k) none
    if k < 48 then portAgain (clr (clr m k) (cnvBlk k)) k
    else if k < 54 then inputGo (ladderApply (rankRecompute (clr m b))) (k - 48)
    else auxAgain (clr m b)
  else if b = blkStore then clr m b
  else
    -- a PD core reloads from its image; a port that no sibling took is served again (R291, R385)
    let k := b - 0x70
    match bootBank m 2 with
    | none => m
    | some bank =>
      let m := modCore (clr m b) k fun _ => coreFrom m bank
      forAll m (corePorts m k) fun m p => if (getPd m p).pe = .noPd then takeOver m p k else m

/-- The cause of a fence is still present: junction shutdown, a stopped clock, or a LIVE bit of its own. -/
def causeLive (m : Mach) (b code : Nat) : Bool :=
  (code = codeOf .tsd && m.grd.tsd) || (code = codeOf .clkLoss && m.grd.clkLost ≠ 0)
    || (code ≠ codeOf .storeRemoved && isLive m b code)

/-- Why RELEASE is refused, in the order of R541; OK where it is not. -/
def releaseStatus (m : Mach) (b u : Nat) : Status :=
  let conv := 0x30 ≤ b && b < 0x67
  let phase := conv && u ≠ 0xFF
  let k := b - 0x30
  let i := tget (getCv m k).ph {} u
  if !fenceable b || (phase && declaredPhases (getCv m k).decl ≤ u) || (!conv && u ≠ 0xFF) then .outOfRange
  else if 0x7F ≤ b then .notInState
  else if phase then (if i.st ≠ .fenced || causeLive m b i.cause then .notInState else .ok)
  else match (getBlk m b).fence with
    | none => .notInState
    | some c =>
      if causeLive m b c || c = codeOf .corroded || (b < 0x30 && (getPort m b).corroded) then .notInState else .ok

/-- A release: of a phase where UNIT names one. -/
def releaseUnit (m : Mach) (b u : Nat) : Mach :=
  if 0x30 ≤ b && b < 0x67 && u ≠ 0xFF then releasePhase m (b - 0x30) u else releaseBlock m b

/-- FLT_CLEAR (R386). -/
def cmdFltClear (m : Mach) (_ : Nat) (p : List Byte) : Ans :=
  let b := pU p 0 1
  let a := pU p 1 1
  let u := pU p 2 1
  let st := if bit a 0 then releaseStatus m b u else .ok
  refuseFirst [(3 < a || !isBlock b || st = .outOfRange, .outOfRange), (st ≠ .ok, .notInState)] <|
    let m := if bit a 0 then releaseUnit m b u else m
    .ok (if bit a 1 then Machine.causeClear m b 0xFF else m) []

def execFltClear (slot : Nat) (s : State) := command 0x0B02 slot cmdFltClear s

/-! ### Fences by command (R387, R502) -/

/-- A unit fenced with a cause and severity. -/
def fenceUnit (m : Mach) (b u : Nat) (c : Cause) (sev : Nat) : Mach :=
  if b < 0x67 then
    let k := convOf b
    if 0x30 ≤ b && u ≠ 0xFF then fencePhase m k u c sev
    else
      let m := note m (cnvBlk k) c sev
      fenceConv m k (codeOf c)
  else if b = blkStore then storeFence (note m b c sev) c
  else coreFence (note m b c sev) (b - 0x70) (codeOf c)

/-- The unit reads fenced. -/
def unitFenced (m : Mach) (b u : Nat) : Bool :=
  if 0x30 ≤ b && b < 0x67 && u ≠ 0xFF then
    (tget (getCv m (b - 0x30)).ph {} u).st = .fenced || (getBlk m b).fence.isSome
  else (getBlk m b).fence.isSome

/-- FLT_FENCE: the TMON groups of the unit are masked for 300 s (R502). -/
def cmdFltFence (m : Mach) (_ : Nat) (p : List Byte) : Ans :=
  let b := pU p 0 1
  let u := pU p 1 1
  let conv := 0x30 ≤ b && b < 0x67
  refuseFirst
    [(!(b < 0x68 || (0x70 ≤ b && b < 0x78)) || (u ≠ 0xFF && (!conv || declaredPhases (getCv m (b - 0x30)).decl ≤ u)),
       .outOfRange),
     (unitFenced m b u, .fenced)] <|
    let m := if b < 0x67 then
        maskGroups m (if conv && u ≠ 0xFF then [phaseChan m (b - 0x30) u] else convChans m (convOf b)) (after m (sec 300))
      else m
    .ok (fenceUnit m b u .cmd 5) []

def execFltFence (slot : Nat) (s : State) := command 0x0B03 slot cmdFltFence s

/-! ### Guard limits (R393) -/

/-- The ceiling of a converter's own node. -/
def hwCeil (m : Mach) (k : Nat) : Nat :=
  let l := m.grd.limits
  if k = 54 then l.auxs else if k < 48 && !(getCv m k).reverse then l.vcs else l.syss

/-- HW_OV: two consecutive samples of the converter's own loop stream above its ceiling. -/
def execHwOv (conv mv1 mv2 : Nat) (s : State) : Host.Outcome State Fault Refusal :=
  guardUnit (conv < 55) s fun m =>
    when ((getCv m conv).run && hwCeil m conv < mv1 && hwCeil m conv < mv2) m fun m => fault m conv .hwOv 5

/-- SYS_CRIT: above SYS_CRIT_HI the input and sinking converters stop and wait; below SYS_CRIT_LO, while a sourcing port
converter or AC runs, those stop and R167 governs their restart. No window masks it. -/
def sysCrit (m : Mach) (sys : Nat) : Mach :=
  let m := { m with path := { m.path with sysMv := sys } }
  if m.grd.limits.critHi < sys then
    let m := note m blkGuard .sysCrit 7
    let ks := (runningInputs m).map (48 + ·) ++ runningSinks m
    let m := forAll m ks stopRun
    { m with grd := { m.grd with sysCritHi := true, restarts := m.grd.restarts ++ ks.filter fun k => !m.grd.restarts.contains k } }
  else if sys < m.grd.limits.critLo && (!(runningSources m).isEmpty || (getCv m 54).run) then
    let m := note m blkGuard .sysCrit 7
    let ran := runningSources m
    let m := forAll m (ran ++ [54]) stopRun
    let m := { m with path := { m.path with restartWait := true
                                            lowRestart := m.path.lowRestart.filter (fun p => !ran.contains p) ++ ran } }
    let m := forAll m (ran.filter fun p => !isBay m p) lowSignal
    { m with aux := { m.aux with running := false } }
  else m

def execSysCrit (sysMv : Nat) (s : State) : Host.Outcome State Fault Refusal :=
  guardRead true (sysRated sysMv) s fun m => sysCrit m sysMv

/-- SYS_CRIT_RECOVER: SYSS below 59 000 mV for 10 ms; the stopped converters restart under R126. -/
def sysCritRecover (m : Mach) (sys : Nat) : Mach :=
  let ks := m.grd.restarts
  let m := { m with path := { m.path with sysMv := sys }
                    grd := { m.grd with sysCritHi := false, restarts := [] } }
  forAll m ks fun m k => if 48 ≤ k then inputGo m (k - 48) else if (getPort m k).tc = .attachedSnk then requestStart m k else m

def execSysCritRecover (sysMv : Nat) (s : State) : Host.Outcome State Fault Refusal :=
  guardRead true (sysRated sysMv) s fun m =>
    when (m.grd.sysCritHi && !m.grd.tsd && sysMv < 59000) m fun m => sysCritRecover m sysMv

/-- SYS_UV1 (R391): SYSS below SYS_FOLD for 100 us, recorded on block 0x67 at severity 2. -/
def execSysUv1 (sysMv : Nat) (s : State) : Host.Outcome State Fault Refusal :=
  guardRead true (sysRated sysMv) s fun m => when (sysMv < m.path.sysFold) m fun m =>
    (detectDep { m with path := { m.path with sysMv := sysMv } } .sysUv1 blkStore .sysUv1 2 0).1

/-- SYS_RECOVER (R167, R205, R393, R446): SYS at or above SYS_FOLD for 1 s; the ports restart at vSafe5V, and AC. -/
def sysRecover (m : Mach) (sys : Nat) : Mach :=
  if !(m.path.sysLow || m.path.restartWait) || sys < m.path.sysFold then m
  else
    let l := m.path.lowRestart
    let w := m.path.warnRestart
    let m := { m with path := { m.path with sysLow := false, restartWait := false, lowRestart := [], warnRestart := []
                                            sysMv := sys } }
    let m := forAll m l fun m p =>
      let m := modPd m p fun x => if x.pe = .hardReset then { x with pe := .startup } else x
      if attachedTypeC m p || isBay m p then requestStart m p else m
    let m := forAll m w fun m k => if k < 48 then portAgain m k else if k < 54 then inputGo m (k - 48) else m
    let m := auxEval m
    if m.aux.enable && auxPolicy m then auxGrant m else m

def execSysRecover (sysMv : Nat) (s : State) : Host.Outcome State Fault Refusal :=
  guardRead true (sysRated sysMv) s fun m => sysRecover m sysMv

/-! ### Windows (R392) -/

/-- The ports whose detectors a window covers. -/
def windowPorts (w : Window) : List Nat :=
  match w.kind with
  | .port => [w.unit]
  | .pdCore => w.ports
  | .die => (List.range 24).map (24 * w.unit + ·)
  | _ => []

/-- PD timers that expired inside a window run again from its end with their full length. -/
def rearmPd (m : Mach) (p : Nat) : Mach :=
  let again (t : Option Nat) (len : Nat) : Option Nat := if due m t then after m len else t
  modPd m p fun x =>
    { x with senderAt := again x.senderAt tSenderResponse, psTransAt := again x.psTransAt (tPSTransition x.epr)
             noRespAt := again x.noRespAt tNoResponse, srcKeepAt := again x.srcKeepAt tSourceEprKeepAlive
             ppsAt := again x.ppsAt tPPSTimeout, txAt := again x.txAt tReceive }

/-- WINDOW_END: the block's oldest window ends; dwells start from 0. -/
def windowEnd (m : Mach) (origin : Nat) : Mach :=
  match m.grd.windows.find? fun w => w.origin = origin with
  | none => m
  | some w =>
    let m := advanceTo m w.endAt
    let m := { m with grd := { m.grd with windows := m.grd.windows.erase w } }
    forAll m (windowPorts w) fun m p => rearmPd (modProt m p fun x => { x with uvRun := 0 }) p

def execWindowEnd (origin : Nat) (s : State) : Host.Outcome State Fault Refusal :=
  guardUnit (isBlock origin) s fun m => windowEnd m origin

/-! ### Junction shutdown (R370, R371) -/

/-- The declared converters. -/
def declaredConvs (m : Mach) : List Nat := (List.range 55).filter fun k => (getCv m k).decl.topo ≠ 0

/-- TSD: every converter fenced; the words of every declared converter and of every port that is not off read FENCED; sources
let the sink see a detach; sinks keep their Rd; the battery FET keeps its mode. -/
def tsdAct (m : Mach) : Mach :=
  let again : Bool := match m.grd.tsdReleased with
    | some t => m.dev.now < t + sec 60
    | none => false
  let ks := declaredConvs m
  let ports := (List.range 48).filter fun p => (getPort m p).mode ≠ 0
  let ran := (List.range 55).filter fun k => (getCv m k).run
  let m := forAll m ks fun m k => fenceConv (setLive (note m (cnvBlk k) .tsd 7) (cnvBlk k) .tsd 7 true) k (codeOf .tsd)
  let m := forAll m (ports.filter fun p => !ks.contains p) fun m p =>
    markFence (setLive (note m p .tsd 7) p .tsd 7 true) p (codeOf .tsd)
  let m := forAll m ports fun m p =>
    match (getPort m p).tc with
    | .attachedSrc => errorRecovery m p
    | _ => m
  let m := setLive (note (note m blkGuard .tsd 7) blkThm .tsd 7) blkGuard .tsd 7 true
  { m with thm := { m.thm with tsdSeen := true }
           grd := { m.grd with tsd := true, tsdHeld := again
                               restarts := (ran.filter fun k => 48 ≤ k ∧ k < 54) ++ [54] ++ ran.filter fun k => k < 48
                               restartAt := none } }

def execTsd (sensor : Nat) (s : State) : Host.Outcome State Fault Refusal :=
  guardUnit (sensor < 24) s fun m => when (!m.grd.tsd) m tsdAct

/-- TSD_RELEASE: the fences end and the converters restart, one per 1 ms; a second shutdown within 60 s of a release leaves
them to FLT_CLEAR. -/
def tsdRelease (m : Mach) : Mach :=
  let m := setLive m blkGuard .tsd 7 false
  let m := forAll m (List.range 0x67) fun m b => setLive m b .tsd 7 false
  let m := { m with grd := { m.grd with tsd := false, tsdReleased := some m.dev.now } }
  if m.grd.tsdHeld then { m with grd := { m.grd with restarts := [] } }
  else
    let code := codeOf .tsd
    let ports := (List.range 48).filter fun p => (getBlk m p).fence = some code
    let m := forAll m (List.range 0x67) fun m b =>
      modBlk m b fun w => if w.fence = some code then { w with fence := none } else w
    let m := ladderApply (rankRecompute m)
    let m := if (getChg m 0).st ≠ .off then chgEnter m 0 .check else m
    let m := forAll m ports fun m p =>
      let x := getPort m p
      if x.tc = .attachWaitSrc && x.debounceAt.isNone && x.checkEndAt.isNone then startCheck m p 1
      else if x.tc = .bay then modChg m (p + 1) fun c => { c with newCycle := true }
      else m
    let l := m.grd.restarts.filter (fun k => 48 ≤ k) ++ ports
    { m with grd := { m.grd with restarts := l, restartAt := some m.dev.now } }

def execTsdRelease (s : State) : Host.Outcome State Fault Refusal :=
  next s <| when s.m.grd.tsd s.m tsdRelease

/-- TSD_RESTART: the next converter of the list. -/
def tsdRestart (m : Mach) : Mach :=
  match m.grd.restarts with
  | [] => { m with grd := { m.grd with restartAt := none } }
  | k :: l =>
    let m := { m with grd := { m.grd with restarts := l, restartAt := if l.isEmpty then none else after m (ms 1) } }
    if k < 48 then portAgain m k else if k < 54 then inputGo m (k - 48) else auxGrant m

def execTsdRestart (s : State) : Host.Outcome State Fault Refusal :=
  next s <| fire s.m s.m.grd.restartAt tsdRestart

/-! ### Processors (R385, R397, R542) -/

def procBlk (a : Nat) : Nat := 0x7F + a

/-- A PPR of one processor: its fence ends, it verifies and starts its image and rejoins as standby (R479, R494). -/
def pprDo (m : Mach) (a : Nat) : Mach :=
  let m := modBlk m (procBlk a) fun w => { w with fence := none }
  let m := modProc m a fun _ => { running := (bootBank m 1).isSome && m.dev.mclk }
  { m with pwr := { m.pwr with counts := m.pwr.counts.modify 4 fun n => satTo 65535 (n + 1) } }

/-- The other processor runs as a standby in sync. -/
def standbyReady (m : Mach) (a : Nat) : Bool :=
  let x := getProc m (1 - a)
  x.running && !x.halted && x.sync

/-- An update in progress fails with a verdict, which is its entry's DETAIL (R496, log entry 22). -/
def updFail (m : Mach) (verdict : Nat) : Mach :=
  let m := closeEntry m m.upd.seq (statusCode .notInState) verdict
  { m with upd := { m.upd with st := .failed, verdict := verdict, timerAt := none, coresLeft := [], coresDone := []
                               moveBack := [] } }

/-- A policy update is past its verification and not yet done. -/
def policyUpd (m : Mach) : Bool := m.upd.kind = 1 && (m.upd.st = .applying || m.upd.st = .probation)

/-- A failover strikes a policy update: a standby that boots the staged image returns to the pointer's; a new holder in
probation loses it, and the staged region no longer boots (R498, R506). -/
def updFailover (m : Mach) (h : Nat) : Mach :=
  if !policyUpd m then m
  else if m.upd.st = .probation && m.upd.step ≠ 4 then m
  else if m.upd.st = .probation then
    updFail (modRegion m 1 (1 - ptrOf m 1) fun r => { r with bootable := false }) 10
  else updFail (pprDo m (1 - h)) 9

/-- The cause that a failover records. -/
def failCause : FailCause → Cause
  | .wdsMissed => .wdsMissed
  | .wdsDouble => .wdsDouble
  | .eccUnc => .eccUnc
  | .exception | .procFence => .exception

/-- The second failure within 1 s of a failover: ESC (R397, R479, R485). A third within 10 min of the first starts the
other bank's firmware; a further one halts both processors. A probation in progress has failed (R506). -/
def escReset (m : Mach) : Mach :=
  let recent := m.pwr.escTimes.filter fun t => nowMs m < t + 600000
  let times := recent ++ [nowMs m]
  let m := if policyUpd m && m.upd.st = .probation && m.upd.step = 4 then
      updFail (modRegion m 1 (1 - ptrOf m 1) fun r => { r with bootable := false }) 10 else m
  let m := { m with pwr := { m.pwr with escTimes := times } }
  let m := stationReset m .esc true
  if 4 ≤ times.length then { m with grd := { m.grd with escHalt := true } } else m

/-- FAILOVER (R397): OWNER goes to none, and the old holder is asked to halt. -/
def failover (m : Mach) (c : FailCause) : Mach :=
  match holder m with
  | none => m
  | some h =>
    let quick : Bool := match m.grd.lastFailover with
      | some t => m.dev.now < t + sec 1
      | none => false
    if quick then escReset m
    else
      let m := note m (procBlk h) (failCause c) 5
      let m := markFence m (procBlk h) (codeOf (failCause c))
      let m := match m.grd.handover with
        | some q => if q = 0 then m else closeEntry m q (statusCode .notInState) 2
        | none => m
      let m := updFailover m h
      let m := modProc m h fun x => { x with sync := false }
      let m := dropBib m
      { m with grd := { m.grd with handover := none, failingProc := some h, haltAckBy := after m 20000 } }

def execFailover (cause : FailCause) (s : State) : Host.Outcome State Fault Refusal :=
  next s (failover s.m cause)

/-- The old holder has stopped: a standby in sync takes the Bib, or Guard-only hold begins (R397, R399). -/
def moveBib (m : Mach) (h : Nat) : Mach :=
  let m := { m with grd := { m.grd with failingProc := none, haltAckBy := none } }
  if standbyReady m h then
    let m := { m with grd := { m.grd with failovers := satTo 255 (m.grd.failovers + 1), lastFailover := some m.dev.now } }
    takeBib m (1 - h)
  else enterHold m

/-- HALT_ACK: the automatic PPR follows 100 ms later (R385). -/
def execHaltAck (s : State) : Host.Outcome State Fault Refusal :=
  next s <| match s.m.grd.failingProc with
    | none => s.m
    | some h =>
      let m := modProc s.m h fun x => { x with halted := true, pprAt := after s.m (ms 100) }
      moveBib m h

/-- HALT_TIMEOUT: merged into the processor's fence; PPR is forced. -/
def execHaltTimeout (s : State) : Host.Outcome State Fault Refusal :=
  next s <| match s.m.grd.failingProc with
    | none => s.m
    | some h => fire s.m s.m.grd.haltAckBy fun m =>
      let m := modBlk m (procBlk h) fun w => blkRecord w (codeOf .haltTimeout) 5 (nowMs m) m.dev.aonTick true
      moveBib (pprDo m h) h

/-- PPR_AUTO (R385). -/
def execPprAuto (proc : Nat) (s : State) : Host.Outcome State Fault Refusal :=
  guardUnit (proc < 2) s fun m => fire m (getProc m proc).pprAt fun m => pprDo m proc

/-- BIB_HANDOVER (R396). -/
def cmdBibHandover (m : Mach) (s : Nat) (_ : List Byte) : Ans :=
  let h := (holder m).getD 0
  refuseFirst
    [(!standbyReady m h || m.grd.handover.isSome || m.grd.failingProc.isSome || policyUpd m
        || (m.upd.kind = 1 && m.upd.st = .verifying), .notInState)] <|
    .accepted { m with grd := { m.grd with handover := some (getSlot m s).jseq } }

def execBibHandover (slot : Nat) (s : State) := command 0x0B04 slot cmdBibHandover s

/-- HANDOVER_OWNER_MOVE (R396 steps 3 and 4, R498 step 3): the Bib moves if the standby's SYNC still stands. -/
def handoverMove (m : Mach) : Mach :=
  match holder m, m.grd.handover with
  | some h, some q =>
    if standbyReady m h then
      let m := if q = 0 then m else closeEntry m q 0 0
      let m := { m with grd := { m.grd with handovers := satTo 255 (m.grd.handovers + 1) } }
      let m := modProc m h fun x => { x with sync := false, actsHolder := false }
      let m := takeBib m (1 - h)
      if q = 0 then
        { m with upd := { m.upd with st := .probation, step := 4, former := h + 1, timerAt := after m (sec 60) } }
      else m
    else
      let m := { m with grd := { m.grd with handover := none } }
      if q = 0 then updFail (pprDo m (1 - h)) 9 else closeEntry m q (statusCode .notInState) 1
  | _, _ => m

def execHandoverOwnerMove (s : State) : Host.Outcome State Fault Refusal := next s (handoverMove s.m)

/-- SYNC_SET (R542, R398): a running standby; in a hold the Guard gives it the Bib (R401). -/
def syncSet (m : Mach) (a : Nat) : Mach :=
  let x := getProc m a
  if !x.running || x.halted || m.grd.owner = a + 1 || (getBlk m (procBlk a)).fence.isSome || !m.dev.mclk || m.grd.escHalt then m
  else
    let m := modProc m a fun x => { x with sync := true }
    if m.grd.hold && m.grd.failingProc.isNone then takeBib m a
    else if m.upd.kind = 1 && m.upd.st = .applying && m.upd.step = 2 && x.image = 1 then
      -- R498 step 3: the Bib moves as in a handover
      { m with upd := { m.upd with step := 3, timerAt := none }, grd := { m.grd with handover := some 0 } }
    else m

def execSyncSet (proc : Nat) (s : State) : Host.Outcome State Fault Refusal :=
  guardUnit (proc < 2) s fun m => syncSet m proc

/-! ### Control-plane writes (R394) -/

/-- The converters' halves of a write. -/
def cpIndexOk : CpWrite → Bool
  | .ref k j _ => k < 55 && j < 4
  | .coefSet k n _ _ _ _ _ => k < 55 && n < 8
  | .map k _ => k < 55
  | .loopOpt k _ _ => k < 55
  | .fence b _ | .release b _ => isBlock b
  | .grant h _ => h < 50
  | .pdTarget p _ _ => p < 48
  | .chargeRef c _ => c < 49
  | .sysTarget _ | .auxRef _ _ | .limitsCommit => true

/-- The tables swap in one GDCLK cycle (R501); an update's commit completes it. Where the Bib has moved since the table was
prepared, it is to be prepared again. -/
def limitsSwap (m : Mach) : Mach :=
  match m.grd.shadow with
  | none => m
  | some t =>
    if m.upd.former ≠ m.grd.owner then { m with grd := { m.grd with shadow := none }, upd := { m.upd with step := 1 } }
    else { m with grd := { m.grd with limits := t, shadow := none }, upd := { m.upd with step := 3 } }

/-- The effect of a control-plane write of the holder. -/
def cpApply (m : Mach) : CpWrite → Mach
  | .ref k j v => setRef m k j v
  | .coefSet k n ws dmin dmax md rt =>
    modCtrl m k fun c => { c with sets := tupd c.sets n fun _ => { coef := ws, dmin := dmin, dmax := dmax, mode := md, rate := rt } }
  | .map k es => if (getCv m k).run then modCtrl m k fun c => { c with pendMap := some es } else modCtrl m k fun c => { c with map := es }
  | .loopOpt k sp pr =>
    modCtrl m k fun c =>
      let o := { (c.cfgPend.getD c.cfg) with specEn := sp, predict := pr }
      if (getCv m k).run then { c with cfgPend := some o } else { c with cfg := o }
  | .fence b u => if (b < 0x68 || (0x70 ≤ b && b < 0x78)) && !unitFenced m b u then fenceUnit m b u .cmd 5 else m
  | .release b u => if releaseStatus m b u = .ok then releaseUnit m b u else m
  | .grant h mw => modHold m h fun x => { x with grant := mw, deliver := true }
  | .pdTarget p mv ma => setRef (setRef m p 0 mv) p 1 ma
  | .chargeRef c ma =>
    let m := modChg m c fun x => { x with iNow := ma }
    if c = 0 then ladderApply m else setRef m (c - 1) 1 ma
  | .sysTarget mv => ladderApply { m with path := { m.path with sysTgt := mv, sysTgtSet := true } }
  | .auxRef mv ma => setRef (setRef m 54 0 mv) 54 1 ma
  | .limitsCommit => limitsSwap m

/-- CONTROL_PLANE_WRITE: judged against OWNER in the cycle it lands; a non-holder's is discarded, and AUTH_REJECT recorded in
the writer's own word. -/
def execControlPlaneWrite (proc : Nat) (w : CpWrite) (s : State) : Host.Outcome State Fault Refusal :=
  guardUnit (proc < 2 && cpIndexOk w) s fun m =>
    if m.grd.owner = proc + 1 then cpApply m w else note m (procBlk proc) .authReject 1

/-! ### Guard-only hold (R399 to R401) -/

/-- The parking walk begins (R400 step 1). -/
def parkStart (m : Mach) : Mach := { m with grd := { m.grd with parkNext := some 0, parkAt := some m.dev.now } }

/-- HOLD_TIME_EXPIRE: parked; the bays' and the Store's charge references go to 0, and the battery FET to DIODE. -/
def holdTimeExpire (m : Mach) : Mach :=
  let m := parkStart { m with grd := { m.grd with holdAt := none, holdParked := true } }
  let m := forAll m (List.range 49) chgApply
  if m.path.mode = .on then setMode m .diode else m

def execHoldTimeExpire (s : State) : Host.Outcome State Fault Refusal :=
  next s <| fire s.m s.m.grd.holdAt fun m => when m.grd.hold m holdTimeExpire

/-- A sourcing port with a contract above 5 V. -/
def parkable (m : Mach) (p : Nat) : Bool :=
  let d := getPd m p
  (getPort m p).tc = .attachedSrc && d.contract && 5000 < d.vTarget

/-- HOLD_PARK_STEP: the next port in ascending order receives Hard Reset and stays at the park level. -/
def holdParkStep (m : Mach) (from_ : Nat) : Mach :=
  match (List.range 48).find? fun p => from_ ≤ p && parkable m p with
  | none => { m with grd := { m.grd with parkNext := none, parkAt := none } }
  | some p =>
    let m := hardSignal m p
    { m with grd := { m.grd with parkNext := some (p + 1), parkAt := after m (ms 2)
                                 parkedPorts := m.grd.parkedPorts.filter (fun q => q ≠ p) ++ [p] } }

def execHoldParkStep (s : State) : Host.Outcome State Fault Refusal :=
  next s <| fire s.m s.m.grd.parkAt fun m => holdParkStep m (m.grd.parkNext.getD 48)

/-- GRD_HOLD_CFG (R401): it applies from the next hold. -/
def setHoldCfg (m : Mach) (p : List Byte) : Ans :=
  refuseFirst [(!within (pU p 0 2) 1 300, .outOfRange)] <| .ok { m with grd := { m.grd with holdTimeS := pU p 0 2 } } []

def cmdGrdHoldCfg (m : Mach) (_ : Nat) (p : List Byte) : Ans := persist 0x0B05 0 p (setHoldCfg m p)

def execGrdHoldCfg (slot : Nat) (s : State) := command 0x0B05 slot cmdGrdHoldCfg s

/-! ### Die links (R20, R21, R402, R403, R484) -/

/-- A die is fenced with LINK_LOST: planned moves to its cores are abandoned, and an update of one of its cores with them
(R403, R506). -/
def dieLost (m : Mach) (d : Nat) : Mach :=
  let m := note m (blkLinkE + d) .linkLost 6
  let moving := (List.range 48).filter fun p => p / 24 = d && (getPd m p).migTo.isSome
  let m := forAll m moving migrationLeft
  let m := if m.upd.kind = 2 && (m.upd.st = .applying || m.upd.st = .probation)
      && (m.upd.coresLeft ++ m.upd.coresDone).any fun k => k / 4 = d then
      { m with upd := { m.upd with step := 9 } } else m
  fenceDie m d (codeOf .linkLost)

/-- DIE_LINK_LOSS: no heartbeat for 100 us. -/
def execDieLinkLoss (die : Nat) (s : State) : Host.Outcome State Fault Refusal :=
  guardUnit (die < 2) s fun m => when ((getBlk m (blkLinkE + die)).fence.isNone) m fun m => dieLost m die

/-- LINK_GLITCH: a miss of 30 to 100 us, recorded at severity 1. -/
def execLinkGlitch (die : Nat) (s : State) : Host.Outcome State Fault Refusal :=
  guardUnit (die < 2) s fun m => note m (blkLinkE + die) .linkGlitch 1

/-- FE_HEARTBEAT_LOSS (R20, R59): the die itself opens VBG and discharges VBUS on its ports, and stays out of service until a
FER. -/
def execFeHeartbeatLoss (die : Nat) (s : State) : Host.Outcome State Fault Refusal :=
  guardUnit (die < 2) s fun m =>
    let m := if (getBlk m (blkLinkE + die)).fence.isNone then dieLost m die else m
    let m := { m with dev := { m.dev with feDark := m.dev.feDark.filter (fun q => q ≠ die) ++ [die] } }
    forAll m ((List.range 24).map (24 * die + ·)) fun m p =>
      let m := modCv m p fun c => { c with vbg := false, vbd := !isBay m p || bayEmpty m p }
      modPort m p fun x => { x with dcp := false, vconn := false }

/-- A FER begins (R484): the port stop of R238 on the die's ports, and the die under reset for at most 25 ms. -/
def ferBegin (m : Mach) (d : Nat) : Mach :=
  let ports := (List.range 24).map (24 * d + ·)
  let m := forAll m ports fun m p =>
    match (getPort m p).tc with
    | .attachedSrc => sourceStop m p 3 6
    | .attachedSnk => sinkStop m p 3 6
    | .bay => bayGone m p
    | _ => m
  let m := { m with dev := { m.dev with feDark := m.dev.feDark.filter fun q => q ≠ d } }
  let m := forAll m ports fun m p => modPort m p fun x =>
    { x with dcp := false, vconn := false, tc := if x.mode = 2 then .bay else .disabled, debounceAt := none, toggleAt := none
             tryAt := none, recoverAt := none, checkEndAt := none, checkAt := none, checkOk := false }
  let m := modBlk m (blkLinkE + d) fun w => { w with resetting := true }
  let m := if d = 1 then feWLost m else m
  { m with pwr := { m.pwr with
      ferAt := tupd m.pwr.ferAt d fun _ => after m (ms 25)
      ferAuto := tupd m.pwr.ferAuto d fun _ => none
      counts := m.pwr.counts.modify 6 fun n => satTo 65535 (n + 1) } }

/-- A FER asked for while one runs is the same one (R506). -/
def ferAsk (m : Mach) (d : Nat) : Mach := if (tget m.pwr.ferAt none d).isSome then m else ferBegin m d

/-- FER_AUTO (R484): one second after the fence, at most three times per die in an hour. -/
def execFerAuto (die : Nat) (s : State) : Host.Outcome State Fault Refusal :=
  guardUnit (die < 2) s fun m => fire m (tget m.pwr.ferAuto none die) fun m =>
    let m := { m with pwr := { m.pwr with ferTimes := tupd m.pwr.ferTimes die fun l => l ++ [nowMs m] } }
    ferAsk m die

/-- A converter whose self-test results and phase fences are lost with a reset of its die (R77, R492). -/
def retest (c : Conv) : Conv :=
  { c with ph := tmap c.ph fun _ y => { trips := y.trips, skips := y.skips, dropped := y.dropped }
           staleFences := [], selftest := if c.decl.topo = 0 then 0 else 1 }

/-- FER_DONE (R484, R402): the fences of the die and its ports end, LIVE bits but for the CORRODED latch go, and the ports
start from Disabled. -/
def ferDone (m : Mach) (d : Nat) : Mach :=
  let m := { m with pwr := { m.pwr with ferAt := tupd m.pwr.ferAt d fun _ => none } }
  let m := modBlk m (blkLinkE + d) fun w => { w with fence := none, resetting := false, live := [] }
  forAll m ((List.range 24).map (24 * d + ·)) fun m p =>
    let clr (m : Mach) (b : Nat) : Mach := modBlk m b fun w =>
      { w with fence := none, live := w.live.filter fun x => x.1 = codeOf .corroded && (getPort m p).corroded }
    let m := modCv (clr (clr m p) (cnvBlk p)) p retest
    let m := modPort m p fun x => { x with finding := if x.corroded then .corroded else .clean, accessory := false }
    if (getPort m p).mode = 2 then modChg m (p + 1) fun c => { c with newCycle := true } else goUnattached m p

def execFerDone (die : Nat) (s : State) : Host.Outcome State Fault Refusal :=
  guardUnit (die < 2) s fun m => fire m (tget m.pwr.ferAt none die) fun m => ferDone m die

/-- FE_W_REJOIN (R21): FE-W back, and one full round of tap readings: Store charging may resume. -/
def execFeWRejoin (s : State) : Host.Outcome State Fault Refusal :=
  next s <| when ((getBlk s.m (blkLinkE + 1)).fence.isNone && s.m.sto.tapsRead && (getChg s.m 0).st = .suspended
      && (getChg s.m 0).cause = 7) s.m fun m => chgEnter m 0 .check

/-! ### Clocks (R31 to R35, R327) -/

/-- Both processors halted, no Bib, Guard-only hold (R32). -/
def mclkStop (m : Mach) : Mach :=
  let m := { m with dev := { m.dev with mclk := false, tchclk := false } }
  let m := forAll m [0, 1] fun m a => modProc m a fun x => { x with halted := true, sync := false }
  let m := { m with grd := { m.grd with handover := none, failingProc := none, haltAckBy := none } }
  let m := setLive (note m blkClk .clkLoss 7) blkClk .clkLoss 7 true
  enterHold (dropBib m)

/-- MCLK_LOSS. -/
def execMclkLoss (s : State) : Host.Outcome State Fault Refusal :=
  next s <| when s.m.dev.mclk s.m mclkStop

/-- A converter clock stops (R33): every PWM pin at mid-level, every VBG open; every declared converter and every port that is
not off reads FENCED with CLK_LOSS at severity 7; the battery FET keeps its mode. -/
def clkStop (m : Mach) (dom : Nat) : Mach :=
  let d := m.dev
  let m := { m with dev := { d with ceclk := d.ceclk && dom ≠ 1, pwmclk := d.pwmclk && dom ≠ 2, adcclk := d.adcclk && dom ≠ 3 } }
  let m := setLive (note m blkClk .clkLoss 7) blkClk .clkLoss 7 true
  let first := m.grd.clkLost = 0
  let m := { m with grd := { m.grd with clkLost := m.grd.clkLost + flag (!bit m.grd.clkLost dom) dom } }
  if !first then m
  else
    let ks := declaredConvs m
    let m := forAll m ks fun m k =>
      fenceConv (setLive (note m (cnvBlk k) .clkLoss 7) (cnvBlk k) .clkLoss 7 true) k (codeOf .clkLoss)
    let ports := (List.range 48).filter fun p => (getPort m p).mode ≠ 0 && !ks.contains p
    let m := forAll m ports fun m p => markFence (setLive (note m p .clkLoss 7) p .clkLoss 7 true) p (codeOf .clkLoss)
    forAll m (List.range 48) fun m p => modCv m p fun c => { c with vbg := false }

def clkRuns (m : Mach) (dom : Nat) : Bool := if dom = 1 then m.dev.ceclk else if dom = 2 then m.dev.pwmclk else m.dev.adcclk

/-- CLK_LOSS of domain 1 CECLK, 2 PWMCLK or 3 ADCCLK. -/
def execClkLoss (dom : Nat) (s : State) : Host.Outcome State Fault Refusal :=
  guardUnit (1 ≤ dom && dom ≤ 3) s fun m => when (clkRuns m dom) m fun m => clkStop m dom

/-- The Stavska link drops with USBCLK (R31); the manual names no LAST_FAIL for it: a free value. -/
def usbDrop (m : Mach) : Mach :=
  if m.svc.link = 0 then m
  else
    let (n, m) := draw m
    stavskaEnd m (Config.freeNat n)

/-- XIN_LOSS (R34): every PLL domain and NVMCLK stop; R32 and R33 together. -/
def xinStop (m : Mach) : Mach :=
  let m := usbDrop m
  -- R434: the page in progress reads as after a power failure at this point
  let m := match m.nvm.cur with
    | some w => tornPage m w
    | none => m
  let m := { m with dev := { m.dev with xin := false, estclk := false, usbclk := false }, est := { m.est with halted := true } }
  mclkStop (clkStop (clkStop (clkStop m 1) 2) 3)

def execXinLoss (s : State) : Host.Outcome State Fault Refusal := next s <| when s.m.dev.xin s.m xinStop

/-- ESTCLK_LOSS: the engine stops, and the contexts hold their last values. -/
def execEstclkLoss (s : State) : Host.Outcome State Fault Refusal :=
  next s { s.m with dev := { s.m.dev with estclk := false }, est := { s.m.est with halted := true } }

/-- USBCLK_LOSS: the Stavska link drops. -/
def execUsbclkLoss (s : State) : Host.Outcome State Fault Refusal :=
  next s (let m := usbDrop s.m
    { m with dev := { m.dev with usbclk := false } })

/-- AONCLK_LOSS: the always-on counter stops, and the Guard records the cause. -/
def execAonclkLoss (s : State) : Host.Outcome State Fault Refusal :=
  next s <| when s.m.dev.aonclk s.m fun m =>
    note { m with dev := { m.dev with aonclk := false } } blkClk .clkLoss 1

end Machine
end Sys2Proof
end

