-- ==== Sys2Proof/Machine/CmdTable.lean ====
section
/-! DEFINITION. Sys2Proof/Machine/CmdTable.lean: the command set of firmware 3.2: its codes, classes and payload lengths (R474 to
R476, and each command's own payload table). -/
namespace Sys2Proof
namespace Machine

/-- The groups of R476: high byte, low byte of the first code, and the payload length of each code in order. -/
def cmdGroups : List (Nat × Nat × List Nat) :=
  [(0x01, 1, [0, 4, 0]),
   (0x02, 1, [4, 4, 0, 8]),
   (0x03, 1, [32, 16, 1, 1, 2]),
   (0x04, 1, [40, 16, 2, 1, 16]),
   (0x05, 1, [24, 2, 0, 1]),
   (0x06, 1, [8, 1, 1, 1, 1, 8, 0, 3]),
   (0x07, 1, [12, 12, 1, 2, 2, 0, 2]),
   (0x08, 1, [8, 68, 1, 2, 0, 2, 1]),
   (0x09, 1, [24, 2, 46, 1, 2, 2, 8, 2]),
   (0x0A, 1, [12, 0, 1]),
   (0x0B, 1, [1, 4, 2, 0, 2]),
   (0x0C, 1, [4, 0, 0]),
   (0x0D, 1, [4, 4, 2, 1, 0, 2]),
   (0x0E, 1, [8, 8]),
   (0x0F, 1, [8, 8, 0, 0, 0]),
   (0x10, 1, [4, 0, 0, 172, 6, 8, 1, 0]),
   (0x11, 2, [16, 1, 1, 28, 124, 8, 8, 2, 0, 10, 1])]

/-- The payload length of a code, without the data of a variable payload; none for a code outside the command set. -/
def payloadLen (code : Nat) : Option Nat :=
  match cmdGroups.find? fun g => g.1 = code / 256 with
  | some (_, lo, ls) => if lo ≤ code % 256 then ls[code % 256 - lo]? else none
  | none => none

/-- CODE is in the command set of firmware 3.2 (R476). -/
def isCommand (code : Nat) : Bool := (payloadLen code).isSome

/-- The payload has the command's length (R464 step 5): DEV_ECHO takes up to 1 004 bytes (R475); the data of NVM_WRITE and
UPD_DATA are as long as their length fields say (R448, R496). -/
def lengthOk (code : Nat) (p : List Byte) : Bool :=
  match payloadLen code with
  | none => false
  | some n =>
    if code = 0x0103 then p.length ≤ 1004
    else if code = 0x0D02 then n ≤ p.length && p.length = n + pU p 3 1
    else if code = 0x0F02 then n ≤ p.length && p.length = n + pU p 4 2
    else p.length = n

/-- Class SERVICE (R476). -/
def needsService (code : Nat) : Bool :=
  code = 0x0604 || code = 0x0802 || code = 0x0806 || code = 0x0907 || within code 0x1005 0x1007

/-- Accepted from the Stavska slot alone (R476). -/
def stavskaOnly (code : Nat) : Bool := code = 0x1003 || code = 0x1004

/-- Accepted from the host mailboxes alone (R410, R476). -/
def hostOnly (code : Nat) : Bool := code = 0x0C01

/-- What the Stavska slot may submit before authentication (R511). -/
def openToAll (code : Nat) : Bool := code / 256 = 0x01 || within code 0x1002 0x1004 || code = 0x1008

/-- The submitter of slot `s` has the command's class (R464 step 6, R466, R511). -/
def classOk (m : Mach) (s code : Nat) : Bool :=
  if s = 4 then !hostOnly code && (m.svc.service || openToAll code)
  else !needsService code && !stavskaOnly code

/-- A retention command (R448). -/
def isRetention (code : Nat) : Bool := code / 256 = 0x0D

/-- MASK of DEV_CMD_CAPS_GET (R475). -/
def capsMask (group : Nat) : Nat := bitmap ((List.range 256).filter fun c => isCommand (256 * group + c))

end Machine
end Sys2Proof
end

