-- ==== Sys2Proof/Machine/Watchdogs.lean ====
section
/-! DEFINITION. Sys2Proof/Machine/Watchdogs.lean: the host watchdog and the Slalom watchdog (chapter 15). -/
namespace Sys2Proof
namespace Machine

/-! ### WDH (R404 to R418) -/

/-- A watchdog reset counted (R425, R426). -/
def wdCountUp (m : Mach) : Mach :=
  { m with wds := { m.wds with wdCount := satTo 65535 (m.wds.wdCount + 1), wdTarget := satTo 0xFFFFFFFF (m.wds.wdTarget + 1) } }

/-- The count restarts at 0 with the configuration as it stands (R404, R415). -/
def wdhStart (m : Mach) (st : WdhState) : Mach :=
  let c := m.wdh.cfg
  { m with wdh := { m.wdh with
      st := st, count := 0, presc := 0, waiting := false, close := c.periodMs * 1000, openAt := c.periodMs * 1000 * c.win / 8 } }

/-- The PARK profile applied: steps 1 and 2 of R400 (R416). -/
def wdhParkOn (m : Mach) : Mach :=
  let m := parkStart { m with grd := { m.grd with wdhPark := true } }
  forAll m ((List.range 48).map (· + 1)) chgApply

/-- The PARK profile lifted (R417). -/
def wdhParkOff (m : Mach) : Mach :=
  if m.grd.wdhPark then unparkAll { m with grd := { m.grd with wdhPark := false } } else m

/-- HOSTRST_N driven low for 10 ms, EXPIRIES and the watchdog resets counted (R416, R417). -/
def wdhPulse (m : Mach) : Mach :=
  let m := wdCountUp m
  { m with dev := { m.dev with hostRstUntil := after m (ms 10) }
           wdh := { m.wdh with expiries := satTo 255 (m.wdh.expiries + 1), count := 0, presc := 0 } }

/-- The host-lost reaction (R416). -/
def hostLost (m : Mach) (c : Cause) : Mach :=
  let m := note m blkWdh c (if m.wdh.cfg.park then 3 else 2)
  let m := wdhPulse { m with wdh := { m.wdh with st := .hostLost } }
  if m.wdh.cfg.park then wdhParkOn m else m

/-- WDH can be reached: MCLK runs (R31, R32, R412). -/
def wdhUp (m : Mach) : Bool := m.dev.mclk && m.pwr.st ≠ .standby && m.pwr.st ≠ .ship

/-- A value written to WDH_SERVE (R405, R407, R412, R414, R417). A serve at a count that has reached CLOSE loses to the
expiry. -/
def wdhServe (m : Mach) (key : Nat) : Mach :=
  let w := m.wdh
  if !wdhUp m then m
  else if w.cfg.compat && w.st = .off then
    wdhStart { m with wdh := { w with lock1600 := true } } .running
  else if key % 65536 ≠ 0x6C3E then
    note { m with wdh := { w with badKey := true } } blkWdh .event 1
  else if w.waiting then m
  else match w.st with
    | .off => wdhStart m .running
    | .running =>
      if w.close ≤ w.count then m
      else if w.count < w.openAt then hostLost { m with wdh := { w with early := true } } .wdhEarly
      else wdhStart m .running
    | .hostLost => if w.close ≤ w.count then m else wdhParkOff (wdhStart m .running)

def execWdhServe (key : Nat) (s : State) : Host.Outcome State Fault Refusal :=
  guardUnit (key < 65536) s fun m => wdhServe m key

/-- A key written to WDH_CTRL.KEY (R409, R413): 0 carries no key; 0x1F2E waits for 0xE1D0 within 64 MCLK cycles. -/
def wdhCtrlKey (m : Mach) (key : Nat) : Mach :=
  let w := m.wdh
  let bad (m : Mach) : Mach := { m with wdh := { m.wdh with badKey := true, firstKey := none } }
  if key = 0 || !wdhUp m then m
  else
    let m := match w.firstKey with
      | some c => if 64 < c then bad m else m
      | none => m
    match m.wdh.firstKey with
    | some _ =>
      if key ≠ 0xE1D0 || w.lock || w.lock1600 || w.st = .hostLost || w.cfg.compat then bad m
      else { m with wdh := { m.wdh with st := .off, waiting := false, firstKey := none } }
    | none => if key = 0x1F2E then { m with wdh := { m.wdh with firstKey := some 0 } } else bad m

def execWdhDisableSequence (key : Nat) (s : State) : Host.Outcome State Fault Refusal :=
  guardUnit (key < 65536) s fun m => wdhCtrlKey m key

/-- LOCK set until POR (R409). -/
def wdhLockSet (m : Mach) : Mach := { m with wdh := { m.wdh with lock := true } }

def execWdhLockSet (s : State) : Host.Outcome State Fault Refusal := next s (wdhLockSet s.m)

/-- A word written to WDH_CTRL: LOCK before the key, for a sequence that meets LOCK is refused (R428). -/
def wdhCtrlWrite (m : Mach) (w : Nat) : Mach := wdhCtrlKey (if bit w 1 then wdhLockSet m else m) (w / 65536)

/-- WDH_EXPIRY (R416, R417): when the count reaches CLOSE. -/
def wdhExpiry (m : Mach) : Mach :=
  let w := m.wdh
  if w.st = .off || w.waiting || !wdhUp m then m
  else
    let m := advance m ((w.close - w.count) * 1000 - w.presc)
    let m := { m with wdh := { m.wdh with expired := true } }
    if w.st = .running then hostLost m .wdhExpired else wdhPulse m

def execWdhExpiry (s : State) : Host.Outcome State Fault Refusal := next s (wdhExpiry s.m)

/-- HOSTRST_PULSE_END. -/
def execHostrstPulseEnd (s : State) : Host.Outcome State Fault Refusal :=
  next s <| fire s.m s.m.dev.hostRstUntil fun m => { m with dev := { m.dev with hostRstUntil := none } }

/-- WDH_CFG (R411); it reads 0 before recall has loaded it (R10, R436). -/
def wdhCfgWord (m : Mach) : Nat :=
  let c := m.wdh.cfg
  if !m.wdh.cfgKnown then 0
  else c.periodMs * 2 ^ 16 + c.win * 2 ^ 13 + flag m.wdh.nextCompat 12 + flag m.wdh.nextAutostart 11 + flag c.park 10

/-- BADKEY: a first key whose 64 cycles have passed alone is one too (R413). -/
def wdhBadKey (m : Mach) : Bool :=
  m.wdh.badKey || match m.wdh.firstKey with
    | some c => 64 < c
    | none => false

def wdhStCode : WdhState → Nat
  | .off => 0 | .running => 1 | .hostLost => 2

/-- WDH_STAT (R418). -/
def wdhStatWord (m : Mach) : Nat :=
  let w := m.wdh
  wdhStCode w.st * 2 ^ 28 + flag w.lock1600 27 + flag w.expired 26 + flag w.early 25 + flag (wdhBadKey m) 24
    + satTo 255 w.expiries * 2 ^ 16 + satTo 65535 (w.count / 1000)

def wdhStatWrite (m : Mach) (v : Nat) : Mach :=
  let w := m.wdh
  let late := wdhBadKey m && !w.badKey
  { m with wdh := { w with
      expired := w.expired && !bit v 26, early := w.early && !bit v 25
      badKey := wdhBadKey m && !bit v 24, firstKey := if late then none else w.firstKey } }

/-- The retained configuration taken at recall (R412, R415). -/
def putWdhCfg (m : Mach) (p : List Byte) : Mach :=
  let c := wdhCfgOf p
  { m with wdh := { m.wdh with cfg := { c with compat := m.wdh.cfg.compat, autostart := m.wdh.cfg.autostart }
                               nextCompat := c.compat, nextAutostart := c.autostart } }

/-- WDH_CFG_SET (R415): PROFILE acts at once, MODE and AUTOSTART from the next reset, PERIOD_MS and WIN from the next accepted
serve or start. -/
def setWdhCfg (m : Mach) (p : List Byte) : Ans :=
  refuseFirst
    [(m.wdh.lock || m.wdh.lock1600, .locked),
     (!within (pU p 0 2) 10 60000 || 7 < pU p 2 1 || 7 < pU p 3 1, .outOfRange)] <|
    let m := putWdhCfg m p
    .ok (if m.wdh.st = .hostLost && m.wdh.cfg.park && !m.grd.wdhPark then wdhParkOn m
         else if !m.wdh.cfg.park then wdhParkOff m else m) []

def cmdWdhCfgSet (m : Mach) (_ : Nat) (p : List Byte) : Ans := persist 0x0C01 0 p (setWdhCfg m p)

def execWdhCfgSet (slot : Nat) (s : State) := command 0x0C01 slot cmdWdhCfgSet s

/-! ### WDS (R419 to R424) -/

/-- step of R421. -/
def wdsStep (t : BitVec 24) : BitVec 24 := if t.getLsbD 0 then (t >>> 1) ^^^ 0xE10000#24 else t >>> 1

/-- WDS_CHECKIN (R420). -/
def wdsCheckin (m : Mach) (proc : Nat) (sup : Bool) (word : Nat) : Mach :=
  let w := m.wds
  let g := word / 2 ^ 24 % 16
  let t := tget w.tokens 0 g
  if !w.enabled || m.grd.owner ≠ proc + 1 || !sup || !bit w.mask g then
    { m with wds := { w with rejects := wrap32 (w.rejects + 1) } }
  else if bit w.passed g then
    { m with wds := { w with doubled := w.doubled + flag (!bit w.doubled g) g } }
  else if BitVec.ofNat 24 word ≠ t then { m with wds := { w with badTokens := wrap32 (w.badTokens + 1) } }
  else { m with wds := { w with passed := w.passed + 2 ^ g, tokens := tupd w.tokens g wdsStep } }

def execWdsCheckin (proc : Nat) (supervisor : Bool) (word : Nat) (s : State) : Host.Outcome State Fault Refusal :=
  guardUnit (proc < 2 && word < 2 ^ 32) s fun m => wdsCheckin m proc supervisor word

/-- Enabled gates without an accepted check-in (R422). -/
def wdsMissing (w : Wds) : Nat := bitmap ((List.range 16).filter fun g => bit w.mask g && !bit w.passed g)

/-- WDS_PERIOD_END (R422, R423): one fault for every gate missed or doubled, WDS_MISSED first; then the next period. -/
def wdsPeriodEnd (m : Mach) : Mach :=
  let w := m.wds
  let missed := wdsMissing w
  let fresh (m : Mach) : Mach :=
    { m with wds := { m.wds with passed := 0, doubled := 0, periodAt := after m (ms m.wds.periodMs) } }
  if missed = 0 && w.doubled = 0 then fresh m
  else
    let c : Cause := if missed ≠ 0 then .wdsMissed else .wdsDouble
    let m := note m blkWds c 5
    let m := if missed ≠ 0 && w.doubled ≠ 0 then
        modBlk m blkWds fun b => blkRecord b (codeOf .wdsDouble) 5 (nowMs m) m.dev.aonTick true else m
    let m := wdCountUp { m with wds := { m.wds with
        faults := satTo 65535 (w.faults + 1), missedLast := missed, doubledLast := w.doubled, lastMs := nowMs m } }
    failover (fresh m) (if missed ≠ 0 then .wdsMissed else .wdsDouble)

def execWdsPeriodEnd (s : State) : Host.Outcome State Fault Refusal :=
  next s <| fire s.m s.m.wds.periodAt wdsPeriodEnd

/-- WDS_ENABLE (R419). -/
def execWdsEnable (s : State) : Host.Outcome State Fault Refusal :=
  next s <| when (!s.m.wds.enabled && holderRuns s.m) s.m fun m =>
    wdsRestart { m with wds := { m.wds with enabled := true } }

/-- WDS_STAT_GET (R424). -/
def cmdWdsStatGet (m : Mach) (_ : Nat) (_ : List Byte) : Ans :=
  let w := m.wds
  .ok m (le 2 w.periodMs ++ le 2 w.mask ++ le 2 w.passed ++ le 2 w.missedLast ++ le 2 w.doubledLast ++ le 2 w.faults
    ++ le 4 w.badTokens ++ le 4 w.rejects ++ le 4 w.lastMs)

def execWdsStatGet (slot : Nat) (s : State) := command 0x0C02 slot cmdWdsStatGet s

/-- WD_COUNT_GET (R427). -/
def cmdWdCountGet (m : Mach) (_ : Nat) (_ : List Byte) : Ans :=
  .ok m (le 2 m.wds.wdCount ++ le 2 0 ++ le 4 (ctrRead m.nvm 0).1 ++ le 4 m.wds.wdTarget)

def execWdCountGet (slot : Nat) (s : State) := command 0x0C03 slot cmdWdCountGet s

/-- WD_TOTAL_RAISE (R426): never above WD_TARGET. -/
def execWdTotalRaise (s : State) : Host.Outcome State Fault Refusal :=
  let asked (m : Mach) : Bool := (m.nvm.queue ++ m.nvm.cur.toList).any fun w =>
    w.kind = NvmKind.counter && w.ctx = some 0 && m.wds.wdTarget ≤ w.page
  next s <| when ((ctrRead s.m.nvm 0).1 < s.m.wds.wdTarget && !asked s.m) s.m fun m => nvmRaise m 0 m.wds.wdTarget

end Machine
end Sys2Proof
end

