-- ==== Sys2Proof/Machine/Power.lean ====
section
/-! DEFINITION. Sys2Proof/Machine/Power.lean: power-up and resets (R47 to R55, R168 to R172, R436, R479 to R485), the
power-down warning and its save (R198, R443 to R446), power states (R486 to R490). -/
namespace Sys2Proof
namespace Machine

/-! ### The processors start (R481, R485, R494) -/

/-- Resets of kind ESC within the last 10 min (R485). -/
def escRecent (m : Mach) : List Nat := m.pwr.escTimes.filter fun t => nowMs m < t + 600000

/-- The bank the policy processors start from after a station reset: the pointer's, or from a third ESC within 10 min the
other one (R485, R494). -/
def startBank (m : Mach) : Option Nat :=
  if m.grd.escHalt then none
  else if m.pwr.lastReset = 4 && 3 ≤ (escRecent m).length then
    let b := 1 - ptrOf m 1
    if regionBoots m 1 b then some b else none
  else bootBank m 1

/-- An image that does not boot fences the estimator block or a PD core (R494). -/
def imageFences (m : Mach) : Mach :=
  let m := match bootBank m 3 with
    | some _ => m
    | none =>
      let m := markFence (note m blkEst .badCrc 5) blkEst (codeOf .badCrc)
      { m with est := { m.est with halted := true } }
  match bootBank m 2 with
  | some b => forAll m (List.range 8) fun m k => modCore m k fun _ => coreFrom m b
  | none => forAll m (List.range 8) fun m k => coreFence (note m (0x70 + k) .badCrc 5) k (codeOf .badCrc)

/-- The processors verify and start their firmware; PP-A takes the Bib, or the station stays in Guard-only hold where none
boots (R399, R481, R485). -/
def procStart (m : Mach) : Mach :=
  let m := imageFences (loadLimits m)
  match (if m.dev.mclk then startBank m else none) with
  | none =>
    let m := forAll m [0, 1] fun m a => modProc m a fun _ => { halted := true }
    enterHold m
  | some b =>
    let img := if b = ptrOf m 1 then 0 else 1
    let m := forAll m [0, 1] fun m a => modProc m a fun _ => { running := true, image := img }
    takeBib { m with dev := { m.dev with fwStarted := true } } 0

/-! ### Station resets (R35, R479) -/

/-- POR: neither supply of the always-on domain holds (R480). -/
def execPor (s : State) : Host.Outcome State Fault Refusal := next s (stationReset s.m .por false)

/-- GDCLK_MISSING (R35): a POR, with the supplies as they stand. -/
def execGdclkMissing (s : State) : Host.Outcome State Fault Refusal := next s (stationReset s.m .por true)

/-- BOR: VPRE below 4 200 mV, or the end of a SHIP entry or of a save with its warning standing (R446, R479, R488). -/
def borReset (m : Mach) : Mach :=
  let cause := m.dev.borDue.getD 0
  let m := stationReset m .bor false
  { m with pwr := { m.pwr with borCause := cause } }

def execBor (vpreMv : Nat) (s : State) : Host.Outcome State Fault Refusal :=
  next s <| when (s.m.dev.vpreGood && (vpreMv < 4200 || s.m.dev.borDue.isSome)) s.m borReset

/-- PIN_RESET (R479): a pulse below 200 ns is ignored; one from 200 ns to 1 us resets or not by a free value. -/
def pinReset (m : Mach) (lowNs : Nat) : Mach :=
  if !m.dev.vpreGood then m
  else if lowNs < 200 then advance m lowNs
  else
    let (n, m) := if lowNs < 1000 then draw m else (0, m)
    if 1000 ≤ lowNs || Config.shortPulseResets n then advance (stationReset m .pin true) lowNs else advance m lowNs

def execPinReset (lowNs : Nat) (s : State) : Host.Outcome State Fault Refusal := next s (pinReset s.m lowNs)

/-- RESET_PHASE_END (R481): 20 us after the trigger has ended. For POR, BOR and PIN the mode of R148 is selected from VSTS; a
Store below 2 000 mV is absent and one above 60 000 mV is not connected (R175). -/
def resetPhaseEnd (m : Mach) (vsts : Nat) : Mach :=
  let m := advance m 20000
  let m := { m with dev := { m.dev with resetPhase := false } }
  let m :=
    if m.pwr.lastReset ≤ 2 then
      let m := { m with path := { m.path with storePresent := 2000 ≤ vsts, storeJudge := 2000 ≤ vsts, vstsMv := vsts } }
      let m := if 60000 < vsts then storeFence (note m blkStore .storeMismatch 5) .storeMismatch else m
      let (md, m) := bfetSelect m vsts
      { m with path := { m.path with mode := md } }
    else { m with wdh := { m.wdh with waiting := false } }
  procStart m

def execResetPhaseEnd (vstsMv : Nat) (s : State) : Host.Outcome State Fault Refusal :=
  guardRead true (sysRated vstsMv) s fun m =>
    when (m.dev.resetPhase && m.dev.vpreGood && m.dev.vioGood && m.dev.xin) m fun m => resetPhaseEnd m vstsMv

/-! ### Power-up (R47 to R55, R445) -/

/-- VPRE_GOOD (R55, R528): rising, at or above 4 500 mV; between 4 400 and 4 500 mV a free value says. After a POR it is
recorded whether VBOOT alone feeds VPRE (R51). -/
def vpreUp (m : Mach) (mv : Nat) (bootOnly : Bool) : Mach :=
  let (n, m) := if 4400 ≤ mv && mv < 4500 then draw m else (0, m)
  if 4500 ≤ mv || (4400 ≤ mv && Config.freeBool n) then
    { m with dev := { m.dev with vpreGood := true, vcoreGood := true
                                 bootCable := if m.pwr.lastReset = 0 then bootOnly else m.dev.bootCable } }
  else m

def execVpreGood (vpreMv : Nat) (bootOnly : Bool) (s : State) : Host.Outcome State Fault Refusal :=
  next s <| when (!s.m.dev.vpreGood && s.m.pwr.st ≠ .ship) s.m fun m => vpreUp m vpreMv bootOnly

/-- VIO_GOOD (R55): the device takes over the battery FET's gates (R168). -/
def execVioGood (s : State) : Host.Outcome State Fault Refusal :=
  next s <| when s.m.dev.vpreGood s.m fun m => { m with dev := { m.dev with vioGood := true }, path := { m.path with startCkt := false } }

/-- STRAP_LATCH (R47, R48, R51): once after a POR, BOR or PIN reset. -/
def execStrapLatch (hsel hadr dbp : Nat) (s : State) : Host.Outcome State Fault Refusal :=
  guardUnit (hsel < 2 && hadr < 2 && dbp < 4) s fun m => when (m.dev.vioGood && !m.dev.strapsLatched) m fun m =>
    { m with dev := { m.dev with strapsLatched := true, hsel := hsel, hadr := hadr, dbp := dbp } }

/-- HOLD_CHARGED (R445). -/
def execHoldCharged (holdMv : Nat) (s : State) : Host.Outcome State Fault Refusal :=
  next s <| when (s.m.dev.vpreGood && 12000 ≤ holdMv) s.m fun m => { m with dev := { m.dev with holdOk := true } }

/-! ### Recall (R436 to R442) -/

/-- What a configuration command would leave, where it takes the payload. -/
def okOf (m : Mach) : Ans → Mach
  | .ok m' _ => m'
  | _ => m

/-- An item of retention memory put in force (R436). -/
def putItem (m : Mach) (code key : Nat) (p : List Byte) : Mach :=
  if code = 0x1102 then (if sparesOk m key (declOf p) then declare m key (declOf p) else m)
  else if code = 0x0401 then
    pathDerive (modChg m 0 fun c => { c with prof := profileOf p, chgEn := (profileOf p).chgEn })
  else if code = 0x0403 then okOf m (setChgEn m p)
  else if code = 0x0601 then
    modPort m key fun x => { x with mode := pU p 1 1, role := pU p 2 1, rpMax := pU p 3 1, flags := pU p 4 1 }
  else if code = 0x0701 then okOf m (setPdSrcCfg m p)
  else if code = 0x0702 then okOf m (setPdSnkCfg m p)
  else if code = 0x0802 then putKey m p
  else if code = 0x0804 then (if p.isEmpty then m else modRec m key fun _ => recOf p)
  else if code = 0x0901 then okOf m (setEstCfg m p)
  else if code = 0x0903 then putOcv m p
  else if code = 0x0A01 then okOf m (setThmCfg m p)
  else if code = 0x0B05 then okOf m (setHoldCfg m p)
  else if code = 0x0C01 then putWdhCfg m p
  else if code = 0x0D06 then { m with nvm := { m.nvm with pdwSysMv := pU p 0 2 } }
  else if code = 0x0204 then
    { m with pwr := { m.pwr with wakeEn := pU p 0 1, quietAfterS := pU p 2 2, wakeTimerS := pU p 4 4 } }
  else m

/-- The retained commands, in the order recall puts them in force: what a setting is judged by comes before it. -/
def itemOrder : List Nat :=
  [0x1102, 0x0401, 0x0403, 0x0601, 0x0701, 0x0702, 0x0802, 0x0804, 0x0901, 0x0903, 0x0A01, 0x0B05, 0x0C01, 0x0D06, 0x0204]

/-- slot_pick of R437 for an item whose pages are private to the firmware: the copy chosen, and whether it is the older one. -/
def itemPick (x : CfgItem) : CfgItem :=
  match x.a, x.b with
  | some (sa, _), some (sb, _) => { x with chosenB := seqNewer sb sa, reverted := x.reverted }
  | some (sa, _), none => { x with chosenB := false, reverted := x.reverted || 1 < sa }
  | none, some (sb, _) => { x with chosenB := true, reverted := x.reverted || 1 < sb }
  | none, none => x

/-- A slot recalled its older copy (R437). -/
def noteReverted (m : Mach) : Mach := note { m with nvm := { m.nvm with reverted := true } } blkNvm .reverted 2

/-- NVM_UNC at severity 3: a slot neither of whose copies is valid nor blank (R437). -/
def noteUnc (m : Mach) (sev : Nat) : Mach := note { m with nvm := { m.nvm with unc := true } } blkNvm .nvmUnc sev

/-- The items recalled. A slot none of whose copies is valid may read BLANK or not: a free value. -/
def recallItems (m : Mach) : Mach :=
  let old := m.nvm.items
  let items := old.map itemPick
  let m := { m with nvm := { m.nvm with items := items } }
  let m := forAll m (List.range old.length) fun m i =>
    match old[i]?, items[i]? with
    | some o, some x =>
      if x.reverted && (o.a.isNone || o.b.isNone) then noteReverted m
      else if x.a.isNone && x.b.isNone then
        let (n, m) := draw m
        if Config.freeBool n then noteUnc m 3 else m
      else m
    | _, _ => m
  itemOrder.foldl (fun m code =>
    (items.filter fun x => x.code = code).foldl (fun m x => match itemData x with
      | some p => putItem m x.code x.key p
      | none => m) m) m

/-- Context `x`'s learned slot recalled (R349, R350, R437). -/
def recallSlot (m : Mach) (x : Nat) : Mach :=
  let (pa, pb) := learnedPages x
  let (pick, older) := slotPick m.nvm pa pb
  match pick with
  | none => if pageBlank m.nvm pa && pageBlank m.nvm pb then m else noteUnc m 3
  | some pg =>
    let m := modCtx m x fun c => { learnedParse c (pageBytes m.nvm pg) with
      anchorAge := if x < 256 then 1000 * pU (pageBytes m.nvm pg) 56 4 else c.anchorAge, reverted := older }
    if older then
      let m := if 256 ≤ x then { m with est := { m.est with revertedW1c := true } } else m
      noteReverted m
    else m

/-- A saved learned record: it replaces the chosen copy in the device's view where its SEQ exceeds both copies, and its write
waits (R446). -/
def recallSaved (m : Mach) (pg : Nat) : Mach :=
  let b := pageBytes m.nvm pg
  let x := pU b 4 2
  let (pa, pb) := learnedPages x
  let newer (q : Nat) : Bool := !copyOk m.nvm q || pageSeq m.nvm q < pageSeq m.nvm pg
  if copyOk m.nvm pg && x < 272 && newer pa && newer pb then
    let m := modCtx m x fun c => { learnedParse c b with
      anchorAge := if x < 256 then 1000 * pU b 56 4 else c.anchorAge, learnPending := true }
    nvmEnqueue m { page := (slotTarget m.nvm pa pb).1, bytes := some b, kind := .learned, ctx := some x }
  else m

/-- The 16 saved journal entries, oldest first; the numbering goes on after the last (R444, R446, R470). -/
def recallJournal (m : Mach) : Mach :=
  let halves := (List.range 8).flatMap fun j =>
    (List.range 2).filterMap fun h =>
      let good := (List.range 4).all fun g =>
        let s := groupStat m.nvm (8 * (176 + j) + 4 * h + g)
        s = .ok || s = .corrected
      let b := ((pageBytes m.nvm (176 + j)).drop (32 * h)).take 32
      if good && pU b 0 4 ≠ 0 && pU b 0 4 ≠ 0xFFFFFFFF then some (entryOf b) else none
  match halves.getLast? with
  | none => m
  | some e => { m with mbx := { m.mbx with ring := halves, nextSeq := seqNext e.seq } }

/-- A page of the ring or of the save's image that is neither part of a valid image nor all BLANK (R442). -/
def strayImages (nv : Nvm) : Bool :=
  imageBases.any fun b => (imageSeqAt nv b).isNone && (List.range 8).any fun j => !pageBlank nv (b + j)

/-- What recall takes after a POR or BOR: fast values, journal, the counters of R426 and R440. -/
def recallPower (m : Mach) : Mach :=
  let nv := m.nvm
  let torn := (imageSeqAt nv 160).isNone && (List.range 8).any (fun j => !pageBlank nv (160 + j))
    || (List.range 8).any fun j => !pageBlank nv (168 + j) && !copyOk nv (168 + j)
  let m := match newestImage nv with
    | some (b, q) =>
      let m := restoreFast m (imageRead nv b)
      -- the next image of the ring follows the newest of its four
      let at_ := [128, 136, 144, 152].foldl (fun (acc : Option (Nat × Nat)) r => match imageSeqAt nv r, acc with
        | some s, some (sa, _) => if sa < s then some (s, r) else acc
        | some s, none => some (s, r)
        | none, acc => acc) none
      let ringNext := match at_ with
        | some (_, r) => ((r - 128) / 8 + 1) % 4
        | none => 0
      { m with nvm := { m.nvm with imageSeq := q, ringNext := ringNext, saveUsed := b = 160 } }
    | none => if strayImages nv then noteUnc m 2 else m
  let m := { m with nvm := { m.nvm with saveTorn := torn } }
  -- R348: a Store context that has been seen starts from its fast values, with a deviation 1 % larger
  let m := forAll m ((List.range 16).map (256 + ·)) fun m x => modCtx m x fun c =>
    if c.hasSlot then { c with sigma := c.sigma + 1 / 100, awayKnown := true } else c
  let m := recallJournal m
  let total := (ctrRead m.nvm 0).1
  let m := { m with wds := { m.wds with wdTarget := if m.pwr.lastReset = 0 then total else max m.wds.wdTarget total } }
  let m := nvmRaise m 2 ((ctrRead m.nvm 2).1 + 1)
  if total < m.wds.wdTarget then nvmRaise m 0 m.wds.wdTarget else m

/-- RECALL_COMPLETE (R436). -/
def recallComplete (m : Mach) : Mach :=
  let power := m.pwr.lastReset ≤ 1
  let m := recallItems { m with dev := { m.dev with recallDone := true } }
  let m := forAll m (List.range (if power then 272 else 0)) recallSlot
  let m := if power then recallPower m else m
  let m := forAll m (if power then (List.range 8).map (168 + ·) else []) recallSaved
  let m := { m with wdh := { m.wdh with cfgKnown := true, waiting := false } }
  nvmKick { m with nvm := { m.nvm with checkpointAt := some (m.nvm.checkpointAt.getD (m.dev.now + sec 900)) } }

def execRecallComplete (s : State) : Host.Outcome State Fault Refusal :=
  next s <| when (s.m.dev.vpreGood && s.m.dev.xin && !s.m.dev.recallDone && !s.m.dev.resetPhase) s.m recallComplete

/-! ### Configuration applied (R49, R55, R481) -/

/-- Ports that the latched straps select (R48). -/
def strapped (dbp p : Nat) : Bool :=
  match dbp with
  | 3 => false
  | 2 => p = 0
  | 1 => p < 4
  | _ => p % 2 = 0

/-- The boot sink in Attached.SNK (R171): its source's capabilities are awaited for 620 ms. -/
def bootAttach (m : Mach) (p : Nat) : Mach :=
  let m := modPort m p fun x => { x with tc := .attachedSnk, toggleAt := none, checkAt := none, draw := true }
  let m := modPd m p fun x => { x with pe := .snkWait, dfp := false }
  let m := modCv m p fun c => { c with reverse := true, vbg := true, vbd := false }
  { m with path := { m.path with bootCapsAt := after m (ms 620) } }

/-- A Store context goes on from its kept or restored state of charge, or starts anew (R348). -/
def resumeStore (m : Mach) : Mach :=
  forAll m (List.range (min 16 (getChg m 0).prof.cells)) fun m c =>
    let x := 256 + c
    if (getCtx m x).awayKnown && (getCtx m x).hasSlot then
      filterInit (modCtx m x fun c => { c with active := true, anchored := c.anchorKind ≠ 0, stepAt := m.dev.now }) x
    else activate m x m.est.qNom 0 false

/-- CONFIG_APPLY: the path's levels follow, every port starts from Unattached, Disabled or as an empty bay, a strapped port
that is off or a bay loses its Rd (R49), and every charge machine begins a new cycle. -/
def configApply (m : Mach) : Mach :=
  let m := pathDerive { m with dev := { m.dev with configApplied := true } }
  let m := forAll m (List.range 48) fun m p =>
    let x := getPort m p
    let st := m.dev.strapsLatched && strapped m.dev.dbp p
    let conflict := st && x.mode ≠ 1
    let m := modPort m p fun x => { x with dead := st && x.mode = 1 }
    let m := goUnattached m p
    if conflict then note m p .strapConflict 1 else m
  let m := match m.path.bootSink with
    | some p => if (getPort m p).mode = 1 then bootAttach m p else { m with path := { m.path with bootSink := none } }
    | none => m
  let m := forAll m (List.range 49) fun m c => modChg m c fun x => { x with newCycle := true }
  let m := if m.path.storePresent then resumeStore m else m
  let m := { m with adc := { m.adc with rotateAt := after m (sec 10) }, ui := { m.ui with frameAt := after m (ms 1) } }
  ladderApply (rankRecompute m)

def execConfigApply (s : State) : Host.Outcome State Fault Refusal :=
  next s <| when (s.m.dev.recallDone && !s.m.dev.resetPhase && !s.m.dev.configApplied && s.m.pwr.st ≠ .standby) s.m
    configApply

/-! ### Starting with nothing running (R168 to R172) -/

/-- The ship latch is cleared by what starts the circuit (R168, R170, R490). -/
def leaveShip (m : Mach) (wake : Nat) : Mach :=
  if !m.pwr.shipLatch then m
  else { m with pwr := { m.pwr with st := .run, shipLatch := false, lastWake := wake
                                    counts := m.pwr.counts.modify 7 fun n => satTo 65535 (n + 1) } }

/-- STORE_START (R168): while VPRE is absent, with VSTS at or above 8 000 mV; the ship latch yields to WAKE alone. SYS
rises to the Store's voltage. -/
def execStoreStart (vstsMv : Nat) (wake : Bool) (s : State) : Host.Outcome State Fault Refusal :=
  guardRead true (sysRated vstsMv) s fun m =>
    when (!m.dev.vpreGood && 8000 ≤ vstsMv && (wake || !m.pwr.shipLatch)) m fun m =>
      let m := leaveShip m 6
      { m with path := { m.path with startCkt := true, vstsMv := vstsMv, sysMv := vstsMv } }

/-- SHIP_INPUT_WAKE (R168): an input above 3 000 mV starts the circuit and clears the latch; a Store below 8 000 mV is not
connected. -/
def execShipInputWake (input : Nat) (volts : WakeVolts) (s : State) : Host.Outcome State Fault Refusal :=
  guardRead (input < 6) (vinRated volts.vinMv && sysRated volts.vstsMv) s fun m =>
    when (m.pwr.shipLatch && !m.dev.vpreGood && 3000 < volts.vinMv) m fun m =>
      let m := leaveShip (modInp m input fun x => { x with vinMv := volts.vinMv }) 4
      if 8000 ≤ volts.vstsMv then
        { m with path := { m.path with startCkt := true, vstsMv := volts.vstsMv, sysMv := volts.vstsMv } }
      else m

/-- CABLE_BOOT (R170, R171): a source on a strapped port brings VPRE up over VBOOT. Before the straps are latched the port
may be any that a strap setting selects. -/
def execCableBoot (port vbusMv rp : Nat) (s : State) : Host.Outcome State Fault Refusal :=
  guardRead (port < 48 && rp < 3) (vbusMv ≤ 60000) s fun m =>
    let st := if m.dev.strapsLatched then strapped m.dev.dbp port else port % 2 = 0 || port < 4
    when (!m.dev.vpreGood && st && 4750 ≤ vbusMv && vbusMv ≤ 5500) m fun m =>
      -- the boot path drops at most 150 mV: how much is a free value
      let (n, m) := draw m
      let m := { m with pwr := { m.pwr with lastWake := 7 }, path := { m.path with bootSink := some port }
                        dev := { m.dev with vbootMv := vbusMv - Config.freeNat n % 151 } }
      leaveShip (modPort m port fun x => { x with dead := true, partnerRp := rp, vbsMv := vbusMv }) 7

/-! ### The power-down warning and its save (R443 to R446, R450, R506) -/

/-- A session in progress ends with the device's power; its entry is abandoned (R506). -/
def updEnd (m : Mach) : Mach :=
  let open_ := m.upd.st ≠ .idle && m.upd.st ≠ .done && m.upd.st ≠ .failed
  if !open_ then m
  else
    let r := ringMod m.mbx.ring m.upd.seq fun e =>
      if m.upd.seq ≠ 0 && unfinished e then { e with st := .abandoned, doneMs := nowMs m } else e
    { m with mbx := { m.mbx with ring := r }, upd := { regions := m.upd.regions, ptrBank := m.upd.ptrBank } }

/-- Converters stop (R198, R443, R488); those that ran, or were starting, restart by themselves once SYS is back (R446). A sourcing
port's contract ends with its VBUS. -/
def stopSome (m : Mach) (ks : List Nat) : Mach :=
  let go := ks.filter fun k => k < 54 && ((getCv m k).run || (getCv m k).starting)
  let m := forAll m ks fun m k =>
    let src := k < 48 && (getPort m k).tc = .attachedSrc
    let m := modProt (stopRun m k) k fun x => { x with hiccupAt := none, prebiasAt := none }
    if src then closeSession m k else m
  { m with path := { m.path with warnRestart := m.path.warnRestart.filter (fun k => !go.contains k) ++ go }
           aux := { m.aux with running := false } }

/-- Every converter stops. -/
def stopAll (m : Mach) : Mach := stopSome m (List.range 55)

/-- While SYS lies below VBOOT on a cable boot the warning comes from VBOOT (R170). -/
def warnsFromVboot (m : Mach) : Bool := m.dev.bootCable && vbootFeeds m

/-- A queued host write is dropped with its command (R450). -/
def dropHostWrites (m : Mach) : Mach :=
  let l := m.nvm.queue.filter isHostWrite
  let m := { m with nvm := { m.nvm with queue := m.nvm.queue.filter fun w => !isHostWrite w } }
  l.foldl (fun m w => match w.slot with
    | some s => if (getSlot m s).st = .executing then abandonSlot m s else m
    | none => m) m

/-- The reaction of R443: converters stop, the battery FET keeps its mode; estimator, touch, standby processor and ADC
rotation stop; the save follows. -/
def powerWarning (m : Mach) (hold : List Nat) : Mach :=
  let h := (holder m).getD 2
  let m := updEnd (stopAll m)
  let m := forAll m ([0, 1].filter fun a => a ≠ h) fun m a => modProc m a fun x => { x with halted := true, sync := false }
  let m := { m with dev := { m.dev with warning := true }, est := { m.est with halted := true }
                    adc := { m.adc with rotateAt := none }, ui := { m.ui with frameAt := none } }
  let m := powerDownSave m 2 hold
  dropHostWrites { m with nvm := { m.nvm with saving := some 2 } }

/-- POWER_DOWN_WARNING. -/
def execPowerDownWarning (trigger mv : Nat) (hold : List Nat) (s : State) : Host.Outcome State Fault Refusal :=
  guardUnit (trigger < 3) s fun m =>
    let m := if trigger = 1 then { m with path := { m.path with sysMv := mv } }
      else if trigger = 2 then { m with dev := { m.dev with vbootMv := mv } } else m
    let vb := warnsFromVboot m
    let hit := if trigger = 0 then !vb && mv < 4600 else if trigger = 1 then !vb && mv < m.nvm.pdwSysMv
      else vb && mv < 4500
    when (m.dev.vpreGood && !m.dev.resetPhase && !m.dev.warning && hit) m fun m => powerWarning m hold

/-- The processors that a warning halted run again. -/
def unhalt (m : Mach) : Mach :=
  forAll m [0, 1] fun m a =>
    if m.grd.owner ≠ a + 1 && (getBlk m (procBlk a)).fence.isNone && m.dev.mclk && !m.grd.escHalt then
      modProc m a fun x => { x with halted := false }
    else m

/-- The converters wait for SYS at or above SYS_FOLD (R446). -/
def waitSys (m : Mach) : Mach := { m with path := { m.path with restartWait := true } }

/-- A warning that has cleared (R446). -/
def warningOver (m : Mach) : Mach :=
  let estFenced := (getBlk m blkEst).fence.isSome
  let m := { m with dev := { m.dev with warning := false }, est := { m.est with halted := !m.dev.estclk || estFenced }
                    adc := { m.adc with rotateAt := after m (sec 10) }, ui := { m.ui with frameAt := after m (ms 1) } }
  nvmKick (waitSys (unhalt m))

/-- The ship latch set, the battery FET OFF: VPRE falls and BOR follows (R198, R488). -/
def enterShip (m : Mach) : Mach :=
  let m := setMode m .off
  { m with pwr := { m.pwr with st := .ship, shipLatch := true, stateDue := none }, dev := { m.dev with borDue := some 1 } }

/-- SAVE_COMPLETE (R446, R488, R506). -/
def saveComplete (m : Mach) (ended : Bool) : Mach :=
  match m.nvm.saving with
  | some 2 =>
    if ended && m.dev.vpreGood then warningOver m else { m with dev := { m.dev with borDue := some 2 } }
  | some _ =>
    if m.pwr.stateDue ≠ some 3 then m
    else if anyInput m then waitSys { m with pwr := { m.pwr with stateDue := none } }
    else enterShip m
  | none => m

def execSaveComplete (warningEnded : Bool) (s : State) : Host.Outcome State Fault Refusal :=
  next s <| when (s.m.dev.borDue.isNone && (s.m.dev.warning || s.m.pwr.stateDue = some 3)) s.m fun m =>
    saveComplete m warningEnded

/-- BOOT_SINK_LOSS (R172): before SYS has reached SYS_MIN the device falls back to VBOOT, and saves where that is below
4 500 mV; afterwards it is the sink's detach. -/
def execBootSinkLoss (port sysMv vbootMv : Nat) (hold : List Nat) (s : State) : Host.Outcome State Fault Refusal :=
  guardRead (port < 48) (sysRated sysMv) s fun m => when (m.path.bootSink = some port) m fun m =>
    let m := { m with path := { m.path with sysMv := sysMv }, dev := { m.dev with vbootMv := vbootMv } }
    let m := if (getPort m port).tc = .attachedSnk then sinkStop m port 1 4
      else { m with path := { m.path with bootSink := none, bootCapsAt := none } }
    if sysMv < m.path.sysMin && vbootMv < 4500 && m.dev.vpreGood && !m.dev.resetPhase && !m.dev.warning then
      powerWarning m hold
    else m

/-- CUTOFF (R198, R207): no input and no donor delivers, and the lowest cell has read below VCELL_CUT_MV for 1 s. -/
def cutoff (m : Mach) (cell : Nat) (before during : Bool) (hold : List Nat) : Mach :=
  if feeding m || !m.path.storePresent || (getChg m 0).prof.cut ≤ cell || m.pwr.st = .ship then m
  else
    let m := stopSome m (List.range 48 ++ [54])
    if before then chgEnter (waitSys m) 0 .check
    else
      let m := powerDownSave m 3 hold
      if during then chgEnter (waitSys m) 0 .check
      else
        let m := note m blkStore .cutoff 6
        enterShip { m with pwr := { m.pwr with cutoff := true } }

def execCutoff (cellMv : Nat) (feederBefore feederDuring : Bool) (hold : List Nat) (s : State) :
    Host.Outcome State Fault Refusal :=
  next s (cutoff s.m cellMv feederBefore feederDuring hold)

/-! ### Power states (R486 to R490) -/

/-- A bay is charging (R487). -/
def bayCharging (m : Mach) : Bool := (List.range 48).any fun p => isBay m p && chgPermits (getChg m (p + 1))

/-- An update session is open. -/
def updOpen (m : Mach) : Bool := m.upd.st ≠ .idle && m.upd.st ≠ .done && m.upd.st ≠ .failed

def anyAttached (m : Mach) : Bool := (List.range 48).any fun p => attachedTypeC m p

/-- BOOT_SINK of SRC_PATH_STAT. -/
def bootSinkOn (m : Mach) : Bool := bit (pathStatWord m) 28

/-- PWR_STATE_SET. -/
def cmdPwrStateSet (m : Mach) (s : Nat) (p : List Byte) : Ans :=
  let t := pU p 0 1
  let att := anyAttached m
  let barred := (t = 1 && att) || (t = 2 && (att || anyInput m || bayCharging m || updOpen m))
    || (t = 3 && (anyInput m || att || bootSinkOn m))
  refuseFirst [(3 < t || pU p 2 2 ≠ (if t = 3 then 0xA5C3 else 0), .outOfRange), (barred, .notInState)] <|
    .accepted { m with pwr := { m.pwr with stateDue := some t, stateSeq := (getSlot m s).jseq } }

/-- QUIET entered. -/
def enterQuiet (m : Mach) : Mach := { m with pwr := { m.pwr with st := .quiet } }

/-- What runs stops for STANDBY: converters and their retries, both processors, and the ports' timers and Rp (R488). -/
def standbyStops (m : Mach) : Mach :=
  let m := forAll m (List.range 55) fun m k => modProt (stopRun m k) k fun x => { x with hiccupAt := none, prebiasAt := none }
  let m := dropBib m
  let m := forAll m [0, 1] fun m a => modProc m a fun _ => {}
  forAll m (List.range 48) fun m p => modPort m p fun x =>
    { x with toggleAt := none, debounceAt := none, tryAt := none, checkAt := none, checkEndAt := none, rp := 0 }

/-- STANDBY entered (R412, R486): every converter stopped, the processors powered down, no Bib, both watchdogs off, the
battery FET in DIODE. -/
def enterStandby (m : Mach) : Mach :=
  let m := standbyStops m
  let w := m.wds
  let wake := if bit m.pwr.wakeEn 4 && m.pwr.wakeTimerS ≠ 0 then after m (sec m.pwr.wakeTimerS) else none
  let m := { m with
    wds := { w with enabled := false, periodAt := none, passed := 0, doubled := 0 }
    wdh := { m.wdh with st := .off, waiting := false, firstKey := none }
    adc := { m.adc with rotateAt := none }, ui := { m.ui with frameAt := none }
    aux := { m.aux with running := false }
    pwr := { m.pwr with st := .standby, wakeAt := wake } }
  if m.path.storePresent && (getBlk m blkStore).fence.isNone then setMode m .diode else m

/-- STANDBY left (R412, R488): the processors start as after SWR and a holder takes the Bib; WDH takes its state as after a
PIN reset and its count starts. Nothing is counted as a reset. -/
def leaveStandby (m0 : Mach) (wake : Nat) : Mach :=
  let p := m0.pwr
  let m := stationReset m0 .swr true
  let w := resetWdh m0 .pin
  let m := { m with
    host := m0.host, dev := { m.dev with resetPhase := false }
    pwr := { p with st := .run, lastWake := if wake = 0 then p.lastWake else wake, wakeAt := none, stateDue := none }
    wdh := { w with waiting := false, cfgKnown := m.dev.recallDone } }
  let m := { m with grd := { m.grd with afterReset := false } }
  configApply (procStart m)

/-- What a command, a wake source or an activity ends (R488). -/
def leaveLow (m : Mach) (wake : Nat) : Mach :=
  match m.pwr.st with
  | .quiet => { m with pwr := { m.pwr with st := .run } }
  | .standby => leaveStandby m wake
  | _ => m

/-- The accepted state change is made (R487, R488). The entry of SHIP is closed before its save, so that the save holds it. -/
def stateGo (m : Mach) : Mach :=
  match m.pwr.stateDue with
  | none => m
  | some t =>
    let m := closeEntry m m.pwr.stateSeq 0 0
    if t = 3 then
      let m := powerDownSave (stopAll m) 3 []
      { m with nvm := { m.nvm with saving := some 3 } }
    else
      let m := { m with pwr := { m.pwr with stateDue := none } }
      if t = 2 then enterStandby m else if t = 1 then enterQuiet m else leaveLow m 0

/-- The row of PWR_STATE_SET: the answer first, then the change. -/
def pwrStateSet (m : Mach) (slot : Nat) : Mach :=
  if m.pwr.stateDue.isSome then execute m 0x0201 slot cmdPwrStateSet
  else stateGo (execute m 0x0201 slot cmdPwrStateSet)

def execPwrStateSet (slot : Nat) (s : State) : Host.Outcome State Fault Refusal :=
  guardUnit (slot < 5) s fun m => pwrStateSet m slot

/-- QUIET_AUTO (R487): QUIET_AFTER_S without an attached Type-C port, a charging bay or a touch. -/
def execQuietAuto (s : State) : Host.Outcome State Fault Refusal :=
  let idle (m : Mach) : Bool :=
    !anyAttached m && (List.range 48).all fun p =>
      (!isBay m p || bayEmpty m p || (getChg m (p + 1)).st = .done) && !(getKey m p).pressed
  next s <| when (s.m.pwr.st = .run && s.m.pwr.quietAfterS ≠ 0 && s.m.dev.configApplied && holderRuns s.m && idle s.m)
    s.m enterQuiet

/-- QUIET_EXIT (R488). -/
def execQuietExit (s : State) : Host.Outcome State Fault Refusal :=
  next s <| when (s.m.pwr.st = .quiet) s.m fun m => leaveLow m 0

/-- STANDBY_WAKE (R488, R489): an enabled source, or the WAKE pin. -/
def execStandbyWake (source : Nat) (s : State) : Host.Outcome State Fault Refusal :=
  guardUnit (source < 7) s fun m =>
    let en := source = 0 || source = 6 || bit m.pwr.wakeEn (source - 1)
    when (m.pwr.st = .standby && en) m fun m => leaveStandby m source

/-- WAKE_TIMER (R489). -/
def execWakeTimer (s : State) : Host.Outcome State Fault Refusal :=
  next s <| when (s.m.pwr.st = .standby) s.m fun m => fire m m.pwr.wakeAt fun m => leaveStandby m 5

/-- STANDBY_COUNT_SAMPLE (R488): a second of STANDBY; the Store's charge goes on being counted (R323, R324). -/
def standbySample (m : Mach) (ma : Int) : Mach :=
  let dq := 1000 * ma
  let m := { m with est := { m.est with acc := tupd m.est.acc 0 fun a => a + dq }
                    pwr := { m.pwr with standbyS := satTo 0xFFFFFFFF (m.pwr.standbyS + 1) } }
  forAll m (storeCtxs m) fun m x =>
    modCtx m x fun c =>
      let q : Rat := qMaMs c
      if q = 0 then c
      else
        let s := c.soc + etaOf (getChg m 0).prof.chem (0 < dq) * dq / q
        { c with soc := if s < 0 then 0 else if 1 < s then 1 else s
                 sigma := c.sigma + (5 / 1000) * (dq.natAbs : Rat) / q + 5000 / q, anchorAge := c.anchorAge + 1000 }

def execStandbyCountSample (storeMa : Int) (s : State) : Host.Outcome State Fault Refusal :=
  next s <| when (s.m.pwr.st = .standby) s.m fun m => standbySample m storeMa

/-- PWR_WAKE_CFG without its retention write (R489). -/
def setWakeCfg (m : Mach) (p : List Byte) : Ans :=
  let q := pU p 2 2
  let t := pU p 4 4
  refuseFirst [(31 < pU p 0 1 || !(q = 0 || within q 10 3600) || !(t = 0 || within t 1 604800), .outOfRange)] <|
    .ok { m with pwr := { m.pwr with wakeEn := pU p 0 1, quietAfterS := q, wakeTimerS := t } } []

def cmdPwrWakeCfg (m : Mach) (_ : Nat) (p : List Byte) : Ans := persist 0x0204 0 p (setWakeCfg m p)

def execPwrWakeCfg (slot : Nat) (s : State) := command 0x0204 slot cmdPwrWakeCfg s

def pwrStCode : PwrState → Nat
  | .run => 0 | .quiet => 1 | .standby => 2 | .ship => 3

/-- PWR_STAT_GET (R490). -/
def cmdPwrStatGet (m : Mach) (_ : Nat) (_ : List Byte) : Ans :=
  let w := m.pwr
  .ok m (le 1 (pwrStCode w.st) ++ le 1 w.lastReset ++ le 1 w.lastWake ++ le 1 (satTo 255 (escRecent m).length)
    ++ (w.counts.flatMap fun n => le 2 n) ++ le 4 w.standbyS ++ le 1 w.borCause ++ [0, 0, 0])

def execPwrStatGet (slot : Nat) (s : State) := command 0x0203 slot cmdPwrStatGet s

/-! ### PWR_RESET and the block resets (R482, R483) -/

/-- How long a block reset takes at most (R483); none for a block it does not apply to. -/
def blkResetNs (b : Nat) : Option Nat :=
  if 0x70 ≤ b && b < 0x78 then some (ms 20) else if b = blkEst then some (ms 150) else if b = blkUsb then some (ms 5)
  else if b = blkUi then some (ms 5) else if b = blkPtb then some (ms 1) else none

/-- The siblings of core `k` have room for its ports (R288). -/
def canMove (m : Mach) (k : Nat) : Bool :=
  let sib := (List.range 8).filter fun j => j / 4 = k / 4 && j ≠ k && coreOk m j
  (corePorts m k).length ≤ (sib.map fun j => 12 - (corePorts m j).length).sum

/-- The ports of a core moved to its siblings (R290). -/
def moveOff (m : Mach) (k : Nat) : Mach :=
  forAll m (corePorts m k) fun m p => match siblingFor m k with
    | some j => takeOver m p j
    | none => m

/-- A block reset begins (R483). -/
def blkReset (m : Mach) (b : Nat) : Mach :=
  let m := { m with pwr := { m.pwr with
      blkAt := m.pwr.blkAt.filter (fun x => x.1 ≠ b) ++ [(b, m.dev.now + (blkResetNs b).getD 0)]
      counts := m.pwr.counts.modify 5 fun n => satTo 65535 (n + 1) } }
  let m := if 0x70 ≤ b && b < 0x78 then moveOff m (b - 0x70) else m
  let m := modBlk m b fun w => { w with resetting := true }
  if b = blkEst then { m with est := { m.est with halted := true } }
  else if b = blkUsb then stavskaEnd m 9
  else if b = blkUi then { m with ui := { m.ui with keys := tmap m.ui.keys fun _ x => resetKey x .swr, frames := 0 } }
  else if b = blkPtb then ptbEndAll m
  else m

/-- A block has come out of its reset: its fence and LIVE causes are gone, and it runs the image its pointer names (R382,
R494). -/
def blkEnd (m : Mach) (b : Nat) : Mach :=
  let m := modBlk m b fun w => { w with resetting := false, fence := none, live := [] }
  let m := { m with pwr := { m.pwr with blkAt := m.pwr.blkAt.filter fun x => x.1 ≠ b } }
  if 0x70 ≤ b && b < 0x78 then
    match bootBank m 2 with
    | some k => modCore m (b - 0x70) fun _ => coreFrom m k
    | none => coreFence (note m b .badCrc 5) (b - 0x70) (codeOf .badCrc)
  else if b = blkEst then
    match bootBank m 3 with
    | some _ =>
      let m := { m with est := { m.est with halted := !m.dev.estclk } }
      forAll m ((List.range 272).filter fun x => (getCtx m x).active) filterInit
    | none => markFence (note m b .badCrc 5) b (codeOf .badCrc)
  else m

/-- BLK_DONE. -/
def execBlkDone (block : Nat) (s : State) : Host.Outcome State Fault Refusal :=
  guardUnit ((blkResetNs block).isSome) s fun m =>
    fire m ((m.pwr.blkAt.find? fun x => x.1 = block).map (·.2)) fun m => blkEnd m block

/-- A unit that an update in progress is using (R482). -/
def updUses (m : Mach) (kind unit_ : Nat) : Bool :=
  let on := m.upd.st = .applying || m.upd.st = .probation
  on && ((kind = 1 && m.upd.kind = 1)
    || (kind = 2 && m.upd.kind = 2 && 0x70 ≤ unit_ && unit_ < 0x78
        && (m.upd.coresLeft ++ m.upd.coresDone).contains (unit_ - 0x70))
    || (kind = 2 && m.upd.kind = 3 && unit_ = blkEst))

/-- PWR_RESET: answered OK; the reset follows (R482). -/
def cmdPwrReset (m : Mach) (_ : Nat) (p : List Byte) : Ans :=
  let k := pU p 0 1
  let u := pU p 1 1
  let okUnit := if k = 0 then u = 0 else if k = 2 then (blkResetNs u).isSome else u < 2
  refuseFirst
    [(3 < k || !okUnit || pU p 2 2 ≠ 0xA5C3, .outOfRange),
     ((k = 1 && m.grd.owner = u + 1) || updUses m k u || (k = 2 && 0x70 ≤ u && u < 0x78 && !canMove m (u - 0x70)),
       .notInState)] <|
    .ok { m with pwr := { m.pwr with resetDue := some (k, u) } } []

/-- The reset that has fallen due. -/
def resetGo (m : Mach) : Mach :=
  match m.pwr.resetDue with
  | none => m
  | some (k, u) =>
    let m := { m with pwr := { m.pwr with resetDue := none } }
    if k = 0 then stationReset m .swr true else if k = 1 then pprDo m u else if k = 2 then blkReset m u else ferAsk m u

def execPwrReset (slot : Nat) (s : State) : Host.Outcome State Fault Refusal :=
  guardUnit (slot < 5) s fun m => resetGo (execute m 0x0202 slot cmdPwrReset)

end Machine
end Sys2Proof
end

