-- ==== Sys2Proof/Machine/Update.lean ====
section
/-! DEFINITION. Sys2Proof/Machine/Update.lean: Zynvo containers and the live updates of policy firmware, PD firmware,
estimator microcode and Guard limits (R493 to R501, R506). STEP counts as in the procedure of the kind: a policy update's
steps are R498's; of the others 1 is the preparation, 4 a PD core's probation, 6 the pointer write, and 9 says that the
update has failed and what it changed is yet to be reloaded (log entry 23). -/
namespace Sys2Proof
namespace Machine

/-! ### Containers (R493 to R495) -/

/-- Bytes of a kind's region (R495). -/
def regionSize (kind : Nat) : Nat :=
  if kind = 1 then 1536 * 1024 else if kind = 2 then 256 * 1024 else if kind = 3 then 128 * 1024 else 4096

/-- The bank an update writes: the one the pointer does not name. -/
def stagedBank (m : Mach) (kind : Nat) : Nat := 1 - ptrOf m kind

/-- LAYOUT of a region. -/
def regionLayout (m : Mach) (kind bank : Nat) : Nat :=
  let r := regionOf m kind bank
  if r.bytes.isEmpty then (Config.layout kind).toNat else r.layout

/-- The bank of the policy firmware that the holder runs. -/
def policyBank (m : Mach) : Nat :=
  let img := match holder m with
    | some a => (getProc m a).image
    | none => 0
  if img = 0 then ptrOf m 1 else stagedBank m 1

/-- VERSION of the policy firmware that the holder runs. -/
def runningPolicy (m : Mach) : Nat := regionVersion m 1 (policyBank m)

/-- The verdict of R494 on the bytes of a container, as VERDICT of R497 codes it. -/
def verdictFor (m : Mach) (kind : Nat) (b : List Byte) : Nat :=
  let len := pU b 24 4
  let oem := (pU b 60 32, pU b 92 32)
  let root := (Config.vendorRootX.toNat, Config.vendorRootY.toNat)
  if pU b 0 4 ≠ 0x564E595A ∨ pU b 4 1 ≠ 1 ∨ pU b 5 1 ≠ kind ∨ b.length ≠ 256 + len ∨ regionSize kind < b.length then 2
  else if !bit (pU b 6 2) 3 then 3
  else if !sigOk root (bytesAt b 60 64 ++ bytesAt b 6 2) (bytesAt b 124 64) then 4
  else if sha256 (bytesAt b 192 len) ≠ bytesAt b 28 32 then 5
  else if !sigOk oem (b.take 192) (bytesAt b (192 + len) 64) then 6
  else if pU b 12 4 < arbVersion m then 7
  else if runningPolicy m < pU b 16 4 ∨ ((kind = 2 ∨ kind = 4) ∧ pU b 20 2 ≠ regionLayout m kind (ptrOf m kind)) then 8
  else 1

/-! ### Commands (R496, R497) -/

/-- The PD cores an update's TARGET names. -/
def targetCores (t : Nat) : List Nat := if t = 0xFF then List.range 8 else [t]

/-- UPD_BEGIN: the staged region is erased. -/
def cmdUpdBegin (m : Mach) (_ : Nat) (p : List Byte) : Ans :=
  let k := pU p 0 1
  let t := pU p 1 1
  let size := pU p 4 4
  refuseFirst
    [(!within k 1 4 || !(t = 0xFF || (k = 2 && t < 8)) || !within size 256 (regionSize k), .outOfRange),
     (updOpen m, .busy)] <|
    let m := modRegion m k (stagedBank m k) fun _ => {}
    .ok { m with upd := { regions := m.upd.regions, ptrBank := m.upd.ptrBank, st := .receiving, kind := k, target := t
                          size := size } } []

def execUpdBegin (slot : Nat) (s : State) := command 0x0F01 slot cmdUpdBegin s

/-- UPD_DATA. -/
def cmdUpdData (m : Mach) (_ : Nat) (p : List Byte) : Ans :=
  let n := pU p 4 2
  let u := m.upd
  refuseFirst
    [(!within n 1 1000 || pU p 0 4 ≠ u.received || (u.st = .receiving && u.size < u.received + n), .outOfRange),
     (u.st ≠ .receiving, .notInState)] <|
    let m := modRegion m u.kind (stagedBank m u.kind) fun r => { r with bytes := r.bytes ++ bytesAt p 8 n }
    .ok { m with upd := { m.upd with received := u.received + n } } []

def execUpdData (slot : Nat) (s : State) := command 0x0F02 slot cmdUpdData s

/-- The conditions of the kind's procedure (R498, R499). -/
def commitReady (m : Mach) : Bool :=
  let u := m.upd
  let staged := (regionOf m u.kind (stagedBank m u.kind)).bytes
  if u.kind = 1 then
    (match holder m with
      | some h => standbyReady m h
      | none => false) && !m.grd.hold && m.grd.handover.isNone && m.grd.failingProc.isNone
  else if u.kind = 2 then
    (targetCores u.target).all (fun k => canMove m k) && pU staged 20 2 = regionLayout m 2 (ptrOf m 2)
  else true

/-- UPD_COMMIT: the outcome is journalled, with the verdict in DETAIL. -/
def cmdUpdCommit (m : Mach) (s : Nat) (_ : List Byte) : Ans :=
  let u := m.upd
  refuseFirst [(u.st ≠ .receiving || u.received ≠ u.size || !commitReady m, .notInState)] <|
    .accepted { m with upd := { u with st := .verifying, step := 1, seq := (getSlot m s).jseq } }

def execUpdCommit (slot : Nat) (s : State) := command 0x0F03 slot cmdUpdCommit s

/-- The kind's point of no return has passed (R498 to R501). -/
def noReturn (m : Mach) : Bool :=
  let u := m.upd
  match u.st with
  | .probation => true
  | .applying =>
    if u.kind = 1 then 4 ≤ u.step else if u.kind = 2 then !u.coresDone.isEmpty || u.step = 9
    else if u.kind = 3 then 2 ≤ u.step else 3 ≤ u.step
  | _ => false

/-- UPD_ABORT: a standby on the staged image returns to the pointer's. -/
def cmdUpdAbort (m : Mach) (_ : Nat) (_ : List Byte) : Ans :=
  refuseFirst [(!updOpen m || noReturn m, .notInState)] <|
    let m := if policyUpd m then
        let a := match holder m with
          | some h => 1 - h
          | none => 1
        let m := { m with grd := { m.grd with handover := if m.grd.handover = some 0 then none else m.grd.handover } }
        if (getProc m a).image = 1 then pprDo m a else m
      else m
    .ok (updFail { m with grd := { m.grd with shadow := none } } 12) []

def execUpdAbort (slot : Nat) (s : State) := command 0x0F04 slot cmdUpdAbort s

def updStCode : UpdState → Nat
  | .idle => 0 | .receiving => 1 | .verifying => 2 | .applying => 3 | .probation => 4 | .done => 5 | .failed => 6

/-- UPD_STAT_GET (R497). -/
def cmdUpdStatGet (m : Mach) (_ : Nat) (_ : List Byte) : Ans :=
  let u := m.upd
  .ok m (le 1 (updStCode u.st) ++ le 1 u.kind ++ le 1 u.verdict ++ le 1 u.step ++ le 4 u.size ++ le 4 u.received
    ++ le 4 (arbVersion m)
    ++ (List.range 4).flatMap fun i =>
        let k := i + 1
        let b := ptrOf m k
        le 1 b ++ [0, 0, 0] ++ le 4 (regionVersion m k b) ++ le 4 (regionVersion m k (1 - b)))

def execUpdStatGet (slot : Nat) (s : State) := command 0x0F05 slot cmdUpdStatGet s

/-! ### Verification (R494) -/

/-- A processor takes a PPR onto the staged region (R498). -/
def pprStaged (m : Mach) (a : Nat) : Mach :=
  let m := modBlk m (procBlk a) fun w => { w with fence := none }
  let m := modProc m a fun _ => { running := m.dev.mclk, image := 1 }
  { m with pwr := { m.pwr with counts := m.pwr.counts.modify 4 fun n => satTo 65535 (n + 1) } }

/-- UPD_VERIFY_DONE. -/
def updVerifyDone (m : Mach) : Mach :=
  let u := m.upd
  if u.st ≠ .verifying then m
  else
    let v := verdictFor m u.kind (regionOf m u.kind (stagedBank m u.kind)).bytes
    if v ≠ 1 then updFail m v
    else
      let m := modRegion m u.kind (stagedBank m u.kind) fun r =>
        { r with version := pU r.bytes 8 4, arb := pU r.bytes 12 4, layout := pU r.bytes 20 2 }
      let m := { m with upd := { m.upd with st := .applying, verdict := 1, step := 1 } }
      if u.kind = 1 then
        match holder m with
        | none => updFail m 9
        | some h =>
          let m := pprStaged m (1 - h)
          { m with upd := { m.upd with step := 2, timerAt := after m (sec 2) } }
      else if u.kind = 2 then { m with upd := { m.upd with coresLeft := targetCores u.target } }
      else m

def execUpdVerifyDone (s : State) : Host.Outcome State Fault Refusal := next s (updVerifyDone s.m)

/-! ### Policy firmware (R498) -/

/-- UPD_SYNC_TIMEOUT: the standby returns to the pointer's region. -/
def updSyncTimeout (m : Mach) : Mach :=
  let a := match holder m with
    | some h => 1 - h
    | none => 1
  updFail (pprDo m a) 9

def execUpdSyncTimeout (s : State) : Host.Outcome State Fault Refusal :=
  next s <| when (s.m.upd.kind = 1 && s.m.upd.st = .applying && s.m.upd.step = 2) s.m fun m =>
    fire m m.upd.timerAt updSyncTimeout

/-- UPD_PROBATION_END: the former holder takes a PPR onto the new image. -/
def updProbationEnd (m : Mach) : Mach :=
  let m := if m.upd.former = 0 then m else pprStaged m (m.upd.former - 1)
  { m with upd := { m.upd with step := 5, timerAt := none } }

def execUpdProbationEnd (s : State) : Host.Outcome State Fault Refusal :=
  next s <| when (s.m.upd.kind = 1 && s.m.upd.st = .probation && s.m.upd.step = 4) s.m fun m =>
    fire m m.upd.timerAt updProbationEnd

/-! ### The pointer (R495) -/

/-- The kind's procedure has come to its pointer write. -/
def pointerDue (m : Mach) : Bool :=
  let u := m.upd
  if u.kind = 1 then
    u.st = .probation && u.step = 5 && u.former ≠ 0 && (getProc m (u.former - 1)).sync
  else if u.kind = 4 then u.st = .applying && u.step = 3
  else u.st = .applying && u.step = 6

/-- UPD_POINTER_WRITE: pointer and ARB_VERSION are written, and the entry becomes DONE. -/
def pointerWrite (m : Mach) : Mach :=
  let u := m.upd
  let b := stagedBank m u.kind
  let m := modRegion m u.kind b fun r => { r with bootable := true }
  let m := { m with
    upd := { m.upd with ptrBank := tupd m.upd.ptrBank (u.kind - 1) fun _ => b }
    nvm := ctrRaise m.nvm 1 (regionOf m u.kind b).arb }
  let m := if u.kind = 1 then forAll m [0, 1] fun m a => modProc m a fun x => { x with image := 0 } else m
  let m := closeEntry m u.seq 0 1
  { m with upd := { m.upd with st := .done, verdict := 1, step := 6, timerAt := none } }

def execUpdPointerWrite (s : State) : Host.Outcome State Fault Refusal :=
  next s <| when (pointerDue s.m) s.m pointerWrite

/-! ### PD firmware (R499) -/

/-- A core takes a BLK onto the image of a bank: its ports move to siblings and back; a core that is fenced has none. -/
def reloadCore (m : Mach) (k bank version : Nat) : Mach :=
  let ports := corePorts m k
  let m := moveOff m k
  let m := modCore m k fun _ => { bank := bank, fwMajor := version / 2 ^ 24 % 256, fwMinor := version / 2 ^ 16 % 256 }
  let m := { m with pwr := { m.pwr with counts := m.pwr.counts.modify 5 fun n => satTo 65535 (n + 1) } }
  if (getBlk m (0x70 + k)).fence.isSome then m else forAll m ports fun m p => takeOver m p k

/-- An update of PD firmware that has failed: every core already updated is reloaded from the pointer's region. -/
def pdUpdBack (m : Mach) : Mach :=
  let b := ptrOf m 2
  let v := regionVersion m 2 b
  updFail (forAll m m.upd.coresDone fun m k => reloadCore m k b v) 10

/-- The link of a die is down. -/
def dieDown (m : Mach) (d : Nat) : Bool :=
  (getBlk m (blkLinkE + d)).fence.isSome || (getBlk m (blkLinkE + d)).resetting

/-- PD_UPD_CORE_STEP: the next core; a failed update waits for its die to rejoin (R506). -/
def pdUpdCoreStep (m : Mach) : Mach :=
  let u := m.upd
  if u.kind ≠ 2 then m
  else if u.step = 9 && (u.st = .applying || u.st = .probation) then
    (if (u.coresDone ++ u.coresLeft).any fun k => dieDown m (k / 4) then m else pdUpdBack m)
  else if u.st ≠ .applying || u.step ≠ 1 then m
  else match u.coresLeft with
    | [] => m
    | k :: l =>
      if !canMove m k || dieDown m (k / 4) || (getBlk m (0x70 + k)).fence.isSome then m
      else
        let b := stagedBank m 2
        let m := reloadCore m k b (regionOf m 2 b).version
        { m with upd := { m.upd with st := .probation, step := 4, coresLeft := l, coresDone := u.coresDone ++ [k]
                                     timerAt := after m (sec 10) } }

def execPdUpdCoreStep (s : State) : Host.Outcome State Fault Refusal := next s (pdUpdCoreStep s.m)

/-- PD_UPD_PROBATION_END. -/
def pdUpdProbationEnd (m : Mach) : Mach :=
  { m with upd := { m.upd with st := .applying, timerAt := none, step := if m.upd.coresLeft.isEmpty then 6 else 1 } }

def execPdUpdProbationEnd (s : State) : Host.Outcome State Fault Refusal :=
  next s <| when (s.m.upd.kind = 2 && s.m.upd.st = .probation && s.m.upd.step = 4) s.m fun m =>
    fire m m.upd.timerAt pdUpdProbationEnd

/-! ### Estimator microcode (R500) -/

/-- Every active filter starts again where the layout of the contexts changes; no FILTER_RESET is recorded. -/
def estSwap (m : Mach) : Mach :=
  if regionLayout m 3 0 = regionLayout m 3 1 then m
  else forAll m ((List.range 272).filter fun x => (getCtx m x).active) filterInit

/-- EST_UCODE_SWAP: at a 10 Hz boundary. -/
def execEstUcodeSwap (s : State) : Host.Outcome State Fault Refusal :=
  next s <| when (s.m.upd.kind = 3 && s.m.upd.st = .applying && s.m.upd.step = 1) s.m fun m =>
    let m := estSwap m
    { m with upd := { m.upd with st := .probation, step := 2, resets := [], timerAt := after m (sec 60) } }

/-- EST_UCODE_PROBATION_END: more than 8 contexts with FILTER_RESET bring the pointer's region back, also before the 60 s
are over. -/
def execEstUcodeProbationEnd (s : State) : Host.Outcome State Fault Refusal :=
  next s <| when (s.m.upd.kind = 3 && s.m.upd.st = .probation) s.m fun m =>
    if 8 < m.upd.resets.length then updFail (estSwap m) 10
    else fire m m.upd.timerAt fun m => { m with upd := { m.upd with st := .applying, step := 6, timerAt := none } }

/-! ### Guard limits (R501) -/

/-- The Guard's fixed bounds. -/
def limitsOk (t : Limits) : Bool :=
  within t.vcs 5500 55000 && within t.syss 60500 63000 && within t.critHi 60500 63000 && within t.auxs 5500 63000
    && within t.critLo 4500 20000 && t.peaks.all fun x => within x 1000 60000

/-- VCS of a running port converter, or AUXS, as its V loop read it last. -/
def nodeMv (m : Mach) (k : Nat) : Nat := ((tget (getCv m k).ctrl.loops {} 0).y.headD 0 / 65536).toNat

/-- No node's last sample lies above 98 % of its new ceiling. -/
def limitsFit (m : Mach) (t : Limits) : Bool :=
  (runningSources m).all (fun k => 100 * nodeMv m k ≤ 98 * t.vcs) && 100 * m.path.sysMv ≤ 98 * t.syss
    && (!(getCv m 54).run || 100 * nodeMv m 54 ≤ 98 * t.auxs)

/-- LIMITS_PREPARE. -/
def limitsPrepare (m : Mach) : Mach :=
  let u := m.upd
  if u.kind ≠ 4 || u.st ≠ .applying || !holderRuns m || !(u.step = 1 || (u.step = 2 && u.former ≠ m.grd.owner)) then m
  else
    let t := limitsOf ((regionOf m 4 (stagedBank m 4)).bytes.drop 192)
    if limitsOk t && limitsFit m t then
      { m with grd := { m.grd with shadow := some t }, upd := { m.upd with step := 2, former := m.grd.owner } }
    else updFail { m with grd := { m.grd with shadow := none } } 11

def execLimitsPrepare (s : State) : Host.Outcome State Fault Refusal := next s (limitsPrepare s.m)

/-- LIMITS_COMMIT: the holder's control-plane write. -/
def execLimitsCommit (s : State) : Host.Outcome State Fault Refusal :=
  next s <| when (s.m.upd.kind = 4 && s.m.upd.st = .applying && s.m.upd.step = 2 && holderRuns s.m) s.m limitsSwap

end Machine
end Sys2Proof
end

