-- ==== Sys2Proof/Machine/Service.lean ====
section
/-! DEFINITION. Sys2Proof/Machine/Service.lean: the Stavska link and its serial stream, the technician's authentication, the
boundary-scan port, and the perturbation unit (chapter 19). -/
namespace Sys2Proof
namespace Machine

/-! ### Arming and starting the link (R507 to R509) -/

/-- SVC_LINK_ARM. -/
def cmdSvcLinkArm (m : Mach) (_ : Nat) (p : List Byte) : Ans :=
  let q := pU p 0 1
  refuseFirst [(47 < q, .outOfRange), (armBarred m q || (getPort m q).mode = 0, .notInState)] <| .ok (arm m q) []

def execSvcLinkArm (slot : Nat) (s : State) := command 0x1001 slot cmdSvcLinkArm s

/-- An armed port may start the link: attached, with a contract, as UFP, and no link exists (R508). -/
def linkReady (m : Mach) (p : Nat) : Bool :=
  m.svc.armPort = some p && m.svc.link = 0 && attachedTypeC m p && (getPd m p).contract && !(getPd m p).dfp
    && m.dev.usbclk && !(getBlk m blkUsb).resetting

/-- STAVSKA_LINK_START (R508, R509): the DCP short opens, the function is connected and applies its pull-up. -/
def linkStart (m : Mach) (p : Nat) : Mach :=
  dcpEval
    { m with svc := { m.svc with
        link := 2, port := p, pullup := true, configured := false, linkStart := m.dev.now, frames := 0, authFails := 0
        lockoutAt := none, noPdAt := none, swapAt := none, enumAt := after m (sec 10), idleAt := after m (sec 1800) } } p

def execStavskaLinkStart (port : Nat) (s : State) : Host.Outcome State Fault Refusal :=
  guardUnit (port < 48) s fun m => when (linkReady m port) m fun m => linkStart m port

/-- STAVSKA_SWAP_RETRY (R508): 1 s after a Reject or Wait. -/
def execStavskaSwapRetry (port : Nat) (s : State) : Host.Outcome State Fault Refusal :=
  guardUnit (port < 48) s fun m => when (m.svc.armPort = some port) m fun m => fire m m.svc.swapAt fun m =>
    stavskaKick { m with svc := { m.svc with swapAt := none } } port

/-- STAVSKA_NO_PD (R508): no contract within 1 s of the attach; power and arm stay. -/
def execStavskaNoPd (port : Nat) (s : State) : Host.Outcome State Fault Refusal :=
  guardUnit (port < 48) s fun m => when (m.svc.armPort = some port) m fun m => fire m m.svc.noPdAt fun m =>
    { m with svc := { m.svc with noPdAt := none, lastFail := if (getPd m port).contract then m.svc.lastFail else 1 } }

/-- USB_SET_CONFIGURATION (R509): the link runs. -/
def execUsbSetConfiguration (s : State) : Host.Outcome State Fault Refusal :=
  next s <| when (s.m.svc.link = 2) s.m fun m => { m with svc := { m.svc with link := 3, configured := true, enumAt := none } }

/-- ENUM_TIMEOUT (R509). -/
def execEnumTimeout (s : State) : Host.Outcome State Fault Refusal :=
  next s <| when (s.m.svc.link = 2) s.m fun m => fire m m.svc.enumAt fun m => stavskaEnd m 3

/-! ### Frames on the stream (R510) -/

/-- STAVSKA_FRAME: the frame read after its sync bytes; bytes of a frame still incomplete wait for the rest of it. -/
def stavskaFrame (m : Mach) (bytes : List Byte) : Mach :=
  let bs := m.svc.frameBuf ++ bytes
  let len := pU bs 8 2
  if bs.length < 16 || (len ≤ 1008 && bs.length < 16 + len) then
    { m with svc := { m.svc with frameBuf := bs
                                 frameAt := if m.svc.frameBuf.isEmpty then after m (ms 100) else m.svc.frameAt } }
  else
    let m := { m with svc := { m.svc with
        frames := satTo 0xFFFFFFFF (m.svc.frames + 1), frameAt := none, frameBuf := [], idleAt := after m (sec 1800) } }
    if 1008 < len then streamOut m (responseFrame bs 4 .badLen 0 [])
    else if (getSlot m 4).st ≠ .empty then streamOut m (responseFrame bs 4 .busy 0 [])
    else
      let m := slotPut m 4 0 (bs.take (16 + len))
      let m := modSlot m 4 fun x => { x with st := .submitted }
      { m with mbx := { m.mbx with order := m.mbx.order ++ [4] } }

def execStavskaFrame (bytes : List Nat) (s : State) : Host.Outcome State Fault Refusal :=
  guardUnit (bytes.all fun b => b < 256) s fun m => when (m.svc.link = 3) m fun m =>
    stavskaFrame m (bytes.map (BitVec.ofNat 8))

/-- STAVSKA_FRAME_TIMEOUT: the incomplete frame is discarded. -/
def execStavskaFrameTimeout (s : State) : Host.Outcome State Fault Refusal :=
  next s <| fire s.m s.m.svc.frameAt fun m => { m with svc := { m.svc with frameAt := none, frameBuf := [] } }

/-! ### Ending the link (R514) -/

/-- STAVSKA_IDLE: 30 min with no frame received. -/
def execStavskaIdle (s : State) : Host.Outcome State Fault Refusal :=
  next s <| when (s.m.svc.link ≠ 0) s.m fun m => fire m m.svc.idleAt fun m => stavskaEnd m 7

/-- STAVSKA_LINK_END: the reasons of R515 that end a link. -/
def execStavskaLinkEnd (reason : Nat) (s : State) : Host.Outcome State Fault Refusal :=
  guardUnit (4 ≤ reason && reason ≤ 9) s fun m => stavskaEnd m reason

/-- SVC_LINK_STOP: its own response goes first. -/
def svcLinkStop (m : Mach) (s : Nat) : Mach :=
  if ready m 0x1002 s then stavskaEnd (execute m 0x1002 s fun m _ _ => .ok m []) 8 else m

def execSvcLinkStop (slot : Nat) (s : State) : Host.Outcome State Fault Refusal :=
  guardUnit (slot < 5) s fun m => svcLinkStop m slot

/-! ### Technician authentication (R512, R513) -/

/-- SVC_AUTH_CHALLENGE: a fresh nonce, good for 30 s; the previous one is void. -/
def cmdSvcAuthChallenge (m : Mach) (_ : Nat) (_ : List Byte) : Ans :=
  let (n, m) := draw m
  let x := Config.nonce n
  .ok { m with svc := { m.svc with nonce := some x, nonceAt := after m (sec 30) } } (le 32 x.toNat ++ le 8 Config.uid.toNat)

def execSvcAuthChallenge (slot : Nat) (s : State) := command 0x1003 slot cmdSvcAuthChallenge s

/-- OEM_KEY of the running policy firmware image (R493): of the container it was loaded from. -/
def oemKey (m : Mach) : Nat × Nat :=
  let b := (regionOf m 1 (policyBank m)).bytes
  if b.isEmpty then (Config.oemKeyX.toNat, Config.oemKeyY.toNat) else (pU b 60 32, pU b 92 32)

/-- The issuer key a certificate names (R512). -/
def issuerKey (m : Mach) (issuer : Nat) : Option (Nat × Nat) :=
  if issuer = 0 then some (Config.vendorRootX.toNat, Config.vendorRootY.toNat)
  else if issuer = 1 then some (oemKey m) else none

/-- The verdict on a certificate and a signature over a nonce (R513). -/
def techVerdict (m : Mach) (cert sig : List Byte) : Nat :=
  match m.svc.nonce with
  | none => 1
  | some n =>
    let perms := pU cert 9 1
    let par := pU cert 10 1
    match decompress (ofLe (bytesAt cert 12 32)) par, issuerKey m (pU cert 8 1) with
    | some key, some ca =>
      if !bit perms 0 || 3 < perms || 1 < par || pU cert 11 1 ≠ 0 then 2
      else if !sigOk ca (cert.take 44) (bytesAt cert 44 64) then 2
      else if !sigOk key (le 32 n.toNat ++ le 8 Config.uid.toNat ++ cert.take 8) sig then 3
      else 0
    | _, _ => 2

/-- What a verdict does: 0 grants SERVICE with the certificate's rights; the third failure of a link, and each one after it,
locks out for 60 s. -/
def takeVerdict (m : Mach) (v : Nat) (cert : List Byte) : Mach :=
  let m := { m with svc := { m.svc with nonce := none, nonceAt := none } }
  if m.svc.link ≠ 3 || v = 4 then m
  else if v = 0 then
    { m with svc := { m.svc with service := true, testPerm := bit (pU cert 9 1) 1, techId := cert.take 8 } }
  else
    let n := satTo 255 (m.svc.authFails + 1)
    { m with svc := { m.svc with authFails := n, lockoutAt := if 3 ≤ n then after m (sec 60) else m.svc.lockoutAt } }

/-- SVC_AUTH_RESPONSE: the journal's DETAIL is the low half of an accepted TECH_ID. -/
def cmdSvcAuthResponse (m : Mach) (_ : Nat) (p : List Byte) : Ans :=
  let cert := bytesAt p 0 108
  let v := if m.svc.lockoutAt.isSome then 4 else techVerdict m cert (bytesAt p 108 64)
  .okDetail (takeVerdict m v cert) (le 1 v ++ [0, 0, 0]) (if v = 0 then ofLe (cert.take 4) else 0)

def execSvcAuthResponse (slot : Nat) (s : State) := command 0x1004 slot cmdSvcAuthResponse s

/-- NONCE_EXPIRE. -/
def execNonceExpire (s : State) : Host.Outcome State Fault Refusal :=
  next s <| fire s.m s.m.svc.nonceAt fun m => { m with svc := { m.svc with nonce := none, nonceAt := none } }

/-- AUTH_LOCKOUT_END. -/
def execAuthLockoutEnd (s : State) : Host.Outcome State Fault Refusal :=
  next s <| fire s.m s.m.svc.lockoutAt fun m => { m with svc := { m.svc with lockoutAt := none } }

/-! ### Perturbations (R519 to R522) -/

/-- PTB_UNLOCK: over an authenticated link whose certificate permits TEST. -/
def cmdPtbUnlock (m : Mach) (s : Nat) (p : List Byte) : Ans :=
  refuseFirst
    [(!(isService m s && m.svc.testPerm), .privilege),
     (pU p 0 2 ≠ 0xA5C3 || !within (pU p 4 2) 60 3600, .outOfRange)] <|
    .ok { m with svc := { m.svc with unlockAt := after m (sec (pU p 4 2)) } } []

def execPtbUnlock (slot : Nat) (s : State) := command 0x1005 slot cmdPtbUnlock s

/-- PTB_UNLOCK_EXPIRE: running perturbations keep their own time. -/
def execPtbUnlockExpire (s : State) : Host.Outcome State Fault Refusal :=
  next s <| fire s.m s.m.svc.unlockAt fun m => { m with svc := { m.svc with unlockAt := none } }

/-- TARGET and VALUE of a kind (R520). A crossing has two different islands; none leads into GDCLK (8) or out of TCK (14). -/
def ptbInRange (m : Mach) (kind target : Nat) (value : Int) : Bool :=
  let src := target / 16
  let dst := target % 16
  if kind = 1 then
    within src 1 14 && within dst 1 14 && src ≠ dst && dst ≠ 8 && src ≠ 14 && withinI value 0 63
  else if kind = 2 then target ≤ 54 && withinI value 0 255
  else if kind = 3 then target ≤ 255 && withinI value (-200) 200
  else if kind = 4 then target ≤ 93 && withinI value (-400) 400
  else if kind = 5 then target ≤ 47 && !(m.svc.link ≠ 0 && m.svc.port = target) && withinI value 1 16
  else if kind = 6 then target ≤ 3 && value = 0
  else if kind = 7 then (within target 440 2007 || within target 3072 4095) && withinI value 0 7
  else if kind = 8 then target ≤ 3 && value = 0
  else false

/-- Every Type-C port is at 5 V and still (R521). -/
def allAtFive (m : Mach) : Bool :=
  (List.range 48).all fun p =>
    let x := getPd m p
    (getPort m p).mode ≠ 1 || ((!x.contract || x.vTarget ≤ 5000) && x.pe ≠ .transition && x.pe ≠ .snkTransition)

/-- An ID that no standing perturbation has: the manual does not say which (free). -/
def ptbId (m : Mach) : Nat × Mach :=
  let (n, m) := draw m
  let ids := (List.range 255).filter fun i => m.svc.ptbs.all fun b => b.id ≠ i
  (ids.getD (Config.freeNat n % ids.length) 0, m)

/-- The clock monitor test of KIND 8: it ends at once with its detection time, a free value; one later than 10 us, or none
(0xFFFF_FFFF), is CLK_LOSS at severity 2. -/
def ptbClockTest (m : Mach) (id : Nat) : Nat × Mach :=
  let (n, m) := draw m
  let t := Config.freeNat n % 2 ^ 32
  let m := ptbEnd m id
  (t, if 10000 < t then note m blkClk .clkLoss 2 else m)

/-- PTB_SET. -/
def cmdPtbSet (m : Mach) (_ : Nat) (p : List Byte) : Ans :=
  let kind := pU p 0 1
  let target := pU p 2 2
  let value := pI p 4 2
  let ttl := pU p 6 2
  refuseFirst
    [(m.svc.unlockAt.isNone, .locked), (!ptbInRange m kind target value || !within ttl 1 60, .outOfRange),
     (within kind 1 3 && !allAtFive m, .notInState), (8 ≤ m.svc.ptbs.length, .busy)] <|
    let (id, m) := ptbId m
    let b : Ptb := { id := id, kind := kind, target := target, value := value, endAt := m.dev.now + sec ttl
                     remaining := if kind = 5 then value.toNat else 0 }
    let m := ptbPut m (m.svc.ptbs ++ [b])
    if kind = 8 then
      let (t, m) := ptbClockTest m id
      .ok m (le 1 id ++ [0, 0, 0] ++ le 4 t)
    else .ok m (le 1 id ++ [0, 0, 0] ++ le 4 0)

def execPtbSet (slot : Nat) (s : State) := command 0x1006 slot cmdPtbSet s

/-- PTB_CLEAR: one ID or all; an ID that has ended already is no error (R523). -/
def cmdPtbClear (m : Mach) (_ : Nat) (p : List Byte) : Ans :=
  let id := pU p 0 1
  .ok (if id = 0xFF then ptbEndAll m else ptbEnd m id) []

def execPtbClear (slot : Nat) (s : State) := command 0x1007 slot cmdPtbClear s

/-- PTB_TTL_EXPIRE. -/
def execPtbTtlExpire (id : Nat) (s : State) : Host.Outcome State Fault Refusal :=
  guardUnit (id < 255) s fun m => match m.svc.ptbs.find? fun b => b.id = id with
    | some b => fire m (some b.endAt) fun m => ptbEnd m id
    | none => m

/-! ### SVC_STAT_GET (R515) -/

/-- Whole units of `ns` ns left of a timer. -/
def leftOf (m : Mach) (t : Option Nat) (ns : Nat) : Nat :=
  match t with
  | some d => (d - m.dev.now) / ns
  | none => 0

def ptbEntry (m : Mach) (b : Ptb) : List Byte :=
  le 1 b.id ++ le 1 b.kind ++ le 2 b.target ++ leI 2 b.value ++ [0, 0] ++ le 4 (leftOf m (some b.endAt) (ms 1))

def cmdSvcStatGet (m : Mach) (_ : Nat) (_ : List Byte) : Ans :=
  let x := m.svc
  let link := if x.link ≠ 0 then x.link else if x.armPort.isSome then 1 else 0
  let port := if x.link ≠ 0 then x.port else x.armPort.getD 0xFF
  let n := x.ptbs.length
  .ok m (le 1 link ++ le 1 port ++ le 1 (if x.service then 1 else 0) ++ le 1 x.lastFail ++ le 2 (leftOf m x.armAt (sec 1))
    ++ le 1 x.authFails ++ le 1 (if x.unlockAt.isSome then 1 else 0) ++ x.techId
    ++ le 4 (if x.link ≠ 0 then (m.dev.now - x.linkStart) / sec 1 else 0) ++ le 4 x.frames ++ le 1 n ++ [0, 0, 0]
    ++ x.ptbs.flatMap (ptbEntry m) ++ List.replicate (12 * (8 - n)) 0)

def execSvcStatGet (slot : Nat) (s : State) := command 0x1008 slot cmdSvcStatGet s

/-! ### Boundary scan (R60, R61, R516 to R518) -/

/-- A boundary-scan instruction made current: SCAN_ACTIVE follows it. -/
def setTap (m : Mach) (op : Nat) : Mach :=
  let m := { m with svc := { m.svc with tap := op } }
  setLive m blkGuard .scanActive 1 (scanHolds m)

/-- JTAG_INSTRUCTION: EXTEST, CLAMP and HIGHZ are refused while any converter runs, which leaves BYPASS; every opcode without
an instruction selects BYPASS. -/
def jtagInstruction (m : Mach) (op : Nat) : Mach :=
  if op = 0x00 || op = 0x04 || op = 0x05 then
    if (List.range 55).any fun k => (getCv m k).run then note (setTap m 0xFF) blkGuard .scanRefused 1 else setTap m op
  else setTap m (if op = 0x01 || op = 0x02 then op else 0xFF)

/-- The TAP runs from VIO (R516). -/
def execJtagInstruction (opcode : Nat) (s : State) : Host.Outcome State Fault Refusal :=
  guardUnit (opcode < 256) s fun m => when m.dev.vioGood m fun m => jtagInstruction m opcode

/-- TAP_RESET: IDCODE is current. -/
def execTapReset (s : State) : Host.Outcome State Fault Refusal := next s (setTap s.m 0x01)

/-- The pins of R60 under EXTEST, CLAMP and HIGHZ: VBG and the battery FET gates are held off, VBD is high-impedance. -/
def vbgPin (m : Mach) (p : Nat) : Bool := (getCv m p).vbg && !scanHolds m
def vbdPin (m : Mach) (p : Nat) : Bool := (getCv m p).vbd && !scanHolds m

end Machine
end Sys2Proof
end

