-- ==== Sys2Proof/Machine/HostLink.lean ====
section
/-! DEFINITION. Sys2Proof/Machine/HostLink.lean: the host link and its address space, the mailboxes, and the commands of the device
information and journal groups (chapter 17; the coinciding events of R478 come out of the order of the words and of R464). -/
namespace Sys2Proof
namespace Machine

/-! ### The direct register window: reads (R456 to R460) -/

/-- DEV_FW (R457): 0 until the firmware has started. -/
def fwWord (m : Mach) : Nat := if m.dev.fwStarted then runningPolicy m else 0

def cap0Word : Nat := Config.capContexts * 2 ^ 20 + Config.capChannels * 2 ^ 8 + Config.capPorts
def cap1Word : Nat := Config.capLoops * 2 ^ 16 + Config.capPdCores * 2 ^ 8 + Config.capInputs * 2 ^ 4 + Config.capSlots

/-- DEV_STRAP (R51). -/
def strapWord (m : Mach) : Nat :=
  m.dev.hsel * 2 ^ 5 + m.dev.hadr * 2 ^ 4 + m.dev.dbp * 2 ^ 2 + flag m.dev.bootCable 1

/-- Half `h` of DEV_UID, which factory calibration gives: 0 until recall has completed (R10, R540). -/
def uidWord (m : Mach) (h : Nat) : Nat := if m.dev.recallDone then Config.uid.toNat / 2 ^ (32 * h) % 2 ^ 32 else 0

/-- DEV_HOST_ERR (R459). -/
def hostErrWord (m : Mach) : Nat :=
  flag m.host.slotBusy 3 + flag m.host.badAddr 2 + flag m.host.partialWord 1 + flag m.host.badOp 0

def slotStCode : SlotState → Nat
  | .empty => 0 | .submitted => 1 | .executing => 2 | .done => 3

/-- MBX_STAT (R460). -/
def mbxStatWord (m : Mach) : Nat :=
  ((List.range 4).map fun s =>
    let x := getSlot m s
    (flag x.abn 4 + flag x.rej 3 + slotStCode x.st) * 256 ^ s).sum

/-- SEQ of the newest and the oldest entry of the ring; 0 with none. -/
def jnlHead (m : Mach) : Nat := match m.mbx.ring.getLast? with
  | some e => e.seq
  | none => 0
def jnlTail (m : Mach) : Nat := match m.mbx.ring.head? with
  | some e => e.seq
  | none => 0

/-- The registers with an address of their own, and what each reads. -/
def namedReg (m : Mach) (a : Nat) : Option Nat :=
  match a with
  | 0x000 => some Config.devId
  | 0x004 => some Config.devRev
  | 0x008 => some (fwWord m)
  | 0x00C => some cap0Word
  | 0x010 => some cap1Word
  | 0x014 => some (strapWord m)
  | 0x018 => some (uidWord m 0)
  | 0x01C => some (uidWord m 1)
  | 0x020 => some m.dev.aonMs
  | 0x024 => some (hostErrWord m)
  | 0x028 => some m.host.scratch
  | 0x040 => some 0
  | 0x044 => some 0
  | 0x048 => some (mbxStatWord m)
  | 0x04C => some (jnlHead m)
  | 0x050 => some (jnlTail m)
  | 0x080 => some 0
  | 0x084 => some (flag m.wdh.lock 1)
  | 0x088 => some (wdhCfgWord m)
  | 0x08C => some (wdhStatWord m)
  | 0x090 => some m.wds.wdCount
  | 0x0C0 => some (bibWord m)
  | 0x0C4 => some (irqLines m)
  | 0x100 => some (adcStatWord m)
  | 0x104 => some (engineStatWord m)
  | 0x108 => some (pathStatWord m)
  | 0x10C => some (chgStatWord m)
  | 0x110 => some (lftStatWord m)
  | 0x114 => some (washStatWord m)
  | 0x118 => some (estStatWord m)
  | 0x11C => some (thmStatWord m)
  | 0x120 => some (nvmStatWord m)
  | _ => none

/-- Every register of the window: the three arrays lie above 0x400 (R456). -/
def regAt (m : Mach) (a : Nat) : Option Nat :=
  if a < 0x400 then namedReg m a
  else if a < 0x800 then some (statusWord m ((a - 0x400) / 4))
  else if a < 0xC00 then some (routeWord m ((a - 0x800) / 4))
  else if a < 0xC20 then some (assertWord m ((a - 0xC00) / 4))
  else none

/-- The word a direct read returns: 0 where no register lies. -/
def regRead (m : Mach) (a : Nat) : Nat := (regAt m a).getD 0

/-- The word the host reads at an aligned address of R451. -/
def hostRead (m : Mach) (a : Nat) : Nat :=
  if a < 0x1000 then regRead m a else if a < 0x2000 then ofLe (amGetAll 0 m.mbx.mem a 4) else 0

/-! ### Mailbox doorbells and acknowledgements (R460, R463) -/

/-- A refusal at the doorbell: the response is written with JSEQ 0, and nothing is journalled (R462, R464). -/
def refuseAt (m : Mach) (s : Nat) (st : Status) : Mach := writeResponse m s st 0 []

/-- One bit of MBX_DOORBELL: a slot that is not EMPTY sets REJ; a perturbation of KIND 6 refuses with BUSY (R520); a submitted
command ends a low power state (R487, R488). -/
def ringBell (m : Mach) (s : Nat) : Mach :=
  if (getSlot m s).st ≠ .empty then modSlot m s fun x => { x with rej := true }
  else if m.svc.ptbs.any fun b => b.kind = 6 && b.target = s then refuseAt m s .busy
  else
    let m := modSlot m s fun x => { x with st := .submitted }
    leaveLow { m with mbx := { m.mbx with order := m.mbx.order ++ [s] } } 0

/-- A word written to MBX_DOORBELL: slots in ascending order (R464). -/
def doorbell (m : Mach) (w : Nat) : Mach := forAll m ((List.range 4).filter fun s => bit w s) ringBell

def execMbxDoorbell (mask : Nat) (s : State) : Host.Outcome State Fault Refusal :=
  guardUnit (mask < 2 ^ 32) s fun m => doorbell m mask

/-- A word written to MBX_ACK. -/
def mbxAck (m : Mach) (w : Nat) : Mach :=
  forAll m ((List.range 4).filter fun s => bit w s) fun m s =>
    if (getSlot m s).st = .done then modSlot m s fun x => { x with st := .empty } else m

def execMbxAck (mask : Nat) (s : State) : Host.Outcome State Fault Refusal :=
  guardUnit (mask < 2 ^ 32) s fun m => mbxAck m mask

/-- A word written to MBX_STAT clears ABN and REJ bits. -/
def mbxStatWrite (m : Mach) (w : Nat) : Mach :=
  forAll m (List.range 4) fun m s => modSlot m s fun x =>
    { x with abn := x.abn && !bit w (8 * s + 4), rej := x.rej && !bit w (8 * s + 3) }

/-! ### Writes (R9, R451, R463) -/

/-- A bit of DEV_HOST_ERR set, which the next HSTAT reports (R454, R459). -/
def badAddr (m : Mach) : Mach := { m with host := { m.host with badAddr := true, prevErr := true } }
def badPartial (m : Mach) : Mach := { m with host := { m.host with partialWord := true, prevErr := true } }

/-- GRD_IRQ_ROUTE of a block (R383). -/
def routeWrite (m : Mach) (b w : Nat) : Mach :=
  if isBlock b then
    modBlk m b fun x =>
      { x with causeEn := BitVec.ofNat 8 (w / 2 ^ 16), liveEn := BitVec.ofNat 8 (w / 2 ^ 8), en := bit w 2, line := w % 4 }
  else m

/-- A word written to a register with an address of its own; a read-only register ignores it. -/
def namedWrite (m : Mach) (a w : Nat) : Mach :=
  match a with
  | 0x024 => { m with host := { m.host with
      slotBusy := m.host.slotBusy && !bit w 3, badAddr := m.host.badAddr && !bit w 2
      partialWord := m.host.partialWord && !bit w 1, badOp := m.host.badOp && !bit w 0 } }
  | 0x028 => { m with host := { m.host with scratch := w } }
  | 0x040 => doorbell m w
  | 0x044 => mbxAck m w
  | 0x048 => mbxStatWrite m w
  | 0x080 => wdhServe m (w % 65536)
  | 0x084 => wdhCtrlWrite m w
  | 0x08C => wdhStatWrite m w
  | 0x100 => adcStatWrite m w
  | 0x104 => engineStatWrite m w
  | 0x108 => pathStatWrite m w
  | 0x110 => lftStatWrite m w
  | 0x114 => washStatWrite m w
  | 0x118 => estStatWrite m w
  | 0x11C => thmStatWrite m w
  | 0x120 => nvmStatWrite m w
  | _ => m

/-- A word written in the direct window: a reserved address sets BAD_ADDR; CAUSE bits of a status word written as 1 are cleared
(R376, R456). -/
def regWrite (m : Mach) (a w : Nat) : Mach :=
  if (regAt m a).isNone then badAddr m
  else if a < 0x400 then namedWrite m a w
  else if a < 0x800 then
    let b := (a - 0x400) / 4
    if isBlock b then causeClear m b (w / 256 % 256) else m
  else if a < 0xC00 then routeWrite m ((a - 0x800) / 4) w
  else m

/-- REGISTER_WRITE: the word arrives in the MCLK domain. -/
def execRegisterWrite (addr word : Nat) (s : State) : Host.Outcome State Fault Refusal :=
  guardUnit (addr < 0x1000 && addr % 4 = 0 && word < 2 ^ 32) s fun m => regWrite m addr word

/-- CAUSE_CLEAR (R381). -/
def execCauseClear (block mask : Nat) (s : State) : Host.Outcome State Fault Refusal :=
  guardUnit (isBlock block && mask < 256) s fun m => causeClear m block mask

/-- A word written into the mailbox aperture. -/
def slotWrite (m : Mach) (a w : Nat) : Mach :=
  let s := (a - 0x1000) / 0x400
  if (getSlot m s).st = .empty then slotPut m s ((a - 0x1000) % 0x400) (le 4 w)
  else { m with host := { m.host with slotBusy := true, prevErr := true } }

def execMbxSlotWrite (addr word : Nat) (s : State) : Host.Outcome State Fault Refusal :=
  guardUnit (0x1000 ≤ addr && addr < 0x2000 && addr % 4 = 0 && word < 2 ^ 32) s fun m => slotWrite m addr word

/-- A word the host writes at an aligned address of R451. -/
def hostWrite (m : Mach) (a w : Nat) : Mach :=
  if a < 0x1000 then regWrite m a w else if a < 0x2000 then slotWrite m a w else badAddr m

/-- The words of one write transaction, 2 or 3 MCLK cycles after its end and one per cycle from there (R30, R406, R452). -/
def commitWords (m : Mach) (l : List (Nat × Nat)) : Mach :=
  match l with
  | [] => m
  | x :: t =>
    let (n, m) := draw m
    let m := hostWrite (advance m (if Config.freeBool n then 10 else 15)) x.1 x.2
    t.foldl (fun m y => hostWrite (tick m) y.1 y.2) m

/-! ### Transactions (R451 to R455) -/

/-- The address `i` bytes on from `a` under the stepping of R451: NOINC stays in the word. -/
def stepAddr (a : Nat) (noinc : Bool) (i : Nat) : Nat :=
  if noinc then a - a % 4 + (a % 4 + i) % 4 else (a + i) % 0x8000

/-- `n` bytes read from byte address `a`. -/
def readBytes (m : Mach) (a : Nat) (noinc : Bool) (n : Nat) : List Byte :=
  (List.range n).map fun i =>
    let b := stepAddr a noinc i
    BitVec.ofNat 8 (hostRead m (b - b % 4) / 256 ^ (b % 4))

/-- The whole words of a write's data, each with its address; a partial word is left out. -/
def wordsOf (a : Nat) (noinc : Bool) (data : List Byte) : List (Nat × Nat) :=
  (List.range (data.length / 4)).map fun i => (stepAddr a noinc (4 * i), pU data (4 * i) 4)

/-- The continuation address after `n` data bytes from `a`; without a data byte it stays (R455). -/
def moved (m : Mach) (a : Nat) (noinc : Bool) (n : Nat) : Mach :=
  if n = 0 then m else { m with host := { m.host with contAddr := stepAddr a noinc n, contNoinc := noinc } }

/-- Bytes that the device leaves open: of an ignored read (R451). -/
def openBytes (m : Mach) (n : Nat) : List Byte × Mach :=
  let (i, m) := draw m
  ((List.range n).map fun j => BitVec.ofNat 8 (Config.freeNat i / 256 ^ j), m)

/-- HSTAT (R454). -/
def hstat (m : Mach) : Byte :=
  BitVec.ofNat 8 (flag m.dev.recallDone 3 + flag (irqLines m ≠ 0) 2 + flag m.host.prevErr 1 + 1)

/-- The host link answers: VIO is good, the reset phase is over and the straps are latched (R50, R56). -/
def linkUp (m : Mach) : Bool := m.dev.vioGood && !m.dev.resetPhase && m.dev.strapsLatched

/-- The bytes HSDO drives during `n` whole bytes and `tail` further bits. -/
def driven (m : Mach) (bs : List Byte) (n tail : Nat) : Mach :=
  let last := if tail = 0 then [] else [(bs.getD n 0) &&& BitVec.ofNat 8 (256 - 2 ^ (8 - tail))]
  { m with host := { m.host with out := bs.take n ++ last } }

/-- An SPI transaction (R453). -/
def spi (m : Mach) (mosi : List Byte) (tail : Nat) : Mach :=
  let n := mosi.length
  let st := hstat m
  let head := [st, 0, 0, 0]
  let m := { m with host := { m.host with prevErr := false } }
  let op := pU mosi 0 1
  if 1 ≤ n && op ≠ 0x0B && op ≠ 0x02 then
    driven { m with host := { m.host with badOp := true, prevErr := true } } (head ++ List.replicate n 0) n tail
  else if n < 3 then driven (badPartial m) head n tail
  else
    let a := 256 * pU mosi 1 1 + pU mosi 2 1
    let noinc := bit a 15
    let a := a % 0x8000
    if a % 4 ≠ 0 then
      let (bs, m) := openBytes m (n - 2)
      driven (badAddr m) (head ++ bs) n tail
    else if op = 0x0B then
      driven (moved m a noinc (n - 4)) (head ++ readBytes m a noinc (n - 3)) n tail
    else
      let data := mosi.drop 3
      let m := driven (moved m a noinc data.length) (head ++ List.replicate n 0) n tail
      let m := if data.length % 4 ≠ 0 || tail ≠ 0 then badPartial m else m
      commitWords m (wordsOf a noinc data)

/-- SPI_TRANSACTION: in SPI mode. -/
def execSpiTransaction (mosi : List Nat) (tailBits : Nat) (s : State) : Host.Outcome State Fault Refusal :=
  guardUnit ((mosi.all fun b => b < 256) && tailBits < 8) s fun m =>
    when (linkUp m && m.dev.hsel = 0) m fun m => spi m (mosi.map (BitVec.ofNat 8)) tailBits

/-- What an I2C transaction has gathered: the address phase that waits for its data, words to write at P, bytes driven, and
whether an unaligned address made the device ignore the rest. -/
structure I2cRun where
  m : Mach
  ptr : Option (Nat × Bool) := none
  words : List (Nat × Nat) := []
  out : List Byte := []
  ignored : Bool := false

/-- One segment between S or Sr and the next (R455). -/
def i2cSeg (own : Nat) (r : I2cRun) : I2cSeg → I2cRun
  | .write ad bytes =>
    if ad ≠ own || r.ignored then r
    else
      let bs := bytes.map (BitVec.ofNat 8)
      let data := bs.drop 2
      let a := 256 * pU bs 0 1 + pU bs 1 1
      let noinc := bit a 15
      let a := a % 0x8000
      if bs.length < 2 then { r with m := badPartial r.m }
      else if a % 4 ≠ 0 then { r with m := badAddr r.m, ignored := true, words := [] }
      else
        { r with m := if data.length % 4 ≠ 0 then badPartial (moved r.m a noinc data.length) else moved r.m a noinc data.length
                 ptr := if data.isEmpty then some (a, noinc) else none
                 words := r.words ++ wordsOf a noinc data }
  | .read ad n =>
    if ad ≠ own then r
    else if r.ignored then
      let (bs, m) := openBytes r.m n
      { r with m := m, out := r.out ++ bs }
    else
      let (a, noinc) := r.ptr.getD (r.m.host.contAddr, r.m.host.contNoinc)
      { r with m := moved r.m a noinc n, ptr := if n = 0 then r.ptr else none, out := r.out ++ readBytes r.m a noinc n }

/-- An I2C transaction: its words take effect at P. -/
def i2c (m : Mach) (segs : List I2cSeg) : Mach :=
  let own := 0x4A + m.dev.hadr
  let r := segs.foldl (i2cSeg own) { m := { m with host := { m.host with prevErr := false } } }
  commitWords { r.m with host := { r.m.host with out := r.out } } r.words

/-- Bytes and addresses of a segment fit the bus. -/
def segOk : I2cSeg → Bool
  | .write ad bytes => ad < 128 && bytes.all fun b => b < 256
  | .read ad _ => ad < 128

/-- A segment addresses the device: 0x4A, or 0x4B by the strap (R455). -/
def segOurs (m : Mach) : I2cSeg → Bool
  | .write ad _ => ad = 0x4A + m.dev.hadr
  | .read ad _ => ad = 0x4A + m.dev.hadr

/-- I2C_TRANSACTION: in I2C mode, where some segment addresses the device. -/
def execI2cTransaction (segs : List I2cSeg) (s : State) : Host.Outcome State Fault Refusal :=
  guardUnit (segs.all segOk) s fun m =>
    when (linkUp m && m.dev.hsel = 1 && segs.any (segOurs m)) m fun m => i2c m segs

/-! ### From doorbell to acceptance (R464, R472) -/

/-- An uncorrectable word lies in the frame (R28). -/
def frameBad (m : Mach) (s n : Nat) : Bool :=
  m.mbx.eccBad.any fun a => slotBase s < a + 8 && a < slotBase s + 16 + n

/-- Steps 1 to 7 of R464: the first failure. -/
def frameCheck (m : Mach) (s : Nat) : Option Status :=
  let h := slotBytes m s 0 16
  let n := frameLen m s
  let p := payload m s
  let code := pU h 0 2
  if 1008 < n then some .badLen
  else if pU h 12 4 ≠ crc32 (h.take 12 ++ p) || frameBad m s n then some .badCrc
  else if pU h 2 1 ≠ 0 || pU h 3 1 ≠ s || pU h 10 2 ≠ 0 then some .badLen
  else if !isCommand code then some .unknownCmd
  else if !lengthOk code p then some .badLen
  else if !classOk m s code then some .privilege
  else if isRetention code && (!m.dev.recallDone || !m.dev.xin) then some .nvmBusy
  else none

/-- ARG_CRC (R469). -/
def argCrc (code : Nat) (p : List Byte) : Nat := crc32 (le 2 code ++ p)

/-- The entries that R472 compares with: the submitter's class, neither ABANDONED nor INTERNAL, newest first. -/
def rivals (m : Mach) (cls tag : Nat) : List JEntry :=
  m.mbx.ring.reverse.filter fun e => e.cls = cls && e.tag = tag && e.st ≠ .abandoned && e.cls ≠ 2

/-- A frame accepted: its entry first, then its place among the accepted commands (R464, R467): from here
it is never dropped (R26). -/
def accept (m : Mach) (s code tag cls crc : Nat) : Mach :=
  let seq := m.mbx.nextSeq
  let e : JEntry := { seq := seq, acceptMs := nowMs m, tag := tag, argCrc := crc, code := code, cls := cls, slot := s }
  let m := { m with mbx := { m.mbx with
      ring := ringPush m.mbx.ring e, nextSeq := seqNext seq, accepted := m.mbx.accepted ++ [s] } }
  modSlot m s fun x => { x with st := .executing, jseq := seq, code := code, deferred := false }

/-- Steps 8 and 9 of R464, and acceptance. -/
def judge (m : Mach) (s : Nat) : Mach :=
  let h := slotBytes m s 0 16
  let code := pU h 0 2
  let tag := pU h 4 4
  let cls := if isService m s then 1 else 0
  let crc := argCrc code (payload m s)
  let old := if tag = 0 then [] else rivals m cls tag
  match old.find? fun e => e.argCrc = crc, old with
  | some e, _ =>
    let e' := { e with dups := satTo 255 (e.dups + 1) }
    let m := { m with mbx := { m.mbx with ring := ringMod m.mbx.ring e.seq fun _ => e' } }
    writeResponse m s .duplicate e.seq (entryBytes e')
  | none, e :: _ => writeResponse m s .tagConflict e.seq []
  | none, [] => if ringRoom m.mbx.ring then accept m s code tag cls crc else refuseAt m s .busy

/-- MBX_SERVE: the holder takes the slot whose doorbell came first; with none it waits (R467). -/
def serve (m : Mach) : Mach :=
  match (if holderRuns m then m.mbx.order else []) with
  | [] => m
  | s :: t =>
    let m := { m with mbx := { m.mbx with order := t } }
    match frameCheck m s with
    | some st => refuseAt m s st
    | none => judge m s

def execMbxServe (s : State) : Host.Outcome State Fault Refusal := next s (serve s.m)

/-! ### The journal's own rows -/

/-- COMMAND_OUTCOME (R470): the work of a command that answered ACCEPTED has ended with this RESULT and DETAIL. -/
def outcome (m : Mach) (seq result detail : Nat) : Mach :=
  match ringFind m.mbx.ring seq with
  | some e => if e.st = .executing && e.answered then closeEntry m seq result detail else m
  | none => m

/-- RESULT is a status code of R465. -/
def isStatus (r : Nat) : Bool := r ≤ 1 || within r 0x100 0x10B

def execCommandOutcome (seq result detail : Nat) (s : State) : Host.Outcome State Fault Refusal :=
  guardUnit (isStatus result && seq < 2 ^ 32 && detail < 2 ^ 32) s fun m => outcome m seq result detail

/-- INTERNAL_ENTRY_FLUSH (R473). -/
def execInternalEntryFlush (s : State) : Host.Outcome State Fault Refusal :=
  next s { s.m with mbx := flushWaiting s.m.mbx 64 }

/-! ### Commands of groups 0x01 and 0x0E (R474, R475) -/

/-- DEV_INFO_GET: the versions of the PD firmware and the estimator microcode are their regions'. -/
def cmdDevInfoGet (m : Mach) (_ : Nat) (_ : List Byte) : Ans :=
  let v (kind : Nat) : List Byte :=
    let w := regionVersion m kind (ptrOf m kind)
    le 1 (w / 2 ^ 24) ++ le 1 (w / 2 ^ 16)
  .ok m (le 4 Config.devId ++ le 4 Config.devRev ++ le 4 (fwWord m) ++ le 4 cap0Word ++ le 4 cap1Word ++ le 4 (uidWord m 0)
    ++ le 4 (uidWord m 1) ++ v 2 ++ v 3 ++ le 4 (arbVersion m))

def execDevInfoGet (slot : Nat) (s : State) := command 0x0101 slot cmdDevInfoGet s

/-- DEV_CMD_CAPS_GET. -/
def cmdDevCmdCapsGet (m : Mach) (_ : Nat) (p : List Byte) : Ans :=
  let g := pU p 0 1
  refuseFirst [(!within g 0x01 0x11, .outOfRange)] <| .ok m (le 32 (capsMask g))

def execDevCmdCapsGet (slot : Nat) (s : State) := command 0x0102 slot cmdDevCmdCapsGet s

/-- DEV_ECHO. -/
def cmdDevEcho (m : Mach) (_ : Nat) (p : List Byte) : Ans := .ok m p

def execDevEcho (slot : Nat) (s : State) := command 0x0103 slot cmdDevEcho s

/-- The entries from the later of a SEQ and JNL_TAIL on; none from above JNL_HEAD. -/
def entriesFrom (m : Mach) (first : Nat) : List JEntry :=
  if (ringFind m.mbx.ring first).isSome then m.mbx.ring.dropWhile fun e => e.seq ≠ first
  else if jnlHead m < first then [] else m.mbx.ring

/-- JNL_GET. -/
def cmdJnlGet (m : Mach) (_ : Nat) (p : List Byte) : Ans :=
  refuseFirst [(!within (pU p 4 1) 1 31, .outOfRange)] <|
    let es := (entriesFrom m (pU p 0 4)).take (pU p 4 1)
    .ok m (le 1 es.length ++ [0] ++ le 2 m.mbx.lost ++ es.flatMap entryBytes)

def execJnlGet (slot : Nat) (s : State) := command 0x0E01 slot cmdJnlGet s

/-- JNL_FIND. -/
def cmdJnlFind (m : Mach) (_ : Nat) (p : List Byte) : Ans :=
  let cls := pU p 0 1
  let tag := pU p 4 4
  refuseFirst [(1 < cls || tag = 0, .outOfRange)] <|
    .ok m (match m.mbx.ring.reverse.find? fun e => e.cls = cls && e.tag = tag with
      | some e => [1, 0, 0, 0] ++ entryBytes e
      | none => List.replicate 36 0)

def execJnlFind (slot : Nat) (s : State) := command 0x0E02 slot cmdJnlFind s

end Machine
end Sys2Proof
end

