-- ==== Sys2Proof/Machine/Dispatch.lean ====
section
/-! DEFINITION. Sys2Proof/Machine/Dispatch.lean: exec, one arm per command. -/
namespace Sys2Proof
namespace Machine

def exec (i : Instr) (s : State) : Host.Outcome State Fault Refusal :=
  match i with
  | .devInfoGet slot => Sys2Proof.Machine.execDevInfoGet slot s
  | .devCmdCapsGet slot => Sys2Proof.Machine.execDevCmdCapsGet slot s
  | .devEcho slot => Sys2Proof.Machine.execDevEcho slot s
  | .pwrStateSet slot => Sys2Proof.Machine.execPwrStateSet slot s
  | .pwrReset slot => Sys2Proof.Machine.execPwrReset slot s
  | .pwrStatGet slot => Sys2Proof.Machine.execPwrStatGet slot s
  | .pwrWakeCfg slot => Sys2Proof.Machine.execPwrWakeCfg slot s
  | .srcInputCfg slot => Sys2Proof.Machine.execSrcInputCfg slot s
  | .srcPathCfg slot => Sys2Proof.Machine.execSrcPathCfg slot s
  | .srcInputStatGet slot => Sys2Proof.Machine.execSrcInputStatGet slot s
  | .srcMpptScan slot => Sys2Proof.Machine.execSrcMpptScan slot s
  | .srcSysTargetSet slot => Sys2Proof.Machine.execSrcSysTargetSet slot s
  | .stoProfileSet slot => Sys2Proof.Machine.execStoProfileSet slot s
  | .stoTwinSet slot => Sys2Proof.Machine.execStoTwinSet slot s
  | .stoChgCtrl slot => Sys2Proof.Machine.execStoChgCtrl slot s
  | .stoChgStatGet slot => Sys2Proof.Machine.execStoChgStatGet slot s
  | .stoAuxCfg slot => Sys2Proof.Machine.execStoAuxCfg slot s
  | .lftCfg slot => Sys2Proof.Machine.execLftCfg slot s
  | .lftClassSet slot => Sys2Proof.Machine.execLftClassSet slot s
  | .lftBudgetGet slot => Sys2Proof.Machine.execLftBudgetGet slot s
  | .lftPassGet slot => Sys2Proof.Machine.execLftPassGet slot s
  | .prtCfg slot => Sys2Proof.Machine.execPrtCfg slot s
  | .prtStatGet slot => Sys2Proof.Machine.execPrtStatGet slot s
  | .prtMoistGet slot => Sys2Proof.Machine.execPrtMoistGet slot s
  | .prtMoistClear slot => Sys2Proof.Machine.execPrtMoistClear slot s
  | .prtWashdown slot => Sys2Proof.Machine.execPrtWashdown slot s
  | .prtUiCfg slot => Sys2Proof.Machine.execPrtUiCfg slot s
  | .prtUiEventGet slot => Sys2Proof.Machine.execPrtUiEventGet slot s
  | .prtLedSet slot => Sys2Proof.Machine.execPrtLedSet slot s
  | .pdSrcCfg slot => Sys2Proof.Machine.execPdSrcCfg slot s
  | .pdSnkCfg slot => Sys2Proof.Machine.execPdSnkCfg slot s
  | .pdStatGet slot => Sys2Proof.Machine.execPdStatGet slot s
  | .pdDrSwapReq slot => Sys2Proof.Machine.execPdDrSwapReq slot s
  | .pdReset slot => Sys2Proof.Machine.execPdReset slot s
  | .pdCoreStatGet slot => Sys2Proof.Machine.execPdCoreStatGet slot s
  | .pdMigrate slot => Sys2Proof.Machine.execPdMigrate slot s
  | .bayCfg slot => Sys2Proof.Machine.execBayCfg slot s
  | .bayKeySet slot => Sys2Proof.Machine.execBayKeySet slot s
  | .bayStatGet slot => Sys2Proof.Machine.execBayStatGet slot s
  | .bayRecordGet slot => Sys2Proof.Machine.execBayRecordGet slot s
  | .bayKeyGet slot => Sys2Proof.Machine.execBayKeyGet slot s
  | .bayRecordForget slot => Sys2Proof.Machine.execBayRecordForget slot s
  | .bayReauth slot => Sys2Proof.Machine.execBayReauth slot s
  | .estCfg slot => Sys2Proof.Machine.execEstCfg slot s
  | .estCtxGet slot => Sys2Proof.Machine.execEstCtxGet slot s
  | .estOcvSet slot => Sys2Proof.Machine.execEstOcvSet slot s
  | .estOcvGet slot => Sys2Proof.Machine.execEstOcvGet slot s
  | .estEisReq slot => Sys2Proof.Machine.execEstEisReq slot s
  | .estEisGet slot => Sys2Proof.Machine.execEstEisGet slot s
  | .estCtxSet slot => Sys2Proof.Machine.execEstCtxSet slot s
  | .estRestReq slot => Sys2Proof.Machine.execEstRestReq slot s
  | .thmCfg slot => Sys2Proof.Machine.execThmCfg slot s
  | .thmGroupsGet slot => Sys2Proof.Machine.execThmGroupsGet slot s
  | .thmSensorGet slot => Sys2Proof.Machine.execThmSensorGet slot s
  | .fltDetailGet slot => Sys2Proof.Machine.execFltDetailGet slot s
  | .fltClear slot => Sys2Proof.Machine.execFltClear slot s
  | .fltFence slot => Sys2Proof.Machine.execFltFence slot s
  | .bibHandover slot => Sys2Proof.Machine.execBibHandover slot s
  | .grdHoldCfg slot => Sys2Proof.Machine.execGrdHoldCfg slot s
  | .wdhCfgSet slot => Sys2Proof.Machine.execWdhCfgSet slot s
  | .wdsStatGet slot => Sys2Proof.Machine.execWdsStatGet slot s
  | .wdCountGet slot => Sys2Proof.Machine.execWdCountGet slot s
  | .nvmRead slot => Sys2Proof.Machine.execNvmRead slot s
  | .nvmWrite slot => Sys2Proof.Machine.execNvmWrite slot s
  | .nvmErase slot => Sys2Proof.Machine.execNvmErase slot s
  | .nvmCounterGet slot => Sys2Proof.Machine.execNvmCounterGet slot s
  | .nvmSave slot => Sys2Proof.Machine.execNvmSave slot s
  | .nvmPdwSet slot => Sys2Proof.Machine.execNvmPdwSet slot s
  | .jnlGet slot => Sys2Proof.Machine.execJnlGet slot s
  | .jnlFind slot => Sys2Proof.Machine.execJnlFind slot s
  | .updBegin slot => Sys2Proof.Machine.execUpdBegin slot s
  | .updData slot => Sys2Proof.Machine.execUpdData slot s
  | .updCommit slot => Sys2Proof.Machine.execUpdCommit slot s
  | .updAbort slot => Sys2Proof.Machine.execUpdAbort slot s
  | .updStatGet slot => Sys2Proof.Machine.execUpdStatGet slot s
  | .svcLinkArm slot => Sys2Proof.Machine.execSvcLinkArm slot s
  | .svcLinkStop slot => Sys2Proof.Machine.execSvcLinkStop slot s
  | .svcAuthChallenge slot => Sys2Proof.Machine.execSvcAuthChallenge slot s
  | .svcAuthResponse slot => Sys2Proof.Machine.execSvcAuthResponse slot s
  | .ptbUnlock slot => Sys2Proof.Machine.execPtbUnlock slot s
  | .ptbSet slot => Sys2Proof.Machine.execPtbSet slot s
  | .ptbClear slot => Sys2Proof.Machine.execPtbClear slot s
  | .svcStatGet slot => Sys2Proof.Machine.execSvcStatGet slot s
  | .cnvDeclare slot => Sys2Proof.Machine.execCnvDeclare slot s
  | .phsSelftest slot => Sys2Proof.Machine.execPhsSelftest slot s
  | .phsStatusGet slot => Sys2Proof.Machine.execPhsStatusGet slot s
  | .cnvLoopCfg slot => Sys2Proof.Machine.execCnvLoopCfg slot s
  | .cnvCoefWrite slot => Sys2Proof.Machine.execCnvCoefWrite slot s
  | .cnvSetMap slot => Sys2Proof.Machine.execCnvSetMap slot s
  | .cnvRefSet slot => Sys2Proof.Machine.execCnvRefSet slot s
  | .cnvSpecStatsGet slot => Sys2Proof.Machine.execCnvSpecStatsGet slot s
  | .cnvSpecResume slot => Sys2Proof.Machine.execCnvSpecResume slot s
  | .cnvProtCfg slot => Sys2Proof.Machine.execCnvProtCfg slot s
  | .cnvProtStatGet slot => Sys2Proof.Machine.execCnvProtStatGet slot s
  | .spiTransaction mosi tailBits => Sys2Proof.Machine.execSpiTransaction mosi tailBits s
  | .i2cTransaction segs => Sys2Proof.Machine.execI2cTransaction segs s
  | .wdhServe key => Sys2Proof.Machine.execWdhServe key s
  | .wdhDisableSequence key => Sys2Proof.Machine.execWdhDisableSequence key s
  | .wdhLockSet => Sys2Proof.Machine.execWdhLockSet s
  | .mbxDoorbell mask => Sys2Proof.Machine.execMbxDoorbell mask s
  | .mbxAck mask => Sys2Proof.Machine.execMbxAck mask s
  | .mbxSlotWrite addr word => Sys2Proof.Machine.execMbxSlotWrite addr word s
  | .causeClear block mask => Sys2Proof.Machine.execCauseClear block mask s
  | .registerWrite addr word => Sys2Proof.Machine.execRegisterWrite addr word s
  | .mbxServe => Sys2Proof.Machine.execMbxServe s
  | .commandOutcome seq result detail => Sys2Proof.Machine.execCommandOutcome seq result detail s
  | .internalEntryFlush => Sys2Proof.Machine.execInternalEntryFlush s
  | .por => Sys2Proof.Machine.execPor s
  | .bor vpreMv => Sys2Proof.Machine.execBor vpreMv s
  | .pinReset lowNs => Sys2Proof.Machine.execPinReset lowNs s
  | .pprAuto proc => Sys2Proof.Machine.execPprAuto proc s
  | .blkDone block => Sys2Proof.Machine.execBlkDone block s
  | .ferAuto die => Sys2Proof.Machine.execFerAuto die s
  | .ferDone die => Sys2Proof.Machine.execFerDone die s
  | .gdclkMissing => Sys2Proof.Machine.execGdclkMissing s
  | .resetPhaseEnd vstsMv => Sys2Proof.Machine.execResetPhaseEnd vstsMv s
  | .vpreGood vpreMv bootOnly => Sys2Proof.Machine.execVpreGood vpreMv bootOnly s
  | .vioGood => Sys2Proof.Machine.execVioGood s
  | .strapLatch hsel hadr dbp => Sys2Proof.Machine.execStrapLatch hsel hadr dbp s
  | .recallComplete => Sys2Proof.Machine.execRecallComplete s
  | .configApply => Sys2Proof.Machine.execConfigApply s
  | .holdCharged holdMv => Sys2Proof.Machine.execHoldCharged holdMv s
  | .storeStart vstsMv wake => Sys2Proof.Machine.execStoreStart vstsMv wake s
  | .powerDownWarning trigger mv hold => Sys2Proof.Machine.execPowerDownWarning trigger mv hold s
  | .saveComplete warningEnded => Sys2Proof.Machine.execSaveComplete warningEnded s
  | .saveRegionErase => Sys2Proof.Machine.execSaveRegionErase s
  | .checkpoint => Sys2Proof.Machine.execCheckpoint s
  | .nvmPageWriteDone ok1 ok2 => Sys2Proof.Machine.execNvmPageWriteDone ok1 ok2 s
  | .learnedWriteDue ctx => Sys2Proof.Machine.execLearnedWriteDue ctx s
  | .xinReturn => Sys2Proof.Machine.execXinReturn s
  | .mclkLoss => Sys2Proof.Machine.execMclkLoss s
  | .clkLoss dom => Sys2Proof.Machine.execClkLoss dom s
  | .xinLoss => Sys2Proof.Machine.execXinLoss s
  | .estclkLoss => Sys2Proof.Machine.execEstclkLoss s
  | .dieLinkLoss die => Sys2Proof.Machine.execDieLinkLoss die s
  | .linkGlitch die => Sys2Proof.Machine.execLinkGlitch die s
  | .feHeartbeatLoss die => Sys2Proof.Machine.execFeHeartbeatLoss die s
  | .feWRejoin => Sys2Proof.Machine.execFeWRejoin s
  | .periodBoundary conv => Sys2Proof.Machine.execPeriodBoundary conv s
  | .speculation conv early => Sys2Proof.Machine.execSpeculation conv early s
  | .resolve conv y => Sys2Proof.Machine.execResolve conv y s
  | .shadowLoad conv => Sys2Proof.Machine.execShadowLoad conv s
  | .recovery conv => Sys2Proof.Machine.execRecovery conv s
  | .ctrlStarved conv => Sys2Proof.Machine.execCtrlStarved conv s
  | .specSuspend => Sys2Proof.Machine.execSpecSuspend s
  | .modeChange conv => Sys2Proof.Machine.execModeChange conv s
  | .peakTrip conv hit => Sys2Proof.Machine.execPeakTrip conv hit s
  | .senseSplit conv phase aMa bMa => Sys2Proof.Machine.execSenseSplit conv phase aMa bMa s
  | .tmonOpen group mv => Sys2Proof.Machine.execTmonOpen group mv s
  | .stageFault group mv => Sys2Proof.Machine.execStageFault group mv s
  | .stageIdentify group found => Sys2Proof.Machine.execStageIdentify group found s
  | .phaseParkEnd group mv => Sys2Proof.Machine.execPhaseParkEnd group mv s
  | .phaseSelftest conv phase meas => Sys2Proof.Machine.execPhaseSelftest conv phase meas s
  | .selftestDone conv => Sys2Proof.Machine.execSelftestDone conv s
  | .selftestDeferredRun input vinMv => Sys2Proof.Machine.execSelftestDeferredRun input vinMv s
  | .imonZeroCheck conv phase zeroA zeroB => Sys2Proof.Machine.execImonZeroCheck conv phase zeroA zeroB s
  | .adcRotation => Sys2Proof.Machine.execAdcRotation s
  | .adcHandover disagree leavingErr standinErr => Sys2Proof.Machine.execAdcHandover disagree leavingErr standinErr s
  | .adcCalDone pass => Sys2Proof.Machine.execAdcCalDone pass s
  | .housekeepingRound round => Sys2Proof.Machine.execHousekeepingRound round s
  | .prebiasCheck conv meas => Sys2Proof.Machine.execPrebiasCheck conv meas s
  | .prebiasRetry conv meas => Sys2Proof.Machine.execPrebiasRetry conv meas s
  | .backdriveClear port vbsMv => Sys2Proof.Machine.execBackdriveClear port vbsMv s
  | .shortDetect conv sampleMv limPermille ccOpen => Sys2Proof.Machine.execShortDetect conv sampleMv limPermille ccOpen s
  | .hiccupRetry conv => Sys2Proof.Machine.execHiccupRetry conv s
  | .hiccupCountReset conv => Sys2Proof.Machine.execHiccupCountReset conv s
  | .ovDetect conv sampleMv ccOpen => Sys2Proof.Machine.execOvDetect conv sampleMv ccOpen s
  | .uvDetect conv sampleMv limPermille ms => Sys2Proof.Machine.execUvDetect conv sampleMv limPermille ms s
  | .phaseOpen conv legAMa legBMa valleyMa periods => Sys2Proof.Machine.execPhaseOpen conv legAMa legBMa valleyMa periods s
  | .senseRail conv phase imonMv => Sys2Proof.Machine.execSenseRail conv phase imonMv s
  | .senseRipple conv phase valleyMa midMa => Sys2Proof.Machine.execSenseRipple conv phase valleyMa midMa s
  | .derateEnd port => Sys2Proof.Machine.execDerateEnd port s
  | .bfetModeEval vstsMv => Sys2Proof.Machine.execBfetModeEval vstsMv s
  | .bfetTransitionDone => Sys2Proof.Machine.execBfetTransitionDone s
  | .reverseComparator storeMa => Sys2Proof.Machine.execReverseComparator storeMa s
  | .linearUpdate sysMv vstsMv storeMa => Sys2Proof.Machine.execLinearUpdate sysMv vstsMv storeMa s
  | .linOverload sysMv vstsMv storeMa => Sys2Proof.Machine.execLinOverload sysMv vstsMv storeMa s
  | .inputPresent input vinMv => Sys2Proof.Machine.execInputPresent input vinMv s
  | .inputAbsent input vinMv => Sys2Proof.Machine.execInputAbsent input vinMv s
  | .inOv input vinMv => Sys2Proof.Machine.execInOv input vinMv s
  | .inOvRecover input vinMv => Sys2Proof.Machine.execInOvRecover input vinMv s
  | .inputReverse input iinMa => Sys2Proof.Machine.execInputReverse input iinMa s
  | .inputReverseRestart input => Sys2Proof.Machine.execInputReverseRestart input s
  | .vehicleSystemDetect input vinMv => Sys2Proof.Machine.execVehicleSystemDetect input vinMv s
  | .vehiclePark input vinMv => Sys2Proof.Machine.execVehiclePark input vinMv s
  | .vehicleUnpark input vinMv => Sys2Proof.Machine.execVehicleUnpark input vinMv s
  | .donorLimitUpdate loadsMa inputsMa => Sys2Proof.Machine.execDonorLimitUpdate loadsMa inputsMa s
  | .donorWithdraw port => Sys2Proof.Machine.execDonorWithdraw port s
  | .mpptStep input powerMw foldPermille => Sys2Proof.Machine.execMpptStep input powerMw foldPermille s
  | .mpptScan input => Sys2Proof.Machine.execMpptScan input s
  | .mpptScanEnd input vocMv => Sys2Proof.Machine.execMpptScanEnd input vocMv s
  | .sysLow sysMv => Sys2Proof.Machine.execSysLow sysMv s
  | .sysRecover sysMv => Sys2Proof.Machine.execSysRecover sysMv s
  | .cableBoot port vbusMv rp => Sys2Proof.Machine.execCableBoot port vbusMv rp s
  | .bootCapsTimeout port => Sys2Proof.Machine.execBootCapsTimeout port s
  | .bootSinkLoss port sysMv vbootMv hold => Sys2Proof.Machine.execBootSinkLoss port sysMv vbootMv hold s
  | .storeRemoval detector sysMv vstsMv meanSysMv storeMa => Sys2Proof.Machine.execStoreRemoval detector sysMv vstsMv meanSysMv storeMa s
  | .storeAccept vstsMv => Sys2Proof.Machine.execStoreAccept vstsMv s
  | .chgEval m vMv iMa => Sys2Proof.Machine.execChgEval m vMv iMa s
  | .vChgUpdate m dMv => Sys2Proof.Machine.execVChgUpdate m dMv s
  | .chgTimerSecond m noFeeder feederIsrcFold iMa vMv => Sys2Proof.Machine.execChgTimerSecond m noFeeder feederIsrcFold iMa vMv s
  | .chgTimerExpire m => Sys2Proof.Machine.execChgTimerExpire m s
  | .chgOc m iMa => Sys2Proof.Machine.execChgOc m iMa s
  | .chgOcPersist m iMa => Sys2Proof.Machine.execChgOcPersist m iMa s
  | .cellOv m cellMv => Sys2Proof.Machine.execCellOv m cellMv s
  | .cutoff cellMv feederBefore feederDuring hold => Sys2Proof.Machine.execCutoff cellMv feederBefore feederDuring hold s
  | .dsgOc iMa => Sys2Proof.Machine.execDsgOc iMa s
  | .auxPolicyChange => Sys2Proof.Machine.execAuxPolicyChange s
  | .auxHoldExpire => Sys2Proof.Machine.execAuxHoldExpire s
  | .liftCycle published => Sys2Proof.Machine.execLiftCycle published s
  | .passRequest holder mw => Sys2Proof.Machine.execPassRequest holder mw s
  | .grantDelivery holder => Sys2Proof.Machine.execGrantDelivery holder s
  | .passExcess port mw => Sys2Proof.Machine.execPassExcess port mw s
  | .reclaimHardReset port => Sys2Proof.Machine.execReclaimHardReset port s
  | .restGrantEnd sLow => Sys2Proof.Machine.execRestGrantEnd sLow s
  | .eisGrantEnd m => Sys2Proof.Machine.execEisGrantEnd m s
  | .rdDetect port cc ra => Sys2Proof.Machine.execRdDetect port cc ra s
  | .ccDebounce port => Sys2Proof.Machine.execCcDebounce port s
  | .attachedSrc port => Sys2Proof.Machine.execAttachedSrc port s
  | .sourceDetach port => Sys2Proof.Machine.execSourceDetach port s
  | .sinkDetach port vbsMv rpAbsent => Sys2Proof.Machine.execSinkDetach port vbsMv rpAbsent s
  | .sinkAttach port cc rp => Sys2Proof.Machine.execSinkAttach port cc rp s
  | .drpToggle port => Sys2Proof.Machine.execDrpToggle port s
  | .tryTimeout port => Sys2Proof.Machine.execTryTimeout port s
  | .errorRecoveryEnd port => Sys2Proof.Machine.execErrorRecoveryEnd port s
  | .accessoryDetect port present => Sys2Proof.Machine.execAccessoryDetect port present s
  | .vconnOc port ma atLimit => Sys2Proof.Machine.execVconnOc port ma atLimit s
  | .moistureCheck port => Sys2Proof.Machine.execMoistureCheck port s
  | .moistureCheckDone port pins => Sys2Proof.Machine.execMoistureCheckDone port pins s
  | .washdownAutoExit => Sys2Proof.Machine.execWashdownAutoExit s
  | .ccOvervoltage port pin mv => Sys2Proof.Machine.execCcOvervoltage port pin mv s
  | .ccPinReconnect port pin mv => Sys2Proof.Machine.execCcPinReconnect port pin mv s
  | .uiFrame caps => Sys2Proof.Machine.execUiFrame caps s
  | .holdReached port => Sys2Proof.Machine.execHoldReached port s
  | .longHoldReached port => Sys2Proof.Machine.execLongHoldReached port s
  | .stuck port => Sys2Proof.Machine.execStuck port s
  | .serviceWindowEnd port => Sys2Proof.Machine.execServiceWindowEnd port s
  | .baselineReseed port cap => Sys2Proof.Machine.execBaselineReseed port cap s
  | .armExpire => Sys2Proof.Machine.execArmExpire s
  | .pdSourceCapabilitiesRx port objs epr eprCapable rev2 => Sys2Proof.Machine.execPdSourceCapabilitiesRx port objs epr eprCapable rev2 s
  | .pdRequestRx port req => Sys2Proof.Machine.execPdRequestRx port req s
  | .pdAcceptRx port sameRole => Sys2Proof.Machine.execPdAcceptRx port sameRole s
  | .pdRejectRx port wait => Sys2Proof.Machine.execPdRejectRx port wait s
  | .pdPsRdyRx port => Sys2Proof.Machine.execPdPsRdyRx port s
  | .pdSoftResetRx port => Sys2Proof.Machine.execPdSoftResetRx port s
  | .pdHardReset port sent => Sys2Proof.Machine.execPdHardReset port sent s
  | .pdDrSwapRx port => Sys2Proof.Machine.execPdDrSwapRx port s
  | .pdEprModeRx port enter => Sys2Proof.Machine.execPdEprModeRx port enter s
  | .pdEprKeepaliveRx port => Sys2Proof.Machine.execPdEprKeepaliveRx port s
  | .pdGetCapRx port sinkCap epr => Sys2Proof.Machine.execPdGetCapRx port sinkCap epr s
  | .pdInfoQueryRx port q => Sys2Proof.Machine.execPdInfoQueryRx port q s
  | .pdUnsupportedRx port => Sys2Proof.Machine.execPdUnsupportedRx port s
  | .pdAlertRx port bits => Sys2Proof.Machine.execPdAlertRx port bits s
  | .pdVendorDefinedRx port discoverIdentity => Sys2Proof.Machine.execPdVendorDefinedRx port discoverIdentity s
  | .pdCableIdentityRx port ma vmaxMv eprCable => Sys2Proof.Machine.execPdCableIdentityRx port ma vmaxMv eprCable s
  | .pdBistRx port mode vbusMv => Sys2Proof.Machine.execPdBistRx port mode vbusMv s
  | .pdRetransmit port => Sys2Proof.Machine.execPdRetransmit port s
  | .pdTxFail port => Sys2Proof.Machine.execPdTxFail port s
  | .senderResponseTimeout port => Sys2Proof.Machine.execSenderResponseTimeout port s
  | .psTransitionTimeout port => Sys2Proof.Machine.execPsTransitionTimeout port s
  | .srcTransitionStart port => Sys2Proof.Machine.execSrcTransitionStart port s
  | .transitionSettled port vcsMv => Sys2Proof.Machine.execTransitionSettled port vcsMv s
  | .sendSourceCap port => Sys2Proof.Machine.execSendSourceCap port s
  | .noResponseTimeout port => Sys2Proof.Machine.execNoResponseTimeout port s
  | .sinkEprKeepalive port => Sys2Proof.Machine.execSinkEprKeepalive port s
  | .ppsRequestRepeat port => Sys2Proof.Machine.execPpsRequestRepeat port s
  | .sourceEprKeepaliveTimeout port => Sys2Proof.Machine.execSourceEprKeepaliveTimeout port s
  | .ppsTimeout port => Sys2Proof.Machine.execPpsTimeout port s
  | .discoverIdentityRetry port => Sys2Proof.Machine.execDiscoverIdentityRetry port s
  | .hardResetStop port => Sys2Proof.Machine.execHardResetStop port s
  | .srcRecover port => Sys2Proof.Machine.execSrcRecover port s
  | .ppsUndervoltage port vcsMv => Sys2Proof.Machine.execPpsUndervoltage port vcsMv s
  | .pdMigration port => Sys2Proof.Machine.execPdMigration port s
  | .migrationAbandon port => Sys2Proof.Machine.execMigrationAbandon port s
  | .pdCoreFence core => Sys2Proof.Machine.execPdCoreFence core s
  | .bayIdRead port cc1Mv => Sys2Proof.Machine.execBayIdRead port cc1Mv s
  | .packInsert port => Sys2Proof.Machine.execPackInsert port s
  | .packRemoval port detector vbsMv iMa => Sys2Proof.Machine.execPackRemoval port detector vbsMv iMa s
  | .bayLinkReply port type payload crcOk => Sys2Proof.Machine.execBayLinkReply port type payload crcOk s
  | .bayReplyTimeout port => Sys2Proof.Machine.execBayReplyTimeout port s
  | .authVerdict port => Sys2Proof.Machine.execAuthVerdict port s
  | .authRetry port => Sys2Proof.Machine.execAuthRetry port s
  | .bayStatusPoll port => Sys2Proof.Machine.execBayStatusPoll port s
  | .trickleRetry port => Sys2Proof.Machine.execTrickleRetry port s
  | .trickleExpire port => Sys2Proof.Machine.execTrickleExpire port s
  | .bayStart port vcsMv vbsMv => Sys2Proof.Machine.execBayStart port vcsMv vbsMv s
  | .bayDoneRead port vbsMv => Sys2Proof.Machine.execBayDoneRead port vbsMv s
  | .proofingPause port => Sys2Proof.Machine.execProofingPause port s
  | .proofingPauseEnd port => Sys2Proof.Machine.execProofingPauseEnd port s
  | .keyRevokeReauth port => Sys2Proof.Machine.execKeyRevokeReauth port s
  | .socCount obs => Sys2Proof.Machine.execSocCount obs s
  | .noAnchor ctx => Sys2Proof.Machine.execNoAnchor ctx s
  | .ekfStep obs => Sys2Proof.Machine.execEkfStep obs s
  | .filterReset ctx => Sys2Proof.Machine.execFilterReset ctx s
  | .stale ctx => Sys2Proof.Machine.execStale ctx s
  | .restRequest => Sys2Proof.Machine.execRestRequest s
  | .relaxFit ctx => Sys2Proof.Machine.execRelaxFit ctx s
  | .eisRun m => Sys2Proof.Machine.execEisRun m s
  | .eisFrequencyDone m meas ampMa dropPermille => Sys2Proof.Machine.execEisFrequencyDone m meas ampMa dropPermille s
  | .eisAbort m => Sys2Proof.Machine.execEisAbort m s
  | .eisDue ctx => Sys2Proof.Machine.execEisDue ctx s
  | .thmSample sensor t => Sys2Proof.Machine.execThmSample sensor t s
  | .laneChange sensor => Sys2Proof.Machine.execLaneChange sensor s
  | .hover sensor level => Sys2Proof.Machine.execHover sensor level s
  | .thmCapLift scope => Sys2Proof.Machine.execThmCapLift scope s
  | .pulseSkipEntry conv ma => Sys2Proof.Machine.execPulseSkipEntry conv ma s
  | .pulseSkipExit conv ma => Sys2Proof.Machine.execPulseSkipExit conv ma s
  | .tsd sensor => Sys2Proof.Machine.execTsd sensor s
  | .tsdRelease => Sys2Proof.Machine.execTsdRelease s
  | .tsdRestart => Sys2Proof.Machine.execTsdRestart s
  | .hwOv conv mv1 mv2 => Sys2Proof.Machine.execHwOv conv mv1 mv2 s
  | .sysCrit sysMv => Sys2Proof.Machine.execSysCrit sysMv s
  | .sysCritRecover sysMv => Sys2Proof.Machine.execSysCritRecover sysMv s
  | .sysUv1 sysMv => Sys2Proof.Machine.execSysUv1 sysMv s
  | .windowEnd origin => Sys2Proof.Machine.execWindowEnd origin s
  | .controlPlaneWrite proc w => Sys2Proof.Machine.execControlPlaneWrite proc w s
  | .failover cause => Sys2Proof.Machine.execFailover cause s
  | .haltAck => Sys2Proof.Machine.execHaltAck s
  | .haltTimeout => Sys2Proof.Machine.execHaltTimeout s
  | .handoverOwnerMove => Sys2Proof.Machine.execHandoverOwnerMove s
  | .syncSet proc => Sys2Proof.Machine.execSyncSet proc s
  | .holdTimeExpire => Sys2Proof.Machine.execHoldTimeExpire s
  | .holdParkStep => Sys2Proof.Machine.execHoldParkStep s
  | .wdhExpiry => Sys2Proof.Machine.execWdhExpiry s
  | .hostrstPulseEnd => Sys2Proof.Machine.execHostrstPulseEnd s
  | .wdsCheckin proc supervisor word => Sys2Proof.Machine.execWdsCheckin proc supervisor word s
  | .wdsPeriodEnd => Sys2Proof.Machine.execWdsPeriodEnd s
  | .wdsEnable => Sys2Proof.Machine.execWdsEnable s
  | .wdTotalRaise => Sys2Proof.Machine.execWdTotalRaise s
  | .quietAuto => Sys2Proof.Machine.execQuietAuto s
  | .quietExit => Sys2Proof.Machine.execQuietExit s
  | .standbyWake source => Sys2Proof.Machine.execStandbyWake source s
  | .wakeTimer => Sys2Proof.Machine.execWakeTimer s
  | .standbyCountSample storeMa => Sys2Proof.Machine.execStandbyCountSample storeMa s
  | .updVerifyDone => Sys2Proof.Machine.execUpdVerifyDone s
  | .updSyncTimeout => Sys2Proof.Machine.execUpdSyncTimeout s
  | .updProbationEnd => Sys2Proof.Machine.execUpdProbationEnd s
  | .updPointerWrite => Sys2Proof.Machine.execUpdPointerWrite s
  | .pdUpdCoreStep => Sys2Proof.Machine.execPdUpdCoreStep s
  | .pdUpdProbationEnd => Sys2Proof.Machine.execPdUpdProbationEnd s
  | .estUcodeSwap => Sys2Proof.Machine.execEstUcodeSwap s
  | .estUcodeProbationEnd => Sys2Proof.Machine.execEstUcodeProbationEnd s
  | .limitsPrepare => Sys2Proof.Machine.execLimitsPrepare s
  | .limitsCommit => Sys2Proof.Machine.execLimitsCommit s
  | .tmonMaskExpire group => Sys2Proof.Machine.execTmonMaskExpire group s
  | .stavskaLinkStart port => Sys2Proof.Machine.execStavskaLinkStart port s
  | .stavskaSwapRetry port => Sys2Proof.Machine.execStavskaSwapRetry port s
  | .stavskaNoPd port => Sys2Proof.Machine.execStavskaNoPd port s
  | .usbSetConfiguration => Sys2Proof.Machine.execUsbSetConfiguration s
  | .enumTimeout => Sys2Proof.Machine.execEnumTimeout s
  | .stavskaFrame bytes => Sys2Proof.Machine.execStavskaFrame bytes s
  | .stavskaFrameTimeout => Sys2Proof.Machine.execStavskaFrameTimeout s
  | .stavskaIdle => Sys2Proof.Machine.execStavskaIdle s
  | .stavskaLinkEnd reason => Sys2Proof.Machine.execStavskaLinkEnd reason s
  | .nonceExpire => Sys2Proof.Machine.execNonceExpire s
  | .authLockoutEnd => Sys2Proof.Machine.execAuthLockoutEnd s
  | .ptbUnlockExpire => Sys2Proof.Machine.execPtbUnlockExpire s
  | .ptbTtlExpire id => Sys2Proof.Machine.execPtbTtlExpire id s
  | .jtagInstruction opcode => Sys2Proof.Machine.execJtagInstruction opcode s
  | .tapReset => Sys2Proof.Machine.execTapReset s
  | .aonclkLoss => Sys2Proof.Machine.execAonclkLoss s
  | .usbclkLoss => Sys2Proof.Machine.execUsbclkLoss s
  | .shipInputWake input volts => Sys2Proof.Machine.execShipInputWake input volts s
  | .pdSinkCapabilitiesRx port objs => Sys2Proof.Machine.execPdSinkCapabilitiesRx port objs s
  | .sinkHardReset port => Sys2Proof.Machine.execSinkHardReset port s
  | .sinkVbusRestored port vbsMv => Sys2Proof.Machine.execSinkVbusRestored port vbsMv s
  | .sinkRpChange port txOk => Sys2Proof.Machine.execSinkRpChange port txOk s
  | .cableResetRx port => Sys2Proof.Machine.execCableResetRx port s
  | .cellTapFastLane taps => Sys2Proof.Machine.execCellTapFastLane taps s

end Machine
end Sys2Proof
end

