-- ==== Sys2Proof/Machine/Pins.lean ====
section
/-! DEFINITION. Sys2Proof/Machine/Pins.lean: what the pins show of the state: the ball map (R39 to R45), the states of the pin
groups (R56, R60), the legs of a phase (R16, R62, R75, R95), the IMON conversion (R66, R67, R86), the boundary register (R517) and
the battery FET's gates (R146, R147, R149). Readings of this file stand in log entry 109. -/
namespace Sys2Proof
namespace Machine

/-! ### Balls (R39 to R45) -/

/-- A ball: its row index 1 to 45 and its column 1 to 45 (R39). -/
structure Ball where
  row : Nat
  col : Nat
deriving DecidableEq, Repr

/-- The row letters in their order from north to south (R39). -/
def rowNames : List String :=
  ["A", "B", "C", "D", "E", "F", "G", "H", "J", "K", "L", "M", "N", "P", "T", "U", "V", "W", "Y"] ++
  ["AA", "AB", "AC", "AD", "AE", "AF", "AG", "AH", "AJ", "AK", "AL", "AM", "AN", "AP", "AT", "AU", "AV", "AW", "AY"] ++
  ["BA", "BB", "BC", "BD", "BE", "BF", "BG"]

/-- A ball's name, as BC43 (R39). -/
def Ball.name (b : Ball) : String := rowNames.getD (b.row - 1) "" ++ toString b.col

/-- The ten pins of a port's tile (R41). -/
inductive PortPin where
  | cc1 | cc2 | dp | dm | ui | vbs | vcs | vbg | vbd | pth
deriving DecidableEq, Repr

/-- Place of a pin in its tile: 0 to 4, and whether it lies in the inner column (R41). -/
def tilePlace : PortPin → Nat × Bool
  | .cc1 => (0, false) | .cc2 => (1, false) | .dp => (2, false) | .dm => (3, false) | .ui => (4, false)
  | .vbs => (0, true) | .vcs => (1, true) | .vbg => (2, true) | .vbd => (3, true) | .pth => (4, true)

/-- The ball of a port's pin (R41): ports 0 to 23 in the east band, 24 to 47 in the west band. -/
def portBall (p : Nat) (x : PortPin) : Ball :=
  let q := p % 24
  let j := q / 9
  let k := q % 9
  let (t, inner) := tilePlace x
  let col := if p < 24 then 45 - 2 * j - (if inner then 1 else 0) else 1 + 2 * j + (if inner then 1 else 0)
  { row := 5 * k + 1 + t, col := col }

/-- PWM_Hn (R42). -/
def pwmBall (n : Nat) : Ball :=
  { row := if n < 128 then 2 * (n / 32) + 1 else 45 - 2 * ((n - 128) / 32), col := 8 + n % 32 }

/-- IMON_Hn (R42). -/
def imonBall (n : Nat) : Ball :=
  { row := if n < 128 then 2 * (n / 32) + 2 else 44 - 2 * ((n - 128) / 32), col := 8 + n % 32 }

/-- TMONj (R42). -/
def tmonBall (j : Nat) : Ball := { row := if j < 8 then j + 1 else 53 - j, col := 7 }

/-- STc, the cell taps of the Store (R43). -/
def stBall (c : Nat) : Ball := if c ≤ 8 then { row := 33 + c, col := 5 } else { row := 33 + (c - 9), col := 6 }

/-- The groups of R40. -/
inductive BallGroup where
  | portSignal | channelOut | channelIn | stageTemp | inputSense | railSense | store | host | strap
  | clock | scan | vconn | preReg | coreBuck | rails | agnd | dnc | gnd
deriving DecidableEq, Repr

/-- Balls of each group of R40. -/
def groupBalls : List (BallGroup × Nat) :=
  [(.portSignal, 480), (.channelOut, 256), (.channelIn, 256), (.stageTemp, 16), (.inputSense, 18), (.railSense, 2),
   (.store, 29), (.host, 11), (.strap, 4)] ++
  [(.clock, 3), (.scan, 5), (.vconn, 8), (.preReg, 18), (.coreBuck, 73), (.rails, 34), (.agnd, 48), (.dnc, 12), (.gnd, 752)]

/-- Neighbouring balls of one row that carry named pins from a column on. -/
structure PinRun where
  row : Nat
  col : Nat
  group : BallGroup
  names : List String

/-- The signal balls of the middle region (R44). -/
def middleSignals : List PinRun :=
  [⟨35, 9, .inputSense, ["VINS_IN0", "VINS_IN1", "VINS_IN2", "VINS_IN3", "VINS_IN4", "VINS_IN5"]⟩,
   ⟨36, 9, .inputSense, ["ISP_IN0", "ISP_IN1", "ISP_IN2", "ISP_IN3", "ISP_IN4", "ISP_IN5"]⟩,
   ⟨37, 9, .inputSense, ["ISN_IN0", "ISN_IN1", "ISN_IN2", "ISN_IN3", "ISN_IN4", "ISN_IN5"]⟩,
   ⟨37, 15, .railSense, ["SYSS", "AUXS"]⟩,
   ⟨35, 32, .store, ["SNTC0", "SNTC1", "SNTC2", "SNTC3"]⟩,
   ⟨34, 34, .store, ["BNTC0", "BNTC1"]⟩,
   ⟨36, 33, .store, ["STS_P", "STS_N", "VSTS"]⟩,
   ⟨37, 33, .store, ["BFG_A", "BFS", "BFG_B"]⟩] ++
  [⟨9, 16, .host, ["HSCK", "HSDI", "HSDO", "HCS_N", "IRQ0_N", "IRQ1_N", "IRQ2_N", "IRQ3_N", "RESET_N", "HOSTRST_N", "WAKE"]⟩,
   ⟨10, 16, .strap, ["DBP0", "DBP1", "HADR", "HSEL"]⟩,
   ⟨10, 21, .clock, ["VREFC"]⟩,
   ⟨10, 23, .clock, ["XIN", "XOUT"]⟩,
   ⟨10, 28, .scan, ["TCK", "TMS", "TDI", "TDO", "TRST_N"]⟩]

/-- Neighbouring balls of one row, or of rows in turn, that carry one supply. -/
structure SupplyRun where
  row : Nat
  rows : Nat := 1
  lo : Nat
  hi : Nat
  group : BallGroup
  name : String

/-- The supply balls of the middle region (R45) and the VCONN rails (R43). -/
def supplyRuns : List SupplyRun :=
  [{ row := 11, lo := 9, hi := 32, group := .rails, name := "VIO" },
   { row := 12, lo := 20, hi := 27, group := .rails, name := "VANA" },
   { row := 12, lo := 9, hi := 19, group := .agnd, name := "AGND" },
   { row := 12, lo := 28, hi := 35, group := .agnd, name := "AGND" },
   { row := 13, lo := 9, hi := 37, group := .agnd, name := "AGND" },
   { row := 14, lo := 19, hi := 30, group := .coreBuck, name := "PGNDC" },
   { row := 15, lo := 21, hi := 28, group := .coreBuck, name := "PVIN_C" },
   { row := 16, lo := 19, hi := 24, group := .coreBuck, name := "LXC1" },
   { row := 16, lo := 25, hi := 30, group := .coreBuck, name := "LXC2" },
   { row := 17, rows := 4, lo := 19, hi := 28, group := .coreBuck, name := "VCORE" },
   { row := 21, lo := 23, hi := 23, group := .coreBuck, name := "VCORE_S" },
   { row := 26, lo := 9, hi := 20, group := .dnc, name := "DNC" }] ++
  [{ row := 33, lo := 9, hi := 12, group := .preReg, name := "VSYS_PRE" },
   { row := 33, lo := 13, hi := 14, group := .preReg, name := "VBOOT" },
   { row := 33, lo := 15, hi := 18, group := .preReg, name := "VPRE" },
   { row := 33, lo := 19, hi := 20, group := .rails, name := "HOLD" },
   { row := 34, lo := 9, hi := 12, group := .preReg, name := "LXP" },
   { row := 34, lo := 13, hi := 16, group := .preReg, name := "PGNDP" },
   { row := 31, rows := 2, lo := 40, hi := 41, group := .vconn, name := "VCONN_IN_E" },
   { row := 31, rows := 2, lo := 5, hi := 6, group := .vconn, name := "VCONN_IN_W" }]

def portPinName : PortPin → String
  | .cc1 => "CC1" | .cc2 => "CC2" | .dp => "DP" | .dm => "DM" | .ui => "UI"
  | .vbs => "VBS" | .vcs => "VCS" | .vbg => "VBG" | .vbd => "VBD" | .pth => "PTH"

/-- The port pin of a place in a tile. -/
def pinAt (t : Nat) (inner : Bool) : PortPin :=
  match t, inner with
  | 0, false => .cc1 | 1, false => .cc2 | 2, false => .dp | 3, false => .dm | _, false => .ui
  | 0, true => .vbs | 1, true => .vcs | 2, true => .vbg | 3, true => .vbd | _, true => .pth

/-- What a ball of a port band carries (R41, R43): a tile's pin, a rail or a cell tap, else GND. -/
def bandBall (b : Ball) : BallGroup × String :=
  let east := 40 ≤ b.col
  let depth := if east then 45 - b.col else b.col - 1
  let q := 9 * (depth / 2) + (b.row - 1) / 5
  if q < 24 then
    (.portSignal, portPinName (pinAt ((b.row - 1) % 5) (depth % 2 = 1)) ++ "_P" ++ toString (if east then q else 24 + q))
  else match supplyRuns.find? fun r => r.row ≤ b.row && b.row < r.row + r.rows && r.lo ≤ b.col && b.col ≤ r.hi with
    | some r => (r.group, r.name)
    | none => match (List.range 17).find? fun c => stBall c = b with
      | some c => (.store, "ST" ++ toString c)
      | none => (.gnd, "GND")

/-- What a ball of a channel band carries (R42). -/
def channelBall (b : Ball) : BallGroup × String :=
  let north := b.row ≤ 8
  let r := if north then b.row - 1 else 45 - b.row
  if b.col = 7 then (.stageTemp, "TMON" ++ toString (if north then b.row - 1 else 53 - b.row))
  else
    let n := (if north then 0 else 128) + 32 * (r / 2) + (b.col - 8)
    if r % 2 = 0 then (.channelOut, "PWM_H" ++ toString n) else (.channelIn, "IMON_H" ++ toString n)

/-- What a ball of the middle region carries (R44, R45): every other ball is GND. -/
def middleBall (b : Ball) : BallGroup × String :=
  match middleSignals.find? fun r => r.row = b.row && r.col ≤ b.col && b.col < r.col + r.names.length with
  | some r => (r.group, r.names.getD (b.col - r.col) "")
  | none => match supplyRuns.find? fun r => r.row ≤ b.row && b.row < r.row + r.rows && r.lo ≤ b.col && b.col ≤ r.hi with
    | some r => (r.group, r.name)
    | none => (.gnd, "GND")

/-- The one group a ball belongs to, and its pin (R40 to R45). -/
def ballPin (b : Ball) : BallGroup × String :=
  if b.col ≤ 6 || 40 ≤ b.col then bandBall b
  else if b.row ≤ 8 || 38 ≤ b.row then channelBall b
  else middleBall b

/-! ### Pin states (R48, R56, R57) -/

/-- The conditions of R56. -/
inductive PinCond where
  | unpowered | reset | running
deriving DecidableEq, Repr

/-- Reset lasts while VIO is present and a station reset has not ended; without VPRE the device is unpowered. -/
def pinCond (m : Mach) : PinCond :=
  if !m.dev.vpreGood || !m.dev.vioGood then .unpowered
  else if m.dev.resetPhase && m.pwr.lastReset ≤ 2 then .reset
  else .running

/-- How the device holds a pin. `rdByStrap` is Rd or open as the unlatched strap balls say (R48). -/
inductive PinDrive where
  | highZ | open_ | rd | rdByStrap | rp (level : Nat) | bayUse | low | released | offHeld | onHeld | sink
  | input | divider | measured | ignored | bias | dcpShort | usb | led (pattern : Nat)
deriving DecidableEq, Repr

/-! ### PWM pins and legs (R16, R62, R63, R69, R75, R95, R156) -/

/-- What a PWM pin does over the period that runs: held, or, from its phase's offset on (R76), high for some of the period's steps and
low for the rest; `diode` says that the low part ends at mid-level where the inductor current reaches zero (R156). In a self-test
it follows the pattern of R77. -/
inductive PwmDrive where
  | highZ | mid | held (high : Bool) | cell (enable level : Bool)
  | pulses (start high per : Nat) (lowFirst diode : Bool)
  | test (steps : List (Nat × Option Bool))
deriving DecidableEq, Repr

/-- Leg A is the converter's input side on an input converter and on a sinking port, leg B on a sourcing port and AC (R75, R95). -/
def inputLegA (m : Mach) (k : Nat) : Bool := (48 ≤ k && k < 54) || (k < 48 && (getCv m k).reverse)

/-- The leg duties of R95 in steps: how long the input-side leg's high-side FET, and the output-side leg's low-side FET, is on. -/
def legSteps (d : Decl) (c : Ctrl) : Nat × Nat :=
  let per := 16 * periodCyc d.fswKhz
  if c.modeApplied = 0 then (onSteps d c.dutyEff, 0)
  else if c.modeApplied = 1 then (roundDivN (c.cfg.mBk * per) 1000, onSteps d c.dutyEff)
  else (per, onSteps d c.dutyEff)

/-- A leg of a phase in service of a running converter: the input-side leg starts the period high for d_in, the output-side leg low
for d_out. A tripped phase holds each leg as at the end of the on-time (R69). -/
def legDrive (m : Mach) (k i : Nat) (legA : Bool) : PwmDrive :=
  let c := getCv m k
  let per := 16 * periodCyc c.decl.fswKhz
  let (din, dout) := legSteps c.decl c.ctrl
  let input := legA = inputLegA m k
  let high := if input then din else per - min per dout
  if high = 0 then .held false
  else if per ≤ high then .held true
  else if (tget c.ph {} i).tripped then .held (!input)
  else .pulses ((c.inter.lookup i).getD 0) high per (!input) (input && 48 ≤ k && k < 54)

/-- The legs of a phase under test follow the pattern of R77. -/
def testDrive (m : Mach) (k : Nat) (legA : Bool) : PwmDrive :=
  let vin := if 48 ≤ k && k < 54 then vinOf m (k - 48) else m.path.sysMv
  let input := legA = (48 ≤ k && k < 54)
  .test ((testPattern (getCv m k).decl vin).map fun t =>
    (t.atStep, if t.mid then none else some (if input then t.inputHigh else t.outputHigh)))

/-- The converter and the declared phase that a channel serves (R15, R17); none for an unassigned one. -/
def chanPhase (m : Mach) (ch : Nat) : Option (Nat × Nat) :=
  (List.range 55).findSome? fun k =>
    ((List.range (declaredPhases (getCv m k).decl)).find? fun i => phaseChan m k i = 2 * (ch / 2)).map fun i => (k, i)

/-- What the boundary register's cells of a PWM pin hold: enable and level (R60). No row of the table shifts data in, so the
tester's content is free (log entry 109). -/
def pwmCells (ch : Nat) : Bool × Bool := (Config.boundaryCell (2 * ch), Config.boundaryCell (2 * ch + 1))

/-- PWM_Hn: high-impedance without power; mid-level in reset, on an idle, fenced, parked or unassigned channel, with a clock of R33
stopped and in a period that pulse skipping holds; the legs of R95 on a phase in service; under scan as R60 and R517 say. -/
def pwmPin (m : Mach) (ch : Nat) : PwmDrive :=
  match pinCond m with
  | .unpowered => .highZ
  | .reset => .mid
  | .running =>
    if m.svc.tap = 0x05 then .highZ
    else if scanHolds m then .cell (pwmCells ch).1 (pwmCells ch).2
    else match chanPhase m ch with
      | none => .mid
      | some (k, i) =>
        let c := getCv m k
        if m.grd.clkLost ≠ 0 then .mid
        else if c.run then
          (if (tget c.ph {} i).st = .inService && !(c.prot.pulseSkip && c.ctrl.idlePer) then legDrive m k i (ch % 2 = 0) else .mid)
        else if underTest m k = some i then testDrive m k (ch % 2 = 0)
        else .mid

/-! ### Port pins (R48, R56, R59, R60) -/

/-- The front-end die of a port has gone dark: its pins are in their unpowered states (R59). -/
def portDark (m : Mach) (p : Nat) : Bool := m.dev.feDark.contains (p / 24)

/-- A port's CC pins without power: Rd on a strapped port (R48). -/
def ccByStrap (m : Mach) (p : Nat) : PinDrive :=
  if !m.dev.strapsLatched then .rdByStrap else if strapped m.dev.dbp p then .rd else .open_

/-- CC1 and CC2 of a port (R48, R56, R59): until configuration has been applied a strapped port keeps its Rd and every other port
is open; MOIST_HOLD opens both (R261). -/
def ccPins (m : Mach) (p : Nat) : PinDrive :=
  let x := getPort m p
  if pinCond m ≠ .running || portDark m p || !m.dev.configApplied then ccByStrap m p
  else match x.tc with
    | .moistHold => .open_
    | .disabled => if x.dead && x.mode ≠ 0 then .rd else .open_
    | .errorRecovery => .open_
    | .unattachedSnk => .rd
    | .attachWaitSnk => .rd
    | .attachedSnk => .rd
    | .tryWaitSnk => .rd
    | .trySnk => .rd
    | .bay => .bayUse
    | _ => if m.pwr.st = .standby then .rp 0 else .rp x.rp

/-- DP and DM (R56, R59, R243, R509). -/
def dpDm (m : Mach) (p : Nat) : PinDrive :=
  if pinCond m ≠ .running || portDark m p || (getBlk m p).fence.isSome then .open_
  else if m.svc.link ≠ 0 && m.svc.port = p then .usb
  else if (getPort m p).dcp then .dcpShort else .open_

/-- VBS and VCS: their divider is connected wherever VPRE stands. -/
def vbsVcs (m : Mach) : PinDrive := if pinCond m = .unpowered then .highZ else .divider

/-- VBG of a port: the load switch's gate (R56, R60). -/
def vbgDrive (m : Mach) (p : Nat) : PinDrive := if pinCond m = .running && vbgPin m p then .onHeld else .offHeld

/-- VBD of a port: the discharge sink (R56, R60). -/
def vbdDrive (m : Mach) (p : Nat) : PinDrive := if pinCond m = .running && vbdPin m p then .sink else .highZ

/-- PTH: its bias is on for a port that is not off. -/
def pthPin (m : Mach) (p : Nat) : PinDrive :=
  if pinCond m = .running && (getPort m p).mode ≠ 0 && !portDark m p then .bias else .highZ

/-- UI: the LED's pattern of R254; off and without a touch frame on a port that is off. -/
def uiPin (m : Mach) (p : Nat) : PinDrive :=
  if pinCond m ≠ .running || portDark m p then .highZ else .led (ledPattern m p)

/-! ### Other pins (R56) -/

/-- IMON_Hn and TMONn are inputs; a channel out of service is ignored. -/
def imonPin (m : Mach) (ch : Nat) : PinDrive :=
  if pinCond m ≠ .running then .highZ
  else match chanPhase m ch with
    | none => .ignored
    | some (k, i) => if (tget (getCv m k).ph {} i).st = .fenced then .ignored else .measured

def tmonPin (m : Mach) (j : Nat) : PinDrive :=
  if pinCond m ≠ .running then .highZ else if (groupConvs m j).isEmpty then .ignored else .measured

/-- ST0 to ST16, VSTS, SNTCn and BNTCn: measured in the housekeeping round. -/
def storeSense (m : Mach) : PinDrive := if pinCond m = .running then .measured else .highZ

/-- IRQk_N: released unless a routed block asserts (R56, R383). -/
def irqPin (m : Mach) (k : Nat) : PinDrive := if pinCond m = .running && irqLow m k then .low else .released

/-- HOSTRST_N: low for the time of R416. -/
def hostRstPin (m : Mach) : PinDrive := if pinCond m = .running && m.dev.hostRstUntil.isSome then .low else .released

/-- RESET_N, WAKE, HSCK, HSDI and HCS_N are inputs wherever VIO stands. -/
def hostInputs (m : Mach) : PinDrive := if pinCond m = .unpowered then .highZ else .input

/-- HSDO is driven while HCS_N is low in SPI mode and TDO in the shift states alone: between two commands neither is. -/
def hsdoPin : PinDrive := .highZ
def tdoPin : PinDrive := .highZ

/-! ### Currents (R66, R67, R86) -/

/-- The current an IMON reading of a channel stands for, in mA (R66): the declared gain is in units of 10 uV per A, and the factory
trim of the channel applies on top of it (R86). -/
def imonCurrent (ch gain zeroMv readMv : Nat) : Rat :=
  if gain = 0 then 0 else ((readMv : Rat) - zeroMv) * 100000 / gain * Config.imonTrim ch

/-- A phase's current is the mean of its two legs, its sign that of the converter's forward direction (R66, R67). -/
def phaseCurrent (m : Mach) (k i readA readB : Nat) : Rat :=
  let d := (getCv m k).decl
  let y := tget (getCv m k).ph {} i
  let ch := phaseChan m k i
  (imonCurrent ch d.imonGain y.zeroA readA + imonCurrent (ch + 1) d.imonGain y.zeroB readB) / 2

/-! ### The battery FET's gates (R146, R147, R149, R168) -/

/-- How BFG_A and BFG_B are driven; `regulated` holds 20 mV across BFET_SYS, or drives it fully on. -/
inductive Gate where
  | off | on | regulated | linear
deriving DecidableEq, Repr

/-- BFG_A drives BFET_SYS (R146, R147): in DIODE it is off up to 300 mA of discharge, and off while the Store charges (R149). Both
gates are held to BFS in reset, without power and under EXTEST, CLAMP and HIGHZ (R56, R60, R481); the Store start circuit
holds both on until VIO is good (R168). -/
def bfgA (m : Mach) : Gate :=
  if m.path.startCkt && !m.dev.vioGood then .on
  else if pinCond m ≠ .running || scanHolds m then .off
  else match m.path.mode with
    | .off => .off
    | .on => .on
    | .diode => if (getChg m 0).iMa < -300 then .regulated else .off
    | .linear => .linear

/-- BFG_B drives BFET_STORE. -/
def bfgB (m : Mach) : Gate :=
  if m.path.startCkt && !m.dev.vioGood then .on
  else if pinCond m ≠ .running || scanHolds m then .off
  else match m.path.mode with
    | .off => .off
    | _ => .on

/-! ### The boundary register (R60, R517) -/

/-- A cell of the boundary register: enable and level of a PWM pin, an observed pin, a host pin's input, drive or pull-low, and a
strap's input. -/
inductive BoundaryCell where
  | pwmEnable (ch : Nat) | pwmLevel (ch : Nat) | imon (ch : Nat) | tmon (j : Nat) | port (p : Nat) (x : PortPin)
  | sense (n : Nat) | store (n : Nat) | hostIn (n : Nat) | hsdo (n : Nat) | pullLow (n : Nat) | strap (n : Nat)
deriving DecidableEq, Repr

def portPins : List PortPin := [.cc1, .cc2, .dp, .dm, .ui, .vbs, .vcs, .vbg, .vbd, .pth]

/-- The cells the boundary register holds (R517). Their order along the register is the BSDL file's. -/
def boundaryCells : List BoundaryCell :=
  (List.range 256).flatMap (fun n => [.pwmEnable n, .pwmLevel n])
    ++ (List.range 256).map .imon ++ (List.range 16).map .tmon
    ++ (List.range 48).flatMap (fun p => portPins.map (.port p))
    ++ (List.range 20).map .sense ++ (List.range 29).map .store
    ++ (List.range 5).map .hostIn ++ (List.range 2).map .hsdo ++ (List.range 5).map .pullLow ++ (List.range 4).map .strap

/-- The length of the data register that a TAP instruction selects (R517). -/
def drLength (op : Nat) : Nat := if op = 0x00 || op = 0x02 then 1329 else if op = 0x01 then 32 else 1

/-- What the instruction register captures in Capture-IR (R517). -/
def irCapture : Nat := 0x01

end Machine
end Sys2Proof
end

