-- ==== Sys2Proof/WellFormed.lean ====
section
/-! DEFINITION. Sys2Proof/WellFormed.lean: which terms of Sys2Proof/Syntax.lean are commands of the device: every index names a unit of
it, every word fits its width, and every reading lies within the ratings of R524, outside which no behaviour is defined. -/
namespace Sys2Proof

/-- What the operands of a term amount to. -/
inductive Judged where
  /-- a command of the device. -/
  | legal
  /-- an operand names no unit, or is no value of its field. -/
  | noUnit
  /-- a reading beyond the ratings of R524. -/
  | unrated
deriving DecidableEq, Repr

/-- The two checks: the ratings first. -/
def judged (unit rated : Bool) : Judged := if rated then (if unit then .legal else .noUnit) else .unrated

/-- A block ID that names a block (R11, R375). -/
def namesBlock (b : Nat) : Bool := b < 0x69 || (0x70 ≤ b && b ≤ 0x8A)

/-- A status code of R465. -/
def namesStatus (r : Nat) : Bool := r ≤ 1 || (0x100 ≤ r && r ≤ 0x10B)

/-- A block that a BLK reset takes (R483). -/
def namesReset (b : Nat) : Bool := (0x70 ≤ b && b ≤ 0x78) || b = 0x87 || b = 0x88 || b = 0x8A

/-- Addresses and bytes of an I2C segment fit the bus (R455). -/
def segFits : I2cSeg → Bool
  | .write ad bytes => ad < 128 && bytes.all fun b => b < 256
  | .read ad _ => ad < 128

/-- The units that a control-plane write names (R394). -/
def writeNames : CpWrite → Bool
  | .ref k j _ => k < 55 && j < 4
  | .coefSet k n _ _ _ _ _ => k < 55 && n < 8
  | .map k _ => k < 55
  | .loopOpt k _ _ => k < 55
  | .fence b _ | .release b _ => namesBlock b
  | .grant h _ => h < 50
  | .pdTarget p _ _ => p < 48
  | .chargeRef c _ => c < 49
  | .sysTarget _ | .auxRef _ _ | .limitsCommit => true

/-- A node on SYS, the Store or a cell tap within 65 V. -/
def railRated (mv : Nat) : Bool := mv ≤ 65000

/-- An input within 170 V. -/
def inputRated (mv : Nat) : Bool := mv ≤ 170000

/-- What a term amounts to. -/
def Instr.judge : Instr → Judged
  | .devInfoGet slot => judged (slot < 5) true
  | .devCmdCapsGet slot => judged (slot < 5) true
  | .devEcho slot => judged (slot < 5) true
  | .pwrStateSet slot => judged (slot < 5) true
  | .pwrReset slot => judged (slot < 5) true
  | .pwrStatGet slot => judged (slot < 5) true
  | .pwrWakeCfg slot => judged (slot < 5) true
  | .srcInputCfg slot => judged (slot < 5) true
  | .srcPathCfg slot => judged (slot < 5) true
  | .srcInputStatGet slot => judged (slot < 5) true
  | .srcMpptScan slot => judged (slot < 5) true
  | .srcSysTargetSet slot => judged (slot < 5) true
  | .stoProfileSet slot => judged (slot < 5) true
  | .stoTwinSet slot => judged (slot < 5) true
  | .stoChgCtrl slot => judged (slot < 5) true
  | .stoChgStatGet slot => judged (slot < 5) true
  | .stoAuxCfg slot => judged (slot < 5) true
  | .lftCfg slot => judged (slot < 5) true
  | .lftClassSet slot => judged (slot < 5) true
  | .lftBudgetGet slot => judged (slot < 5) true
  | .lftPassGet slot => judged (slot < 5) true
  | .prtCfg slot => judged (slot < 5) true
  | .prtStatGet slot => judged (slot < 5) true
  | .prtMoistGet slot => judged (slot < 5) true
  | .prtMoistClear slot => judged (slot < 5) true
  | .prtWashdown slot => judged (slot < 5) true
  | .prtUiCfg slot => judged (slot < 5) true
  | .prtUiEventGet slot => judged (slot < 5) true
  | .prtLedSet slot => judged (slot < 5) true
  | .pdSrcCfg slot => judged (slot < 5) true
  | .pdSnkCfg slot => judged (slot < 5) true
  | .pdStatGet slot => judged (slot < 5) true
  | .pdDrSwapReq slot => judged (slot < 5) true
  | .pdReset slot => judged (slot < 5) true
  | .pdCoreStatGet slot => judged (slot < 5) true
  | .pdMigrate slot => judged (slot < 5) true
  | .bayCfg slot => judged (slot < 5) true
  | .bayKeySet slot => judged (slot < 5) true
  | .bayStatGet slot => judged (slot < 5) true
  | .bayRecordGet slot => judged (slot < 5) true
  | .bayKeyGet slot => judged (slot < 5) true
  | .bayRecordForget slot => judged (slot < 5) true
  | .bayReauth slot => judged (slot < 5) true
  | .estCfg slot => judged (slot < 5) true
  | .estCtxGet slot => judged (slot < 5) true
  | .estOcvSet slot => judged (slot < 5) true
  | .estOcvGet slot => judged (slot < 5) true
  | .estEisReq slot => judged (slot < 5) true
  | .estEisGet slot => judged (slot < 5) true
  | .estCtxSet slot => judged (slot < 5) true
  | .estRestReq slot => judged (slot < 5) true
  | .thmCfg slot => judged (slot < 5) true
  | .thmGroupsGet slot => judged (slot < 5) true
  | .thmSensorGet slot => judged (slot < 5) true
  | .fltDetailGet slot => judged (slot < 5) true
  | .fltClear slot => judged (slot < 5) true
  | .fltFence slot => judged (slot < 5) true
  | .bibHandover slot => judged (slot < 5) true
  | .grdHoldCfg slot => judged (slot < 5) true
  | .wdhCfgSet slot => judged (slot < 5) true
  | .wdsStatGet slot => judged (slot < 5) true
  | .wdCountGet slot => judged (slot < 5) true
  | .nvmRead slot => judged (slot < 5) true
  | .nvmWrite slot => judged (slot < 5) true
  | .nvmErase slot => judged (slot < 5) true
  | .nvmCounterGet slot => judged (slot < 5) true
  | .nvmSave slot => judged (slot < 5) true
  | .nvmPdwSet slot => judged (slot < 5) true
  | .jnlGet slot => judged (slot < 5) true
  | .jnlFind slot => judged (slot < 5) true
  | .updBegin slot => judged (slot < 5) true
  | .updData slot => judged (slot < 5) true
  | .updCommit slot => judged (slot < 5) true
  | .updAbort slot => judged (slot < 5) true
  | .updStatGet slot => judged (slot < 5) true
  | .svcLinkArm slot => judged (slot < 5) true
  | .svcLinkStop slot => judged (slot < 5) true
  | .svcAuthChallenge slot => judged (slot < 5) true
  | .svcAuthResponse slot => judged (slot < 5) true
  | .ptbUnlock slot => judged (slot < 5) true
  | .ptbSet slot => judged (slot < 5) true
  | .ptbClear slot => judged (slot < 5) true
  | .svcStatGet slot => judged (slot < 5) true
  | .cnvDeclare slot => judged (slot < 5) true
  | .phsSelftest slot => judged (slot < 5) true
  | .phsStatusGet slot => judged (slot < 5) true
  | .cnvLoopCfg slot => judged (slot < 5) true
  | .cnvCoefWrite slot => judged (slot < 5) true
  | .cnvSetMap slot => judged (slot < 5) true
  | .cnvRefSet slot => judged (slot < 5) true
  | .cnvSpecStatsGet slot => judged (slot < 5) true
  | .cnvSpecResume slot => judged (slot < 5) true
  | .cnvProtCfg slot => judged (slot < 5) true
  | .cnvProtStatGet slot => judged (slot < 5) true
  | .spiTransaction mosi tailBits => judged ((mosi.all fun b => b < 256) && tailBits < 8) true
  | .i2cTransaction segs => judged (segs.all segFits) true
  | .wdhServe key => judged (key < 65536) true
  | .wdhDisableSequence key => judged (key < 65536) true
  | .wdhLockSet => .legal
  | .mbxDoorbell mask => judged (mask < 2 ^ 32) true
  | .mbxAck mask => judged (mask < 2 ^ 32) true
  | .mbxSlotWrite addr word => judged (0x1000 ≤ addr && addr < 0x2000 && addr % 4 = 0 && word < 2 ^ 32) true
  | .causeClear block mask => judged (namesBlock block && mask < 256) true
  | .registerWrite addr word => judged (addr < 0x1000 && addr % 4 = 0 && word < 2 ^ 32) true
  | .mbxServe => .legal
  | .commandOutcome seq result detail => judged (namesStatus result && seq < 2 ^ 32 && detail < 2 ^ 32) true
  | .internalEntryFlush => .legal
  | .por => .legal
  | .bor _ => .legal
  | .pinReset _ => .legal
  | .pprAuto proc => judged (proc < 2) true
  | .blkDone block => judged (namesReset block) true
  | .ferAuto die => judged (die < 2) true
  | .ferDone die => judged (die < 2) true
  | .gdclkMissing => .legal
  | .resetPhaseEnd vstsMv => judged true (railRated vstsMv)
  | .vpreGood _ _ => .legal
  | .vioGood => .legal
  | .strapLatch hsel hadr dbp => judged (hsel < 2 && hadr < 2 && dbp < 4) true
  | .recallComplete => .legal
  | .configApply => .legal
  | .holdCharged _ => .legal
  | .storeStart vstsMv _ => judged true (railRated vstsMv)
  | .powerDownWarning trigger _ _ => judged (trigger < 3) true
  | .saveComplete _ => .legal
  | .saveRegionErase => .legal
  | .checkpoint => .legal
  | .nvmPageWriteDone _ _ => .legal
  | .learnedWriteDue ctx => judged (ctx < 272) true
  | .xinReturn => .legal
  | .mclkLoss => .legal
  | .clkLoss dom => judged (1 ≤ dom && dom ≤ 3) true
  | .xinLoss => .legal
  | .estclkLoss => .legal
  | .dieLinkLoss die => judged (die < 2) true
  | .linkGlitch die => judged (die < 2) true
  | .feHeartbeatLoss die => judged (die < 2) true
  | .feWRejoin => .legal
  | .periodBoundary conv => judged (conv < 55) true
  | .speculation conv _ => judged (conv < 55) true
  | .resolve conv _ => judged (conv < 55) true
  | .shadowLoad conv => judged (conv < 55) true
  | .recovery conv => judged (conv < 55) true
  | .ctrlStarved conv => judged (conv < 55) true
  | .specSuspend => .legal
  | .modeChange conv => judged (conv < 55) true
  | .peakTrip conv hit => judged (conv < 55 && hit.phase < 8) true
  | .senseSplit conv phase _ _ => judged (conv < 55 && phase < 8) true
  | .tmonOpen group _ => judged (group < 16) true
  | .stageFault group _ => judged (group < 16) true
  | .stageIdentify group _ => judged (group < 16) true
  | .phaseParkEnd group _ => judged (group < 16) true
  | .phaseSelftest conv phase _ => judged (conv < 55 && phase < 8) true
  | .selftestDone conv => judged (conv < 55) true
  | .selftestDeferredRun input vinMv => judged (input < 6) (inputRated vinMv)
  | .imonZeroCheck conv phase _ _ => judged (conv < 55 && phase < 8) true
  | .adcRotation => .legal
  | .adcHandover _ _ _ => .legal
  | .adcCalDone _ => .legal
  | .housekeepingRound round =>
      judged (round.taps.length = 17 && round.sensors.length = 94) (railRated round.vstsMv && railRated round.sysMv
        && railRated round.auxMv && round.taps.all railRated)
  | .prebiasCheck conv meas => judged (conv < 55) (meas.vbsMv ≤ 60000 && meas.samples.all (· ≤ 65000))
  | .prebiasRetry conv meas => judged (conv < 55) (meas.vbsMv ≤ 60000 && meas.samples.all (· ≤ 65000))
  | .backdriveClear port vbsMv => judged (port < 48) (vbsMv ≤ 60000)
  | .shortDetect conv sampleMv _ _ => judged (conv < 55) (sampleMv ≤ 65000)
  | .hiccupRetry conv => judged (conv < 55) true
  | .hiccupCountReset conv => judged (conv < 55) true
  | .ovDetect conv sampleMv _ => judged (conv < 55) (sampleMv ≤ 65000)
  | .uvDetect conv sampleMv _ _ => judged (conv < 55) (sampleMv ≤ 65000)
  | .phaseOpen conv _ _ _ _ => judged (conv < 55) true
  | .senseRail conv phase imonMv => judged (conv < 55 && phase < 8) (imonMv ≤ 3600)
  | .senseRipple conv phase _ _ => judged (conv < 55 && phase < 8) true
  | .derateEnd port => judged (port < 48) true
  | .bfetModeEval vstsMv => judged true (railRated vstsMv)
  | .bfetTransitionDone => .legal
  | .reverseComparator _ => .legal
  | .linearUpdate sysMv vstsMv _ => judged true (railRated sysMv && railRated vstsMv)
  | .linOverload sysMv vstsMv _ => judged true (railRated sysMv && railRated vstsMv)
  | .inputPresent input vinMv => judged (input < 6) (inputRated vinMv)
  | .inputAbsent input vinMv => judged (input < 6) (inputRated vinMv)
  | .inOv input vinMv => judged (input < 6) (inputRated vinMv)
  | .inOvRecover input vinMv => judged (input < 6) (inputRated vinMv)
  | .inputReverse input _ => judged (input < 6) true
  | .inputReverseRestart input => judged (input < 6) true
  | .vehicleSystemDetect input vinMv => judged (input < 6) (inputRated vinMv)
  | .vehiclePark input vinMv => judged (input < 6) (inputRated vinMv)
  | .vehicleUnpark input vinMv => judged (input < 6) (inputRated vinMv)
  | .donorLimitUpdate _ _ => .legal
  | .donorWithdraw port => judged (port < 48) true
  | .mpptStep input _ _ => judged (input < 6) true
  | .mpptScan input => judged (input < 6) true
  | .mpptScanEnd input vocMv => judged (input < 6) (inputRated vocMv)
  | .sysLow sysMv => judged true (railRated sysMv)
  | .sysRecover sysMv => judged true (railRated sysMv)
  | .cableBoot port vbusMv rp => judged (port < 48 && rp < 3) (vbusMv ≤ 60000)
  | .bootCapsTimeout port => judged (port < 48) true
  | .bootSinkLoss port sysMv _ _ => judged (port < 48) (railRated sysMv)
  | .storeRemoval detector sysMv vstsMv meanSysMv _ =>
      judged (detector < 4) (railRated sysMv && railRated vstsMv && railRated meanSysMv)
  | .storeAccept vstsMv => judged true (railRated vstsMv)
  | .chgEval m vMv _ => judged (m < 49) (railRated vMv)
  | .vChgUpdate m _ => judged (m < 49) true
  | .chgTimerSecond m _ _ _ vMv => judged (m < 49) (railRated vMv)
  | .chgTimerExpire m => judged (m < 49) true
  | .chgOc m _ => judged (m < 49) true
  | .chgOcPersist m _ => judged (m < 49) true
  | .cellOv m cellMv => judged (m < 49) (cellMv ≤ 65000)
  | .cutoff _ _ _ _ => .legal
  | .dsgOc _ => .legal
  | .auxPolicyChange => .legal
  | .auxHoldExpire => .legal
  | .liftCycle _ => .legal
  | .passRequest holder _ => judged (holder < 49) true
  | .grantDelivery holder => judged (holder < 50) true
  | .passExcess port _ => judged (port < 48) true
  | .reclaimHardReset port => judged (port < 48) true
  | .restGrantEnd _ => .legal
  | .eisGrantEnd m => judged (m < 49) true
  | .rdDetect port cc _ => judged (port < 48 && cc < 2) true
  | .ccDebounce port => judged (port < 48) true
  | .attachedSrc port => judged (port < 48) true
  | .sourceDetach port => judged (port < 48) true
  | .sinkDetach port vbsMv _ => judged (port < 48) (vbsMv ≤ 60000)
  | .sinkAttach port cc rp => judged (port < 48 && cc < 2 && rp < 3) true
  | .drpToggle port => judged (port < 48) true
  | .tryTimeout port => judged (port < 48) true
  | .errorRecoveryEnd port => judged (port < 48) true
  | .accessoryDetect port _ => judged (port < 48) true
  | .vconnOc port _ _ => judged (port < 48) true
  | .moistureCheck port => judged (port < 48) true
  | .moistureCheckDone port _ => judged (port < 48) true
  | .washdownAutoExit => .legal
  | .ccOvervoltage port pin mv => judged (port < 48 && pin < 4) (mv ≤ 60000)
  | .ccPinReconnect port pin mv => judged (port < 48 && pin < 4) (mv ≤ 60000)
  | .uiFrame caps => judged (caps.length = 48) (caps.all fun c => c ≤ 65535)
  | .holdReached port => judged (port < 48) true
  | .longHoldReached port => judged (port < 48) true
  | .stuck port => judged (port < 48) true
  | .serviceWindowEnd port => judged (port < 48) true
  | .baselineReseed port cap => judged (port < 48) (cap ≤ 65535)
  | .armExpire => .legal
  | .pdSourceCapabilitiesRx port _ _ _ _ => judged (port < 48) true
  | .pdRequestRx port _ => judged (port < 48) true
  | .pdAcceptRx port _ => judged (port < 48) true
  | .pdRejectRx port _ => judged (port < 48) true
  | .pdPsRdyRx port => judged (port < 48) true
  | .pdSoftResetRx port => judged (port < 48) true
  | .pdHardReset port _ => judged (port < 48) true
  | .pdDrSwapRx port => judged (port < 48) true
  | .pdEprModeRx port _ => judged (port < 48) true
  | .pdEprKeepaliveRx port => judged (port < 48) true
  | .pdGetCapRx port _ _ => judged (port < 48) true
  | .pdInfoQueryRx port _ => judged (port < 48) true
  | .pdUnsupportedRx port => judged (port < 48) true
  | .pdAlertRx port _ => judged (port < 48) true
  | .pdVendorDefinedRx port _ => judged (port < 48) true
  | .pdCableIdentityRx port _ _ _ => judged (port < 48) true
  | .pdBistRx port _ _ => judged (port < 48) true
  | .pdRetransmit port => judged (port < 48) true
  | .pdTxFail port => judged (port < 48) true
  | .senderResponseTimeout port => judged (port < 48) true
  | .psTransitionTimeout port => judged (port < 48) true
  | .srcTransitionStart port => judged (port < 48) true
  | .transitionSettled port vcsMv => judged (port < 48) (vcsMv ≤ 60000)
  | .sendSourceCap port => judged (port < 48) true
  | .noResponseTimeout port => judged (port < 48) true
  | .sinkEprKeepalive port => judged (port < 48) true
  | .ppsRequestRepeat port => judged (port < 48) true
  | .sourceEprKeepaliveTimeout port => judged (port < 48) true
  | .ppsTimeout port => judged (port < 48) true
  | .discoverIdentityRetry port => judged (port < 48) true
  | .hardResetStop port => judged (port < 48) true
  | .srcRecover port => judged (port < 48) true
  | .ppsUndervoltage port vcsMv => judged (port < 48) (vcsMv ≤ 60000)
  | .pdMigration port => judged (port < 48) true
  | .migrationAbandon port => judged (port < 48) true
  | .pdCoreFence core => judged (core < 8) true
  | .bayIdRead port cc1Mv => judged (port < 48) (cc1Mv ≤ 5500)
  | .packInsert port => judged (port < 48) true
  | .packRemoval port detector vbsMv _ => judged (port < 48 && detector < 3) (vbsMv ≤ 60000)
  | .bayLinkReply port _ _ _ => judged (port < 48) true
  | .bayReplyTimeout port => judged (port < 48) true
  | .authVerdict port => judged (port < 48) true
  | .authRetry port => judged (port < 48) true
  | .bayStatusPoll port => judged (port < 48) true
  | .trickleRetry port => judged (port < 48) true
  | .trickleExpire port => judged (port < 48) true
  | .bayStart port vcsMv vbsMv => judged (port < 48) (vcsMv ≤ 60000 && vbsMv ≤ 60000)
  | .bayDoneRead port vbsMv => judged (port < 48) (vbsMv ≤ 60000)
  | .proofingPause port => judged (port < 48) true
  | .proofingPauseEnd port => judged (port < 48) true
  | .keyRevokeReauth port => judged (port < 48) true
  | .socCount obs => judged (obs.all fun o => o.ctx < 272) true
  | .noAnchor ctx => judged (ctx < 272) true
  | .ekfStep obs => judged (obs.all fun o => o.ctx < 272) true
  | .filterReset ctx => judged (ctx < 272) true
  | .stale ctx => judged (ctx < 272) true
  | .restRequest => .legal
  | .relaxFit ctx => judged (ctx < 272) true
  | .eisRun m => judged (m < 49) true
  | .eisFrequencyDone m meas _ _ => judged (m < 49 && meas.all fun o => o.ctx < 272) true
  | .eisAbort m => judged (m < 49) true
  | .eisDue ctx => judged (ctx < 272) true
  | .thmSample sensor _ => judged (sensor < 94) true
  | .laneChange sensor => judged (sensor < 94) true
  | .hover sensor level => judged (sensor < 94 && level < 3) true
  | .thmCapLift scope => judged (scope < 69) true
  | .pulseSkipEntry conv _ => judged (conv < 55) true
  | .pulseSkipExit conv _ => judged (conv < 55) true
  | .tsd sensor => judged (sensor < 24) true
  | .tsdRelease => .legal
  | .tsdRestart => .legal
  | .hwOv conv _ _ => judged (conv < 55) true
  | .sysCrit sysMv => judged true (railRated sysMv)
  | .sysCritRecover sysMv => judged true (railRated sysMv)
  | .sysUv1 sysMv => judged true (railRated sysMv)
  | .windowEnd origin => judged (namesBlock origin) true
  | .controlPlaneWrite proc w => judged (proc < 2 && writeNames w) true
  | .failover _ => .legal
  | .haltAck => .legal
  | .haltTimeout => .legal
  | .handoverOwnerMove => .legal
  | .syncSet proc => judged (proc < 2) true
  | .holdTimeExpire => .legal
  | .holdParkStep => .legal
  | .wdhExpiry => .legal
  | .hostrstPulseEnd => .legal
  | .wdsCheckin proc _ word => judged (proc < 2 && word < 2 ^ 32) true
  | .wdsPeriodEnd => .legal
  | .wdsEnable => .legal
  | .wdTotalRaise => .legal
  | .quietAuto => .legal
  | .quietExit => .legal
  | .standbyWake source => judged (source < 7) true
  | .wakeTimer => .legal
  | .standbyCountSample _ => .legal
  | .updVerifyDone => .legal
  | .updSyncTimeout => .legal
  | .updProbationEnd => .legal
  | .updPointerWrite => .legal
  | .pdUpdCoreStep => .legal
  | .pdUpdProbationEnd => .legal
  | .estUcodeSwap => .legal
  | .estUcodeProbationEnd => .legal
  | .limitsPrepare => .legal
  | .limitsCommit => .legal
  | .tmonMaskExpire group => judged (group < 16) true
  | .stavskaLinkStart port => judged (port < 48) true
  | .stavskaSwapRetry port => judged (port < 48) true
  | .stavskaNoPd port => judged (port < 48) true
  | .usbSetConfiguration => .legal
  | .enumTimeout => .legal
  | .stavskaFrame bytes => judged (bytes.all fun b => b < 256) true
  | .stavskaFrameTimeout => .legal
  | .stavskaIdle => .legal
  | .stavskaLinkEnd reason => judged (4 ≤ reason && reason ≤ 9) true
  | .nonceExpire => .legal
  | .authLockoutEnd => .legal
  | .ptbUnlockExpire => .legal
  | .ptbTtlExpire id => judged (id < 255) true
  | .jtagInstruction opcode => judged (opcode < 256) true
  | .tapReset => .legal
  | .aonclkLoss => .legal
  | .usbclkLoss => .legal
  | .shipInputWake input volts => judged (input < 6) (inputRated volts.vinMv && railRated volts.vstsMv)
  | .pdSinkCapabilitiesRx port _ => judged (port < 48) true
  | .sinkHardReset port => judged (port < 48) true
  | .sinkVbusRestored port vbsMv => judged (port < 48) (vbsMv ≤ 60000)
  | .sinkRpChange port _ => judged (port < 48) true
  | .cableResetRx port => judged (port < 48) true
  | .cellTapFastLane taps => judged (taps.length = 17) (taps.all (· ≤ 65000))

/-- A command of the device. -/
def Instr.wf (i : Instr) : Bool := i.judge = .legal

end Sys2Proof
end

