-- ==== Sys2Proof/Safety.lean ====
section
/-! DEFINITION. Sys2Proof/Safety.lean: what a safe run is: no step stops, and the stores of the block stay in order. -/
namespace Sys2Proof
namespace Machine

/-- Every waiting command is a command of the device. -/
def QueueLegal (s : State) : Prop := ∀ c ∈ s.pending, c.wf = true

/-- The journal within its bounds: a ring of at most 1024 entries (R25), at most 64 entries that wait for room and a 16-bit count
of lost ones (R473), and a next SEQ of 1 to 0xFFFFFFFF (R470). -/
def ringOk (ring waiting : List JEntry) (lost nextSeq : Nat) : Bool :=
  ring.length ≤ 1024 && waiting.length ≤ 64 && lost ≤ 65535 && 1 ≤ nextSeq && nextSeq ≤ 0xFFFFFFFF

/-- The exchange memory of the mailboxes is in canonical form (keys strictly rising, nothing listed that an unlisted key reads as)
and the journal within its bounds. -/
def mbxWf (x : Mbx) : Bool := amWf 0 x.mem && ringOk x.ring x.waiting x.lost x.nextSeq

/-- The retention memory, its bytes and the status of its groups, is in canonical form. -/
def nvWf (x : Nvm) : Bool := amWf 0xFF x.bytes && amWf .blank x.stat

/-- The stores of the block are in order. -/
def storesWf (m : Mach) : Bool := mbxWf m.mbx && nvWf m.nvm

/-- The outcome is a next state. -/
def Goes (o : Host.Outcome State Fault Refusal) : Prop := ∃ t, o = .next t

/-- A state from which `n` steps all answer a next state. -/
def SafeFor : Nat → State → Prop
  | 0, _ => True
  | n + 1, s => ∃ t, step s = .next t ∧ SafeFor n t

end Machine
end Sys2Proof
end

