-- ==== Sys2Proof/Certificates/Slice0/Obligations.lean ====
section
/-! DEFINITION. Sys2Proof/Certificates/Slice0/Obligations.lean: the statements for the provers. -/
open Sys2Proof Sys2Proof.Machine

/-- A command at the front of the queue is what the next step runs, on the machine with the rest of the queue. -/
def Obligations.StepRunsFrontCommand : Prop :=
  ∀ (c : Instr) (rest : List Instr) (m : Mach), step ⟨c :: rest, m⟩ = exec c ⟨rest, m⟩

/-- The model's choice of log entry 1: with no command waiting, a step is one MCLK cycle of 5 ns. Time, the watchdog's count
and the hours of operation move, and nothing else. -/
def Obligations.IdleStepPassesOneCycle : Prop :=
  ∀ m : Mach,
    let e := tick m
    step ⟨[], m⟩ = .next ⟨[], e⟩ ∧ e.dev.now = m.dev.now + 5 ∧ e.nvm.fast.runNs = m.nvm.fast.runNs + 5 ∧
    e = { m with
      dev := { m.dev with now := e.dev.now, aonFrac := e.dev.aonFrac, aonAcc := e.dev.aonAcc, aonMs := e.dev.aonMs
                          aonTick := e.dev.aonTick }
      wdh := { m.wdh with presc := e.wdh.presc, count := e.wdh.count, firstKey := e.wdh.firstKey }
      nvm := { m.nvm with fast := { m.nvm.fast with runNs := e.nvm.fast.runNs } } }

/-- What the registers read after a power-on reset: no cause and no live flag in any block, every route at 0x00FF0000, the
link's error word, the scratch word and the mailbox state 0, an empty journal whose first entry will carry SEQ 1, the firmware
and identity words 0 before the firmware starts and recall ends, the watchdog's status and the count of its resets 0. That the
state after reset is one before recall, with a blank retention memory, is log entry 3; the identity words, log entry 43. -/
def Obligations.ResetRegisters : Prop :=
  let m := State.reset.m
  (∀ b < 0x8B, causeBits m b = 0 ∧ liveBits m b = 0 ∧ routeWord m b = (if isBlock b then 0x00FF0000 else 0)) ∧
  hostErrWord m = 0 ∧ m.host.scratch = 0 ∧ mbxStatWord m = 0 ∧ jnlHead m = 0 ∧ jnlTail m = 0 ∧ m.mbx.nextSeq = 1 ∧
  fwWord m = 0 ∧ uidWord m 0 = 0 ∧ uidWord m 1 = 0 ∧ m.dev.aonMs = 0 ∧ wdhStatWord m = 0 ∧ m.wds.wdCount = 0

/-- The invariants of the two headline statements hold after reset. -/
def Obligations.ResetIsInOrder : Prop :=
  storesWf State.reset.m = true ∧ QueueLegal State.reset ∧ State.reset.pending = []

/-- What a command amounts to is decided by its operands alone: one whose readings lie within the ratings of R524 answers a next
state with the queue as it was, and where an operand names no unit that state is the one before (the model's choice, log entry
103); one with a reading beyond the ratings stops by that name (log entry 2). No command is refused by the model. -/
def Obligations.CommandsCompleteExactlyWhenLegal : Prop :=
  ∀ (c : Instr) (s : State),
    (c.judge = .legal → ∃ m, exec c s = .next ⟨s.pending, m⟩) ∧
    (c.judge = .noUnit → exec c s = .next s) ∧
    (c.judge = .unrated → exec c s = .fault .beyondRatings)

/-- Headline: from every state whose waiting commands are legal, every step answers a next state, and what it leaves waiting
is legal again; so a machine fed with legal commands never stops. -/
def Obligations.LegalQueuesNeverStop : Prop :=
  (∀ s : State, QueueLegal s → ∃ t, step s = .next t ∧ QueueLegal t) ∧
  (∀ (n : Nat) (s : State), QueueLegal s → SafeFor n s)

/-- Headline: no step of the machine, whatever command it runs, takes the exchange memory or the retention memory out of
canonical form or the journal out of its bounds. -/
def Obligations.StoresStayInOrder : Prop :=
  ∀ s t : State, storesWf s.m = true → step s = .next t → storesWf t.m = true

/-- A command that its own rules refuse changes nothing but its slot, its journal entry and the stream of the Stavska link: the
answer carries the status, a host slot is DONE and the Stavska slot EMPTY, and no byte outside the 20 of the answer changes. -/
def Obligations.RefusalLeavesTheRest : Prop :=
  ∀ (m : Mach) (code s : Nat) (h : Mach → Nat → List Byte → Ans) (st : Status),
    s < 5 → ready m code s = true → storesWf m = true → h (begun m s) s (payload m s) = .refuse st →
    let e := execute m code s h
    e = { m with mbx := e.mbx, svc := { m.svc with out := e.svc.out } } ∧
    (s ≠ 4 → e.svc.out = m.svc.out) ∧
    (getSlot e s).st = (if s = 4 then .empty else .done) ∧
    (∀ j, j ≠ s → getSlot e j = getSlot m j) ∧
    slotBytes e s 10 2 = le 2 (statusCode st) ∧
    (∀ a, (a < slotBase s ∨ slotBase s + 20 ≤ a) → amGet 0 e.mbx.mem a = amGet 0 m.mbx.mem a)

/-- The commands that only read leave everything but the mailboxes, the journal and the stream of the Stavska link. -/
def Obligations.ReadCommandsChangeNothing : Prop :=
  ∀ c ∈ [Instr.devInfoGet, .devCmdCapsGet, .devEcho, .pwrStatGet, .srcInputStatGet, .stoChgStatGet, .lftBudgetGet,
      .lftPassGet, .prtStatGet, .prtMoistGet, .pdStatGet, .pdCoreStatGet, .bayStatGet, .bayRecordGet, .bayKeyGet, .estCtxGet,
      .estOcvGet, .estEisGet, .thmGroupsGet, .thmSensorGet, .fltDetailGet, .wdsStatGet, .wdCountGet, .nvmCounterGet, .jnlGet,
      .jnlFind, .updStatGet, .svcStatGet, .phsStatusGet, .cnvProtStatGet],
    ∀ (s : Nat) (qs : List Instr) (m : Mach), s < 5 →
      ∃ e : Mach, exec (c s) ⟨qs, m⟩ = .next ⟨qs, e⟩ ∧
        e = { m with mbx := e.mbx, svc := { m.svc with out := e.svc.out } } ∧
        (s ≠ 4 → e.svc.out = m.svc.out) ∧ (∀ j, j ≠ s → getSlot e j = getSlot m j)

/-- The slot whose turn it is, a host's or the Stavska link's, is answered with a status that is neither OK nor ACCEPTED, or it is
accepted and its entry stands in the journal. -/
def Obligations.CommandsAreNeverDropped : Prop :=
  ∀ (m : Mach) (s : Nat) (rest : List Nat) (qs : List Instr),
    holderRuns m = true → m.mbx.order = s :: rest → s < 5 → storesWf m = true →
    ∃ e : Mach, exec .mbxServe ⟨qs, m⟩ = .next ⟨qs, e⟩ ∧ e.mbx.order = rest ∧
      (((getSlot e s).st = (if s = 4 then .empty else .done) ∧ e.mbx.accepted = m.mbx.accepted ∧
          ∃ st : Status, slotBytes e s 10 2 = le 2 (statusCode st) ∧ st ≠ .ok ∧ st ≠ .accepted) ∨
        ((getSlot e s).st = .executing ∧ e.mbx.accepted = m.mbx.accepted ++ [s] ∧
          ∃ x, e.mbx.ring.getLast? = some x ∧ x.seq = (getSlot e s).jseq ∧ x.st = .accepted ∧ x.slot = s))

/-- Duplicates of a tagged frame, step 8 of the doorbell's checks: the newest entry that matches TAG and ARG_CRC answers it
with DUPLICATE and counts it; with none, the newest that matches TAG answers TAG_CONFLICT; with none of either, and for tag 0,
the frame is accepted as a new command where the journal has room. Entries that are ABANDONED or INTERNAL take no part. -/
def Obligations.DuplicateTags : Prop :=
  ∀ (m : Mach) (s : Nat),
    let h := slotBytes m s 0 16
    let code := pU h 0 2
    let tag := pU h 4 4
    let cls := if isService m s then 1 else 0
    let crc := argCrc code (payload m s)
    let rival (e : JEntry) : Prop := e.cls = cls ∧ e.tag = tag ∧ e.st ≠ .abandoned ∧ e.cls ≠ 2
    (tag ≠ 0 → ∀ (old new : List JEntry) (e : JEntry), m.mbx.ring = old ++ e :: new →
        rival e → e.argCrc = crc → (∀ x ∈ new, ¬(rival x ∧ x.argCrc = crc)) →
        let e' := { e with dups := min (e.dups + 1) 255 }
        judge m s = writeResponse { m with mbx := { m.mbx with ring := ringMod m.mbx.ring e.seq fun _ => e' } }
          s .duplicate e.seq (entryBytes e')) ∧
    (tag ≠ 0 → (∀ x ∈ m.mbx.ring, ¬(rival x ∧ x.argCrc = crc)) →
        ∀ (old new : List JEntry) (e : JEntry), m.mbx.ring = old ++ e :: new →
        rival e → (∀ x ∈ new, ¬rival x) → judge m s = writeResponse m s .tagConflict e.seq []) ∧
    (tag = 0 ∨ (∀ x ∈ m.mbx.ring, ¬rival x) →
        judge m s = if ringRoom m.mbx.ring then accept m s code tag cls crc else refuseAt m s .busy)

/-- A word of the mailbox aperture: written where the slot is EMPTY, its four bytes and no other; ignored with SLOT_BUSY
where it is not. -/
def Obligations.MailboxWordWrites : Prop :=
  ∀ (qs : List Instr) (m : Mach) (addr word : Nat),
    0x1000 ≤ addr → addr < 0x2000 → addr % 4 = 0 → word < 2 ^ 32 → storesWf m = true →
    let s := (addr - 0x1000) / 0x400
    ∃ e : Mach, exec (.mbxSlotWrite addr word) ⟨qs, m⟩ = .next ⟨qs, e⟩ ∧
      ((getSlot m s).st = .empty →
        amGetAll 0 e.mbx.mem addr 4 = le 4 word ∧
        (∀ a, (a < addr ∨ addr + 4 ≤ a) → amGet 0 e.mbx.mem a = amGet 0 m.mbx.mem a) ∧
        e = { m with mbx := { m.mbx with mem := e.mbx.mem, eccBad := e.mbx.eccBad } }) ∧
      ((getSlot m s).st ≠ .empty → e = { m with host := { m.host with slotBusy := true, prevErr := true } })

/-- A page programmed holds the 64 bytes, its eight groups read OK, and every byte and status of every other page stands. -/
def Obligations.PageWritesTouchTheirPage : Prop :=
  ∀ (nv : Nvm) (page : Nat) (bs : List Byte), nvWf nv = true → bs.length = 64 →
    let nv' := programPage nv page bs
    (∀ o < 64, rawByte nv' page o = bs.getD o 0) ∧
    (∀ k < 8, groupStat nv' (8 * page + k) = .ok) ∧
    (∀ p o, p ≠ page → o < 64 → rawByte nv' p o = rawByte nv p o) ∧
    (∀ p k, p ≠ page → k < 8 → groupStat nv' (8 * p + k) = groupStat nv (8 * p + k)) ∧
    nv' = { nv with bytes := nv'.bytes, stat := nv'.stat }

/-- A write of n bytes at offset o places byte i at (o + i) mod 64 and leaves the page's other bytes; a length or an offset
out of range is refused; a read of the same n and o returns the bytes in the same order. -/
def Obligations.WritesWrapInTheirPage : Prop :=
  (∀ (nv : Nvm) (page off : Nat) (data : List Byte), off < 64 → 1 ≤ data.length → data.length ≤ 64 →
    let bs := mergeHost nv page off data
    bs.length = 64 ∧
    (∀ i < data.length, bs.getD ((off + i) % 64) 0 = data.getD i 0) ∧
    (∀ o < 64, (∀ i < data.length, (off + i) % 64 ≠ o) → bs.getD o 0 = rawByte nv page o)) ∧
  (∀ (qs : List Instr) (m : Mach) (s : Nat), s < 5 → ready m 0x0D02 s = true →
    let p := payload m s
    3072 ≤ pU p 0 2 → (64 < pU p 3 1 ∨ pU p 3 1 = 0 ∨ 63 < pU p 2 1) →
    let e := settle m s (.refuse .outOfRange)
    exec (.nvmWrite s) ⟨qs, m⟩ = .next ⟨qs, e⟩ ∧ e = { m with mbx := e.mbx, svc := { m.svc with out := e.svc.out } }) ∧
  (∀ (m : Mach) (s : Nat) (p : List Byte),
    let page := pU p 0 2
    let off := pU p 2 1
    let n := pU p 3 1
    page < 4096 → off < 64 → 1 ≤ n → n ≤ 64 →
    ∃ m' hdr, cmdNvmRead m s p = .ok m' (hdr ++ (List.range n).map fun i => readByte m.nvm page ((off + i) % 64)) ∧
      hdr.length = 4)

/-- A spread counter raised reads the larger of what it read and the target: it is never lowered and never counts twice, and a
counter at its top stays there. -/
def Obligations.SpreadCountersOnlyRise : Prop :=
  ∀ (nv : Nvm) (c target : Nat), nvWf nv = true → target ≤ 0xFFFFFFFF →
    (ctrRead (ctrRaise nv c target) c).1 = max (ctrRead nv c).1 target

/-- A cause recorded while CAUSE is 0 becomes FIRST with its severity; one recorded later sets its category bit, enters the
detail list and leaves FIRST and SEV. CAUSE bits written as 1 go; at 0, FIRST, SEV and the list go with them; no fence and no
LIVE bit changes. -/
def Obligations.FirstCauseStands : Prop :=
  (∀ (m : Mach) (b sev : Nat) (c : Cause), isBlock b = true → ∀ x ∈ blocksOf b,
    let e := note m b c sev
    let w := getBlk m x
    let w' := getBlk e x
    bit (causeBits e x) (catOf (codeOf c)) = true ∧
    (causeBits m x = 0 → w'.first = codeOf c ∧ w'.sev = sev) ∧
    (causeBits m x ≠ 0 → w'.first = w.first ∧ w'.sev = w.sev ∧
      (codeOf c ≠ w.first → w.details.length < 8 → ∃ d ∈ w'.details, d.code = codeOf c))) ∧
  (∀ (qs : List Instr) (m : Mach) (b mask : Nat), isBlock b = true → mask < 256 →
    ∃ e : Mach, exec (.causeClear b mask) ⟨qs, m⟩ = .next ⟨qs, e⟩ ∧
      causeBits e b = Nat.land (causeBits m b) (255 - mask) ∧
      (causeBits m b ≠ 0 → causeBits e b = 0 →
        (getBlk e b).first = 0 ∧ (getBlk e b).sev = 0 ∧ (getBlk e b).details = []) ∧
      (getBlk e b).fence = (getBlk m b).fence ∧ (getBlk e b).live = (getBlk m b).live ∧
      (∀ x, x ≠ b → getBlk e x = getBlk m x))

/-- A fault detected during a block's reaction is merged into it: MERGED counts it, its entry carries the merged bit, FIRST and
SEV stand, and its own reaction is taken only where it is more severe than the one in progress. -/
def Obligations.FaultsDuringReactionMerge : Prop :=
  ∀ (m : Mach) (b sev lastNs : Nat) (c : Cause), isBlock b = true → reacting m b = true → causeBits m b ≠ 0 →
    let w := getBlk m b
    let r := detect m b c sev lastNs
    let w' := getBlk r.1 b
    (r.2 = true ↔ w.reactSev < sev) ∧
    w'.first = w.first ∧ w'.sev = w.sev ∧ w'.merged = min (w.merged + 1) 65535 ∧
    (codeOf c ≠ w.first → w.details.length < 8 → ∃ d ∈ w'.details, d.code = codeOf c ∧ d.merged = true) ∧
    (r.2 = false → w'.reactUntil = w.reactUntil ∧ w'.reactSev = w.reactSev)

/-- An event of a dependent detector inside a consequence window takes no reaction and is recorded in the detail list alone,
with its consequential bit and the block of the fence as ORIGIN: CAUSE, FIRST, SEV, MERGED and the interrupt lines stand. -/
def Obligations.ConsequencesAreOnlyListed : Prop :=
  ∀ (m : Mach) (d : Dep) (b sev lastNs o : Nat) (c : Cause), isBlock b = true → maskedBy m d = some o →
    let r := detectDep m d b c sev lastNs
    r.2 = false ∧
    r.1 = { m with blk := r.1.blk } ∧
    (∀ x, getBlk r.1 x = { getBlk m x with details := (getBlk r.1 x).details }) ∧
    (∀ x, causeBits r.1 x = causeBits m x) ∧ (∀ k, irqLow r.1 k = irqLow m k) ∧
    ((getBlk m b).details.length < 8 →
      ∃ y ∈ (getBlk r.1 b).details, y.code = codeOf c ∧ y.consequential = true ∧ y.origin = o)

/-- A serve of the host watchdog, judged against its count; a write of any other value, which leaves the count; and a serve that
starts a watchdog that is OFF, brings one back from HOST_LOST, or finds one that waits. -/
def Obligations.WatchdogServe : Prop :=
  (∀ (qs : List Instr) (m : Mach), wdhUp m = true → m.wdh.st = .running → m.wdh.waiting = false →
    let w := m.wdh
    (w.count < w.openAt → w.count < w.close →
      let n := note { m with wdh := { w with early := true } } blkWdh .wdhEarly (if w.cfg.park then 3 else 2)
      let e := wdhPulse { n with wdh := { n.wdh with st := .hostLost } }
      exec (.wdhServe 0x6C3E) ⟨qs, m⟩ = .next ⟨qs, if w.cfg.park then wdhParkOn e else e⟩ ∧
      e.wdh.st = .hostLost ∧ e.wdh.count = 0 ∧ e.wdh.early = true ∧ e.dev.hostRstUntil = some (m.dev.now + ms 10)) ∧
    (w.openAt ≤ w.count → w.count < w.close →
      exec (.wdhServe 0x6C3E) ⟨qs, m⟩ = .next ⟨qs, { m with wdh := { w with
        count := 0, presc := 0, close := w.cfg.periodMs * 1000, openAt := w.cfg.periodMs * 1000 * w.cfg.win / 8 } }⟩) ∧
    (w.close ≤ w.count → exec (.wdhServe 0x6C3E) ⟨qs, m⟩ = .next ⟨qs, m⟩)) ∧
  (∀ (qs : List Instr) (m : Mach) (key : Nat), key < 65536 → key ≠ 0x6C3E → wdhUp m = true →
    ¬(m.wdh.cfg.compat = true ∧ m.wdh.st = .off) →
    ∃ e, exec (.wdhServe key) ⟨qs, m⟩ = .next ⟨qs, e⟩ ∧ e = note { m with wdh := { m.wdh with badKey := true } } blkWdh .event 1 ∧
      e.wdh.count = m.wdh.count ∧ e.wdh.badKey = true) ∧
  (∀ (qs : List Instr) (m : Mach), wdhUp m = true →
    (m.wdh.waiting = false → m.wdh.cfg.compat = false → m.wdh.st = .off →
      exec (.wdhServe 0x6C3E) ⟨qs, m⟩ = .next ⟨qs, wdhStart m .running⟩) ∧
    (m.wdh.waiting = false → m.wdh.st = .hostLost → m.wdh.count < m.wdh.close →
      exec (.wdhServe 0x6C3E) ⟨qs, m⟩ = .next ⟨qs, wdhParkOff (wdhStart m .running)⟩) ∧
    (m.wdh.waiting = false → m.wdh.st = .hostLost → m.wdh.close ≤ m.wdh.count →
      exec (.wdhServe 0x6C3E) ⟨qs, m⟩ = .next ⟨qs, m⟩) ∧
    (m.wdh.waiting = true → m.wdh.st ≠ .off → exec (.wdhServe 0x6C3E) ⟨qs, m⟩ = .next ⟨qs, m⟩))

/-- Two serves in a row: the second, while the count stands below OPEN, is EARLY; with WIN at 0 it is accepted. -/
def Obligations.SecondServeIsEarly : Prop :=
  ∀ (qs : List Instr) (m : Mach) (n : Nat),
    wdhUp m = true → m.wdh.st = .running → m.wdh.waiting = false → m.wdh.openAt ≤ m.wdh.count → m.wdh.count < m.wdh.close →
    let w := m.wdh.cfg
    let e := advance (wdhServe m 0x6C3E) n
    e.wdh.count = min (w.periodMs * 1000) (n / 1000) ∧ e.wdh.openAt = w.periodMs * 1000 * w.win / 8 ∧
    (w.win ≤ 7 → n / 1000 < w.periodMs * 1000 * w.win / 8 →
      exec (.wdhServe 0x6C3E) ⟨qs, e⟩ = .next ⟨qs, hostLost { e with wdh := { e.wdh with early := true } } .wdhEarly⟩) ∧
    (w.win = 0 → n / 1000 < w.periodMs * 1000 →
      exec (.wdhServe 0x6C3E) ⟨qs, e⟩ = .next ⟨qs, wdhStart e .running⟩)

/-- A gate's token steps on each accepted check-in and on no other; gate 3 of a fresh watchdog expects the four tokens the
manual lists, and a reseeded one begins again. -/
def Obligations.GateTokens : Prop :=
  (∀ m : Mach, m.wds.enabled = true → ∀ g < 16,
    tget (wdsRestart m).wds.tokens 0 g = BitVec.ofNat 24 (0x6C0000 ||| (g + 1))) ∧
  wdsStep 0x6C0004#24 = 0x360002#24 ∧ wdsStep 0x360002#24 = 0x1B0001#24 ∧ wdsStep 0x1B0001#24 = 0xEC8000#24 ∧
  (∀ (qs : List Instr) (m : Mach) (proc word : Nat) (sup : Bool), proc < 2 → word < 2 ^ 32 →
    let g := word / 2 ^ 24 % 16
    let w := m.wds
    ∃ e : Mach, exec (.wdsCheckin proc sup word) ⟨qs, m⟩ = .next ⟨qs, e⟩ ∧
      e = { m with wds := e.wds } ∧
      ((w.enabled = true ∧ m.grd.owner = proc + 1 ∧ sup = true ∧ bit w.mask g = true ∧ bit w.passed g = false ∧
          BitVec.ofNat 24 word = tget w.tokens 0 g) →
        tget e.wds.tokens 0 g = wdsStep (tget w.tokens 0 g) ∧ (∀ j, j ≠ g → tget e.wds.tokens 0 j = tget w.tokens 0 j)) ∧
      (¬(w.enabled = true ∧ m.grd.owner = proc + 1 ∧ sup = true ∧ bit w.mask g = true ∧ bit w.passed g = false ∧
          BitVec.ofNat 24 word = tget w.tokens 0 g) → e.wds.tokens = w.tokens ∧ e.wds.passed = w.passed))

/-- The loop that governs a period is an enabled loop of lowest effort, and among equals the first in the order FOLD, ISRC,
IOUT, V, that is the one of highest number. -/
def Obligations.LowestEffortGoverns : Prop :=
  ∀ (en : Nat) (us : List Int), (∃ i < 4, bit en i = true) →
    let j := selectLoop en us
    j < 4 ∧ bit en j = true ∧
    ∀ i < 4, bit en i = true → us.getD j 0 ≤ us.getD i 0 ∧ (us.getD i 0 = us.getD j 0 → i ≤ j)

/-- A Store profile with its cell voltages out of order, its currents out of order, its pack voltage outside SYS_FOLD + 500 mV
to 59 000 mV, or a high bit of SNTC_MASK, is refused with OUT_OF_RANGE, and the previous profile stays. -/
def Obligations.BadProfilesAreRefused : Prop :=
  ∀ (qs : List Instr) (m : Mach) (s : Nat), s < 5 → ready m 0x0401 s = true →
    let p := payload m s
    let x := profileOf p
    let fold := (pathDerive (modChg (begun m s) 0 fun c => { c with prof := x })).path.sysFold
    (¬(x.dead < x.cut ∧ x.cut < x.pre ∧ x.pre < x.maint ∧ x.maint ≤ x.rech ∧ x.rech < x.term ∧ x.term < x.ov) ∨
      ¬(x.iTerm < x.iPre ∧ x.iPre ≤ x.iCc) ∨
      ¬(fold + 500 ≤ x.cells * x.term ∧ x.cells * x.term ≤ 59000) ∨ 16 ≤ pU p 39 1) →
    let e := settle m s (.refuse .outOfRange)
    exec (.stoProfileSet s) ⟨qs, m⟩ = .next ⟨qs, e⟩ ∧ (getChg e 0).prof = (getChg m 0).prof

/-- The record a verified pack takes: its own; else the lowest free one; else, of those no bay holds, the one seen longest ago,
the lower index among equals. -/
def Obligations.PackRecordChoice : Prop :=
  ∀ (m : Mach) (id : List Byte),
    let r (x : Nat) : PackRec := tget m.recs {} x
    let x := recChoose m id
    ((∃ y < 256, (r y).used = true ∧ (r y).packId = id) → x < 256 ∧ (r x).used = true ∧ (r x).packId = id) ∧
    ((∀ y < 256, (r y).used = true → (r y).packId ≠ id) →
      ((∃ y < 256, (r y).used = false) → x < 256 ∧ (r x).used = false ∧ ∀ y < x, (r y).used = true) ∧
      ((∀ y < 256, (r y).used = true) → (∃ y < 256, recHeld m y = false) →
        x < 256 ∧ recHeld m x = false ∧ ∀ y < 256, recHeld m y = false →
          (r x).lastSeen < (r y).lastSeen ∨ (r x).lastSeen = (r y).lastSeen ∧ x ≤ y))

/-- A pin's resistance from its readings under 20 and 2 uA, in ohm, rounded down (the model's choice, log entry 79); none is
open. -/
def Obligations.MoistureResistance : Prop :=
  ∀ x : PinMeas,
    (x.v20 < 2400 → pinOhm x = some ((x.v20 - x.v2).toNat * 1000 / 18)) ∧
    (2400 ≤ x.v20 → x.v2 < 2400 →
      pinOhm x = if (x.v2 - x.voff).toNat * 1000 / 2 < 1200000 then some ((x.v2 - x.voff).toNat * 1000 / 2) else none) ∧
    (2400 ≤ x.v20 → 2400 ≤ x.v2 → pinOhm x = none)

/-- The always-on clock and the watchdog's count take the same course however a stretch of time is divided, and a stretch of
`k` AONCLK ticks from a tick adds 1 000 per tick to the accumulator, a millisecond for each 32 768. -/
def Obligations.TimeAddsUp : Prop :=
  (∀ (m : Mach) (a b : Nat), m.dev.aonFrac < 1000000000 → m.dev.aonAcc < 32768 → m.wdh.presc < 1000 →
    let e := advance (advance m a) b
    let e' := advance m (a + b)
    e.dev = e'.dev ∧ e.wdh.count = e'.wdh.count ∧ e.wdh.presc = e'.wdh.presc) ∧
  (∀ (m : Mach) (n : Nat), m.dev.aonclk = true →
    let k := (m.dev.aonFrac + n * 32768) / 1000000000
    let e := (advance m n).dev
    e.aonAcc = (m.dev.aonAcc + 1000 * k) % 32768 ∧
    e.aonMs = (m.dev.aonMs + (m.dev.aonAcc + 1000 * k) / 32768) % 2 ^ 32)

/-- The ball map: each group has the balls its table counts, every ball of the 45 x 45 field being in one group, and the pins of
the ports, the channels, the stage temperatures and the cell taps lie on the balls their formulas give. -/
def Obligations.BallGroups : Prop :=
  (∀ g ∈ groupBalls,
    ((List.range 2025).filter fun i => (ballPin { row := i / 45 + 1, col := i % 45 + 1 }).1 = g.1).length = g.2) ∧
  (groupBalls.map (·.2)).sum = 2025 ∧
  (∀ p < 48, ∀ x ∈ [PortPin.cc1, .cc2, .dp, .dm, .ui, .vbs, .vcs, .vbg, .vbd, .pth],
    ballPin (portBall p x) = (.portSignal, portPinName x ++ "_P" ++ toString p)) ∧
  (∀ n < 256, ballPin (pwmBall n) = (.channelOut, "PWM_H" ++ toString n) ∧
    ballPin (imonBall n) = (.channelIn, "IMON_H" ++ toString n)) ∧
  (∀ j < 16, ballPin (tmonBall j) = (.stageTemp, "TMON" ++ toString j)) ∧
  (∀ c < 17, ballPin (stBall c) = (.store, "ST" ++ toString c))

/-- Samples that meet in one interval are taken in the order of their classes, none is lost on the way to that order, and whatever
the contention, a sample dropped is one that was asked for and never a loop voltage or Store current sample, the fold monitor's or
VBS; that the last two wait on is the model's choice, log entry 101. -/
def Obligations.SampleArbitration : Prop :=
  (∀ l : List ApReq, (apOrder l).Perm l ∧ (apOrder l).Pairwise fun x y => x.cls ≤ y.cls) ∧
  (∀ (cap n i : Nat) (reqs waiting : List ApReq), ∀ r ∈ arbitrate cap reqs n i waiting,
    (r ∈ waiting ∨ r ∈ reqs) ∧ (r.cls = 2 ∨ 4 ≤ r.cls))

/-- Completion of the device information and power commands: each of the rows named below, in every state and for all operands that meet its conditions, answers
the next state written out; whatever that expression does not change stands, the queue of waiting commands among it. -/
def Obligations.DeviceAndPowerCommands : Prop :=
  -- DEV_INFO_GET (R475)
  (∀ (qs : List Instr) (m₀ : Mach) (slot : Nat),
    slot < 5 →
    ready m₀ 0x0101 slot = true →
    let m := begun m₀ slot
    let v (kind : Nat) : List Byte :=
      let w := regionVersion m kind (ptrOf m kind)
      le 1 (w / 2 ^ 24) ++ le 1 (w / 2 ^ 16)
    exec (.devInfoGet slot) ⟨qs, m₀⟩ = .next ⟨qs, settle m₀ slot <|
      .ok m (le 4 Config.devId ++ le 4 Config.devRev ++ le 4 (fwWord m) ++ le 4 cap0Word ++ le 4 cap1Word ++ le 4 (uidWord m 0)
        ++ le 4 (uidWord m 1) ++ v 2 ++ v 3 ++ le 4 (arbVersion m))⟩) ∧
  -- DEV_CMD_CAPS_GET (R475)
  (∀ (qs : List Instr) (m₀ : Mach) (slot : Nat),
    slot < 5 →
    ready m₀ 0x0102 slot = true →
    let m := begun m₀ slot
    let p := payload m₀ slot
    let g := pU p 0 1
    within g 0x01 0x11 = true →
    exec (.devCmdCapsGet slot) ⟨qs, m₀⟩ = .next ⟨qs, settle m₀ slot <|
      .ok m (le 32 (capsMask g))⟩) ∧
  -- DEV_ECHO (R475)
  (∀ (qs : List Instr) (m₀ : Mach) (slot : Nat),
    slot < 5 →
    ready m₀ 0x0103 slot = true →
    let m := begun m₀ slot
    let p := payload m₀ slot
    exec (.devEcho slot) ⟨qs, m₀⟩ = .next ⟨qs, settle m₀ slot <|
      .ok m p⟩) ∧
  -- PWR_STATE_SET (R487)
  (∀ (qs : List Instr) (m₀ : Mach) (s : Nat),
    s < 5 →
    ready m₀ 0x0201 s = true →
    let m := begun m₀ s
    let p := payload m₀ s
    let t := pU p 0 1
    let att := anyAttached m
    let barred := (t = 1 && att) || (t = 2 && (att || anyInput m || bayCharging m || updOpen m))
      || (t = 3 && (anyInput m || att || bootSinkOn m))
    (3 < t || pU p 2 2 ≠ (if t = 3 then 0xA5C3 else 0) : Bool) = false →
    barred = false →
    m₀.pwr.stateDue = none →
    exec (.pwrStateSet s) ⟨qs, m₀⟩ = .next ⟨qs, stateGo <| settle m₀ s <|
      .accepted { m with pwr := { m.pwr with stateDue := some t, stateSeq := (getSlot m s).jseq } }⟩) ∧
  -- PWR_RESET (R482)
  (∀ (qs : List Instr) (m₀ : Mach) (s : Nat),
    s < 5 →
    ready m₀ 0x0202 s = true →
    let m := begun m₀ s
    let p := payload m₀ s
    let k := pU p 0 1
    let u := pU p 1 1
    let okUnit := if k = 0 then u = 0 else if k = 2 then (blkResetNs u).isSome else u < 2
    (3 < k || !okUnit || pU p 2 2 ≠ 0xA5C3 : Bool) = false →
    ((k = 1 && m.grd.owner = u + 1) || updUses m k u || (k = 2 && 0x70 ≤ u && u < 0x78 && !canMove m (u - 0x70)) : Bool) = false →
    exec (.pwrReset s) ⟨qs, m₀⟩ = .next ⟨qs, resetGo <| settle m₀ s <|
      .ok { m with pwr := { m.pwr with resetDue := some (k, u) } } []⟩) ∧
  -- PWR_STAT_GET (R490)
  (∀ (qs : List Instr) (m₀ : Mach) (slot : Nat),
    slot < 5 →
    ready m₀ 0x0203 slot = true →
    let m := begun m₀ slot
    let w := m.pwr
    exec (.pwrStatGet slot) ⟨qs, m₀⟩ = .next ⟨qs, settle m₀ slot <|
      .ok m (le 1 (pwrStCode w.st) ++ le 1 w.lastReset ++ le 1 w.lastWake ++ le 1 (satTo 255 (escRecent m).length)
        ++ (w.counts.flatMap fun n => le 2 n) ++ le 4 w.standbyS ++ le 1 w.borCause ++ [0, 0, 0])⟩) ∧
  -- PWR_WAKE_CFG (R489)
  (∀ (qs : List Instr) (m₀ : Mach) (slot : Nat),
    slot < 5 →
    ready m₀ 0x0204 slot = true →
    let m := begun m₀ slot
    let p := payload m₀ slot
    let q := pU p 2 2
    let t := pU p 4 4
    (31 < pU p 0 1 || !(q = 0 || within q 10 3600) || !(t = 0 || within t 1 604800) : Bool) = false →
    exec (.pwrWakeCfg slot) ⟨qs, m₀⟩ = .next ⟨qs, settle m₀ slot <| persist 0x0204 0 p <|
      .ok { m with pwr := { m.pwr with wakeEn := pU p 0 1, quietAfterS := q, wakeTimerS := t } } []⟩)

/-- Completion of the source, path, Store and AUX commands: each of the rows named below, in every state and for all operands that meet its conditions, answers
the next state written out; whatever that expression does not change stands, the queue of waiting commands among it. -/
def Obligations.SourceAndStoreCommands : Prop :=
  -- SRC_INPUT_CFG (R152)
  (∀ (qs : List Instr) (m₀ : Mach) (slot : Nat),
    slot < 5 →
    ready m₀ 0x0301 slot = true →
    let m := begun m₀ slot
    let p := payload m₀ slot
    let i := pU p 0 1
    let typ := pU p 1 1
    let fl := pU p 3 1
    (5 < i || 3 < typ || 5 < pU p 2 1 || 3 < fl || !within (pU p 4 4) 100 80000 || 159000 < pU p 8 4
        || !within (pU p 12 4) 5000 160000 || !within (pU p 16 4) 3000 150000
        || !within (pU p 20 2) 50 2000 || !within (pU p 22 2) 20 1000 || !within (pU p 24 2) 10 3600
        || !within (pU p 26 2) 600 900 || 3600 < pU p 28 2 : Bool) = false →
    exec (.srcInputCfg slot) ⟨qs, m₀⟩ = .next ⟨qs, settle m₀ slot <|
      let old := getInp m i
      let en := bit fl 0
      let use_ := en && typ ≠ 0
      let changed := old.typ ≠ typ
      let stops := changed || (old.enable && !en)
      let ran := (getCv m (48 + i)).run || (getCv m (48 + i)).starting || old.scanning
      let m := modInp m i fun x =>
        { x with
          typ := typ, rank := pU p 2 1, enable := en, startPath := bit fl 1, ilimMa := pU p 4 4, vfloorMv := pU p 8 4
          vmaxMv := pU p 12 4, presentMv := pU p 16 4, stepMv := pU p 20 2, periodMs := pU p 22 2, scanS := pU p 24 2
          foc := pU p 26 2, vehHoldS := pU p 28 2
          present := x.present && use_, parked := x.parked && use_ && !changed
          scanning := x.scanning && !stops, scanEndAt := if stops then none else x.scanEndAt
          stopped := if use_ then x.stopped else 0, restartAt := if use_ then x.restartAt else none
          floorNow := if typ = 2 then (if changed then 0 else x.floorNow) else pU p 8 4
          lastPower := if changed then 0 else x.lastPower, pmppMw := if changed then 0 else x.pmppMw
          scanAt := if typ = 2 && use_ then (if changed || x.scanAt.isNone then after m (sec (pU p 24 2)) else x.scanAt)
                    else none
          vehDetAt := if changed then (if typ = 3 && x.present && use_ then after m (sec 1) else none) else x.vehDetAt
          veh24 := if changed then none else x.veh24 }
      let m := if typ = 2 && changed then
          let (n, m) := draw m
          modInp m i fun x => { x with floorNow := Config.freeNat n }
        else m
      let m := if stops then stopRun m (48 + i) else m
      let m := ladderApply (rankRecompute m)
      .ok (if stops && ran && use_ && (getInp m i).stopped = 0 then requestStart m (48 + i) else m) []⟩) ∧
  -- SRC_PATH_CFG (R165)
  (∀ (qs : List Instr) (m₀ : Mach) (slot : Nat),
    slot < 5 →
    ready m₀ 0x0302 slot = true →
    let m := begun m₀ slot
    let p := payload m₀ slot
    let mnCfg := pU p 0 2
    let pr := (getChg m 0).prof
    let mn := if mnCfg ≠ 0 then mnCfg else pr.cells * (if pr.chem = 2 then 2500 else 3000)
    let fold := pU p 2 2
    (!(mnCfg = 0 || within mnCfg 5000 48000) || !(fold = 0 || within fold (mn + 300) (mn + 5000))
        || !within (pU p 4 2) 1000 30000 || !within (pU p 6 1) 10 100 || 3 < pU p 7 1
        || !within (pU p 8 2) 10 500 || !within (pU p 10 2) (7 * pU p 6 1 + 50) 2000 || 100 < pU p 12 1
        || !within (pU p 13 1) 3 240 : Bool) = false →
    exec (.srcPathCfg slot) ⟨qs, m₀⟩ = .next ⟨qs, settle m₀ slot <|
      let m := { m with path := { m.path with
        sysMinCfg := mnCfg, sysFoldCfg := fold, pdCapMw := pU p 4 2, vStep := pU p 6 1, donorPol := pU p 7 1
        iStep := pU p 8 2, diodeOfs := pU p 10 2, donorSoc := pU p 12 1, bootPwrW := pU p 13 1 } }
      .ok (ladderApply (pathDerive m)) []⟩) ∧
  -- SRC_INPUT_STAT_GET (R178)
  (∀ (qs : List Instr) (m₀ : Mach) (slot : Nat),
    slot < 5 →
    ready m₀ 0x0303 slot = true →
    let m := begun m₀ slot
    let p := payload m₀ slot
    let i := pU p 0 1
    (5 < i : Bool) = false →
    exec (.srcInputStatGet slot) ⟨qs, m₀⟩ = .next ⟨qs, settle m₀ slot <|
      let x := getInp m i
      let age := match x.lastScan with
        | some t => satTo 65535 ((m.dev.now - t) / sec 1)
        | none => 65535
      .ok m ([BitVec.ofNat 8 (inputState m i), BitVec.ofNat 8 x.effRank, BitVec.ofNat 8 (getCv m (48 + i)).ctrl.sel, 0]
        ++ le 4 (vinOf m i) ++ le 4 (iinOf m i) ++ le 4 (vinOf m i * iinOf m i / 1000) ++ le 4 x.vocMv
        ++ le 4 x.floorNow ++ le 4 x.pmppMw ++ le 2 age ++ le 2 x.scanSkipped)⟩) ∧
  -- SRC_MPPT_SCAN (R163)
  (∀ (qs : List Instr) (m₀ : Mach) (slot : Nat),
    slot < 5 →
    ready m₀ 0x0304 slot = true →
    let m := begun m₀ slot
    let p := payload m₀ slot
    let i := pU p 0 1
    (5 < i : Bool) = false →
    ((getInp m i).typ ≠ 2 || scanSkips m i : Bool) = false →
    exec (.srcMpptScan slot) ⟨qs, m₀⟩ = .next ⟨qs, settle m₀ slot <|
      .ok (modInp m i fun x => { x with scanAt := some m.dev.now }) []⟩) ∧
  -- SRC_SYS_TARGET_SET (R166)
  (∀ (qs : List Instr) (m₀ : Mach) (slot : Nat),
    slot < 5 →
    ready m₀ 0x0305 slot = true →
    let m := begun m₀ slot
    let p := payload m₀ slot
    let t := pU p 0 2
    (within t (m.path.sysFold + 500) 59000) = true →
    (m.path.mode ≠ .off : Bool) = false →
    exec (.srcSysTargetSet slot) ⟨qs, m₀⟩ = .next ⟨qs, settle m₀ slot <|
      .ok (ladderApply { m with path := { m.path with sysTgt := t, sysTgtSet := true } }) []⟩) ∧
  -- STO_PROFILE_SET (R181)
  (∀ (qs : List Instr) (m₀ : Mach) (slot : Nat),
    slot < 5 →
    ready m₀ 0x0401 slot = true →
    let m := begun m₀ slot
    let p := payload m₀ slot
    profileFits m p = true →
    exec (.stoProfileSet slot) ⟨qs, m₀⟩ = .next ⟨qs, settle m₀ slot <|
      .ok (chgEnFollows (nvmConfig (putProfile m (profileOf p)) 0x0401 0 p)) []⟩) ∧
  -- STO_TWIN_SET (R189)
  (∀ (qs : List Instr) (m₀ : Mach) (slot : Nat),
    slot < 5 →
    ready m₀ 0x0402 slot = true →
    let m := begun m₀ slot
    let p := payload m₀ slot
    twinOk (twinOf p) = true →
    exec (.stoTwinSet slot) ⟨qs, m₀⟩ = .next ⟨qs, settle m₀ slot <|
      .ok { m with sto := { m.sto with twin := twinOf p } } []⟩) ∧
  -- STO_CHG_CTRL (R200)
  (∀ (qs : List Instr) (m₀ : Mach) (s : Nat),
    s < 5 →
    ready m₀ 0x0403 s = true →
    let m := begun m₀ s
    let p := payload m₀ s
    let c := pU p 0 1
    let a := pU p 1 1
    let x := getChg m c
    (48 < c || 3 < a || (c ≠ 0 && !isBay m (c - 1)) : Bool) = false →
    (a = 2 && (x.st ≠ .stopped || x.prof.term < cellHigh m c) : Bool) = false →
    (a = 3 && x.st ≠ .done && x.st ≠ .maint : Bool) = false →
    let on := modChg m c fun x => { x with chgEn := a = 1 }
    exec (.stoChgCtrl s) ⟨qs, m₀⟩ = .next ⟨qs, settle m₀ s <|
      if a < 2 then (if c = 0 then .ok (nvmConfig on 0x0403 0 p) [] else .ok on [])
      else if a = 2 then .ok (chgEnter (cycleStart m c) c .check) []
      else .ok (modChg m c fun x => { x with fullReq := true }) []⟩) ∧
  -- STO_CHG_STAT_GET (R202)
  (∀ (qs : List Instr) (m₀ : Mach) (slot : Nat),
    slot < 5 →
    ready m₀ 0x0404 slot = true →
    let m := begun m₀ slot
    let p := payload m₀ slot
    let c := pU p 0 1
    (48 < c || (c ≠ 0 && !isBay m (c - 1)) : Bool) = false →
    exec (.stoChgStatGet slot) ⟨qs, m₀⟩ = .next ⟨qs, settle m₀ slot <|
      let x := getChg m c
      let t : ChgTimer := if timerLen x = 0 then {} else timerOf x
      let v := if c = 0 then x.vChg else ((tget (getCv m (c - 1)).ctrl.loops {} 0).ref / 65536).toNat
      .ok m ([BitVec.ofNat 8 (chgCode x.st), BitVec.ofNat 8 x.cause] ++ le 2 x.winTransitions ++ le 4 v
        ++ le 4 (vTermPack m c) ++ le 4 x.iNow ++ leI 4 x.iMa ++ leI 2 x.tMin ++ leI 2 x.tMax ++ le 4 t.runMs
        ++ le 4 t.spanS ++ le 4 t.limS ++ le 2 (cellLow m c) ++ le 2 (cellHigh m c)
        ++ le 2 (if c = 0 then x.imbTrim else 0) ++ [0, 0])⟩) ∧
  -- STO_AUX_CFG (R203)
  (∀ (qs : List Instr) (m₀ : Mach) (slot : Nat),
    slot < 5 →
    ready m₀ 0x0405 slot = true →
    let m := begun m₀ slot
    let p := payload m₀ slot
    let v := pU p 4 4
    let i := pU p 8 4
    (1 < pU p 0 1 || 2 < pU p 1 1 || 3 < pU p 2 1 || 100 < pU p 3 1 || !within v 5000 60000
        || !within i 100 80000 || 3600 < pU p 12 2 || irateTotal m 54 * v < v * i : Bool) = false →
    exec (.stoAuxCfg slot) ⟨qs, m₀⟩ = .next ⟨qs, settle m₀ slot <|
      let m := { m with aux := { m.aux with
        enable := pU p 0 1 = 1, policy := pU p 1 1, cls := pU p 2 1, soc := pU p 3 1, voutMv := v, ilimMa := i, holdS := pU p 12 2
        foldOver := false, iOver := none } }
      let m := auxEval m
      .ok (if (getCv m 54).run then auxRefs m else m) []⟩)

/-- Completion of the Lift, port and user-interface commands: each of the rows named below, in every state and for all operands that meet its conditions, answers
the next state written out; whatever that expression does not change stands, the queue of waiting commands among it. -/
def Obligations.LiftAndPortCommands : Prop :=
  -- LFT_CFG (R224)
  (∀ (qs : List Instr) (m₀ : Mach) (slot : Nat),
    slot < 5 →
    ready m₀ 0x0501 slot = true →
    let m := begun m₀ slot
    let p := payload m₀ slot
    (100000 < pU p 0 4 || 500000 < pU p 4 4 || !within (pU p 8 2) 800 1000
        || !within (pU p 10 2) 800 1000 || !within (pU p 12 2) 60 7200 || !within (pU p 14 2) 100 2000
        || !within (pU p 16 2) 2500 60000 || !within (pU p 18 2) 5 600 || 50 < pU p 20 1
        || !within (pU p 21 1) (pU p 20 1 + 1) 100 || 50 < pU p 22 1 : Bool) = false →
    exec (.lftCfg slot) ⟨qs, m₀⟩ = .next ⟨qs, settle m₀ slot <|
      .ok { m with lft := { m.lft with
        ovhMw := pU p 0 4, resMw := pU p 4 4, effIn := pU p 8 2, effOut := pU p 10 2, bridgeMinS := pU p 12 2
        reclaimHardMs := pU p 14 2, floorMw := pU p 16 2, restoreS := pU p 18 2, socRes := pU p 20 1
        socTaper := pU p 21 1, restMargin := pU p 22 1 } } []⟩) ∧
  -- LFT_CLASS_SET (R225)
  (∀ (qs : List Instr) (m₀ : Mach) (slot : Nat),
    slot < 5 →
    ready m₀ 0x0502 slot = true →
    let m := begun m₀ slot
    let p := payload m₀ slot
    let k := pU p 0 1
    (47 < k || 3 < pU p 1 1 : Bool) = false →
    exec (.lftClassSet slot) ⟨qs, m₀⟩ = .next ⟨qs, settle m₀ slot <|
      .ok { m with lft := { m.lft with classSet := tupd m.lft.classSet k fun _ => some (pU p 1 1) } } []⟩) ∧
  -- LFT_BUDGET_GET (R227)
  (∀ (qs : List Instr) (m₀ : Mach) (slot : Nat),
    slot < 5 →
    ready m₀ 0x0503 slot = true →
    let m := begun m₀ slot
    let l := m.lft
    exec (.lftBudgetGet slot) ⟨qs, m₀⟩ = .next ⟨qs, settle m₀ slot <|
      .ok m (le 4 l.capIn ++ le 4 l.capDonor ++ le 4 l.aSt ++ le 4 l.s ++ le 4 l.cost ++ le 4 (deficit m).toNat ++ le 4 l.dMax
        ++ le 4 l.eAvail ++ le 4 (match bridgeS m with
            | some b => satTo 0xFFFFFFFE b
            | none => 0xFFFFFFFF) ++ le 4 l.chargeGrant ++ le 4 l.cycle)⟩) ∧
  -- LFT_PASS_GET (R228)
  (∀ (qs : List Instr) (m₀ : Mach) (slot : Nat),
    slot < 5 →
    ready m₀ 0x0504 slot = true →
    let m := begun m₀ slot
    let p := payload m₀ slot
    let h := pU p 0 1
    (49 < h : Bool) = false →
    exec (.lftPassGet slot) ⟨qs, m₀⟩ = .next ⟨qs, settle m₀ slot <|
      let x := getHold m h
      .ok m (le 4 x.req ++ le 4 x.grant ++ le 4 (if h = 49 then x.grant else holdCost m h)
        ++ [BitVec.ofNat 8 (if h = 49 then 0xFF else clsOf m h), BitVec.ofNat 8 (holdState m h)]
        ++ le 2 (if x.held then satTo 65535 ((m.dev.now - x.since) / sec 1) else 0))⟩) ∧
  -- PRT_CFG (R232)
  (∀ (qs : List Instr) (m₀ : Mach) (slot : Nat),
    slot < 5 →
    ready m₀ 0x0601 slot = true →
    let m := begun m₀ slot
    let p := payload m₀ slot
    let q := pU p 0 1
    let topo := (getCv m q).decl.topo
    (47 < q || 2 < pU p 1 1 || 1 < pU p 2 1 || 2 < pU p 3 1 || 3 < pU p 4 1 || (pU p 1 1 = 2 && topo ≠ 1
        && topo ≠ 2) : Bool) = false →
    (tcBusy (getPort m q) || (m.svc.link ≠ 0 && m.svc.port = q) : Bool) = false →
    exec (.prtCfg slot) ⟨qs, m₀⟩ = .next ⟨qs, settle m₀ slot <| persist 0x0601 (pU p 0 1) p <|
      .ok (putPrtCfg m p) []⟩) ∧
  -- PRT_STAT_GET (R260)
  (∀ (qs : List Instr) (m₀ : Mach) (slot : Nat),
    slot < 5 →
    ready m₀ 0x0602 slot = true →
    let m := begun m₀ slot
    let p := payload m₀ slot
    let q := pU p 0 1
    (47 < q : Bool) = false →
    exec (.prtStatGet slot) ⟨qs, m₀⟩ = .next ⟨qs, settle m₀ slot <|
      let x := getPort m q
      let role := if x.tc = .attachedSrc then 1 else if x.tc = .attachedSnk then 2 else 0
      let src := x.tc = .attachedSrc || x.tc = .unattachedSrc || x.tc = .attachWaitSrc || x.tc = .trySrc || x.tc = .tryWaitSrc
      let fl := x.cc + flag x.vconn 1 + flag x.dcp 2 + flag x.ra 3 + flag (m.svc.armPort = some q) 4
        + flag (m.svc.link ≠ 0 && m.svc.port = q) 5 + flag ((getKey m q).hostLed).isSome 6
      .ok m (le 1 x.mode ++ le 1 (tcCode x.tc) ++ le 1 role ++ le 1 x.behav ++ le 1 (if src then x.rp else 3)
        ++ le 1 (findCode x.finding) ++ le 1 fl ++ le 1 0 ++ le 2 x.vbsMv ++ le 2 x.vconnMa ++ le 4 x.plugs)⟩) ∧
  -- PRT_MOIST_GET (R249)
  (∀ (qs : List Instr) (m₀ : Mach) (slot : Nat),
    slot < 5 →
    ready m₀ 0x0603 slot = true →
    let m := begun m₀ slot
    let p := payload m₀ slot
    let q := pU p 0 1
    (47 < q : Bool) = false →
    exec (.prtMoistGet slot) ⟨qs, m₀⟩ = .next ⟨qs, settle m₀ slot <|
      let x := getPort m q
      let age := match x.checkedAt with
        | some t => satTo 65535 ((m.dev.now - t) / sec 1)
        | none => 65535
      .ok m (le 1 (findCode x.last) ++ le 1 x.dry ++ le 1 (x.ofsRuns.foldl max 0) ++ le 1 x.kind
        ++ (x.pins.flatMap fun r => le 2 r.rKohm ++ leI 2 r.voff) ++ le 2 age ++ le 2 0 ++ le 4 x.checks)⟩) ∧
  -- PRT_MOIST_CLEAR (R248)
  (∀ (qs : List Instr) (m₀ : Mach) (s : Nat),
    s < 5 →
    ready m₀ 0x0604 s = true →
    let m := begun m₀ s
    let p := payload m₀ s
    let q := pU p 0 1
    isService m s = true →
    (47 < q && q ≠ 0xFF : Bool) = false →
    exec (.prtMoistClear s) ⟨qs, m₀⟩ = .next ⟨qs, settle m₀ s <|
      .ok (forAll m (if q = 0xFF then List.range 48 else [q]) fun m p =>
        if (getPort m p).mode = 0 then m
        else if (getPort m p).checkEndAt.isSome then modPort m p fun x => { x with clearDue := true } else moistClear m p) []⟩) ∧
  -- PRT_WASHDOWN (R250)
  (∀ (qs : List Instr) (m₀ : Mach) (slot : Nat),
    slot < 5 →
    ready m₀ 0x0605 slot = true →
    let m := begun m₀ slot
    let p := payload m₀ slot
    let a := pU p 0 1
    let onlyBoot := bit (pathStatWord m) 28 && !m.path.storePresent && (presentInputs m).isEmpty
    (1 < a : Bool) = false →
    (a = 1 && (m.ui.washdown || onlyBoot) : Bool) = false →
    (a = 0 && !m.ui.washdown : Bool) = false →
    exec (.prtWashdown slot) ⟨qs, m₀⟩ = .next ⟨qs, settle m₀ slot <|
      .ok (if a = 1 then washEnter m else washLeave m false) []⟩) ∧
  -- PRT_UI_CFG (R258)
  (∀ (qs : List Instr) (m₀ : Mach) (slot : Nat),
    slot < 5 →
    ready m₀ 0x0606 slot = true →
    let m := begun m₀ slot
    let p := payload m₀ slot
    let q := pU p 0 1
    ((47 < q && q ≠ 0xFF) || 200 < pU p 1 1 || 100 < pU p 2 1 || 3 < pU p 3 1
        || !within (pU p 4 2) 10 2000 : Bool) = false →
    exec (.prtUiCfg slot) ⟨qs, m₀⟩ = .next ⟨qs, settle m₀ slot <|
      .ok (forAll m (if q = 0xFF then List.range 48 else [q]) fun m i => modKey m i fun k =>
        let off := k.delta ≠ pU p 4 2 || !bit (pU p 3 1) 0
        let k := { k with ledDma := pU p 1 1, dimPct := pU p 2 1, touchEn := bit (pU p 3 1) 0, ledEn := bit (pU p 3 1) 1
                          delta := pU p 4 2 }
        if off then { k with pressed := false, overCnt := 0, under := 0, held := false, longHeld := false, holdAt := none
                             longAt := none, stuckAt := none } else k) []⟩) ∧
  -- PRT_UI_EVENT_GET (R259)
  (∀ (qs : List Instr) (m₀ : Mach) (slot : Nat),
    slot < 5 →
    ready m₀ 0x0607 slot = true →
    let m := begun m₀ slot
    let es := m.ui.events.take 32
    exec (.prtUiEventGet slot) ⟨qs, m₀⟩ = .next ⟨qs, settle m₀ slot <|
      .ok { m with ui := { m.ui with events := m.ui.events.drop 32, dropped := 0 } }
        (le 2 es.length ++ le 2 m.ui.dropped
          ++ es.flatMap fun e => le 4 e.timeMs ++ le 1 e.port ++ le 1 e.gesture ++ le 1 (if e.armed then 1 else 0) ++ le 1 0)⟩) ∧
  -- PRT_LED_SET (R254)
  (∀ (qs : List Instr) (m₀ : Mach) (slot : Nat),
    slot < 5 →
    ready m₀ 0x0608 slot = true →
    let m := begun m₀ slot
    let p := payload m₀ slot
    let q := pU p 0 1
    let pt := pU p 1 1
    (47 < q || (8 < pt && pt ≠ 0xFF) || 100 < pU p 2 1 : Bool) = false →
    exec (.prtLedSet slot) ⟨qs, m₀⟩ = .next ⟨qs, settle m₀ slot <|
      .ok (modKey m q fun k => { k with hostLed := if pt = 0xFF then none else some pt, level := pU p 2 1 }) []⟩)

/-- Completion of the PD and bay commands: each of the rows named below, in every state and for all operands that meet its conditions, answers
the next state written out; whatever that expression does not change stands, the queue of waiting commands among it. -/
def Obligations.PdAndBayCommands : Prop :=
  -- PD_SRC_CFG (R292)
  (∀ (qs : List Instr) (m₀ : Mach) (slot : Nat),
    slot < 5 →
    ready m₀ 0x0701 slot = true →
    let m := begun m₀ slot
    let p := payload m₀ slot
    let q := pU p 0 1
    ((47 < q && q ≠ 0xFF) || 2 < pU p 2 1 || 1 < pU p 3 1 || !within (pU p 4 4) 2500 240000
        || !within (pU p 8 2) 500 5000 : Bool) = false →
    exec (.pdSrcCfg slot) ⟨qs, m₀⟩ = .next ⟨qs, settle m₀ slot <| persistPorts 0x0701 p <|
      .ok (forAll m (portsOf q) fun m i =>
        let m := modPd m i fun x => { x with pdoMask := pU p 1 1, drPol := pU p 2 1, eprEn := bit (pU p 3 1) 0
                                             pmaxMw := pU p 4 4, imaxMa := pU p 8 2 }
        let x := getPd m i
        if !isSource m i || x.offer.isEmpty then m
        else
          let m := if x.epr && (!x.eprEn || x.pmaxMw ≤ 100000) then modPd m i fun x => { x with eprExit := true } else m
          let o := offerMw m i
          let objs := buildOffer m i o x.epr
          let covered := match x.req with
            | some r => (objs[r.pos - 1]?).isSome && reqOk { x with offer := objs } r
            | none => true
          let m := if x.contract && !covered then
              modHold m i fun h => { h with renego := true, hardAt := some (m.dev.now + ms m.lft.reclaimHardMs) } else m
          modPd m i fun x => { x with capsAt := some m.dev.now }) []⟩) ∧
  -- PD_SNK_CFG (R293)
  (∀ (qs : List Instr) (m₀ : Mach) (slot : Nat),
    slot < 5 →
    ready m₀ 0x0702 slot = true →
    let m := begun m₀ slot
    let p := payload m₀ slot
    let q := pU p 0 1
    ((47 < q && q ≠ 0xFF) || 1 < pU p 1 1 || !within (pU p 4 4) 2500 240000
        || !within (pU p 8 2) 5000 48000 || !within (pU p 10 2) (pU p 8 2) 48000 : Bool) = false →
    exec (.pdSnkCfg slot) ⟨qs, m₀⟩ = .next ⟨qs, settle m₀ slot <| persistPorts 0x0702 p <|
      .ok (forAll m (portsOf q) fun m i => modPd m i fun x =>
        { x with snkEpr := bit (pU p 1 1) 0, snkPmax := pU p 4 4, snkVmin := pU p 8 2, snkVmax := pU p 10 2 }) []⟩) ∧
  -- PD_STAT_GET (R294)
  (∀ (qs : List Instr) (m₀ : Mach) (slot : Nat),
    slot < 5 →
    ready m₀ 0x0703 slot = true →
    let m := begun m₀ slot
    let p := payload m₀ slot
    let q := pU p 0 1
    (47 < q : Bool) = false →
    exec (.pdStatGet slot) ⟨qs, m₀⟩ = .next ⟨qs, settle m₀ slot <|
      let x := getPd m q
      let fl := flag (getPort m q).damp5 0 + flag x.mismatch 1
        + flag (x.contract && x.kind = 2 && (getCv m q).run && (getCv m q).ctrl.sel = 1) 2 + flag (getPort m q).vconnOc 3
      .ok m (le 1 (sessionCode m q) ++ le 1 x.rev ++ le 1 (rolesByte m q) ++ le 1 (tget m.serves 0xFF q) ++ le 1 x.kind
        ++ le 1 x.pos ++ le 1 x.cable ++ le 1 fl ++ le 2 (if x.contract then x.vTarget else 0) ++ le 2 x.opMa
        ++ le 4 x.offerMw ++ le 2 x.hardResets ++ le 2 x.softResets ++ le 4 x.txFail ++ le 1 x.lastAbort ++ le 3 0)⟩) ∧
  -- PD_DR_SWAP_REQ (R295)
  (∀ (qs : List Instr) (m₀ : Mach) (s : Nat),
    s < 5 →
    ready m₀ 0x0704 s = true →
    let m := begun m₀ s
    let p := payload m₀ s
    let q := pU p 0 1
    let role := pU p 1 1
    let x := getPd m q
    (47 < q || 1 < role : Bool) = false →
    (!commandable m q || x.dfp = (role = 1) || x.drPending || x.drSeq.isSome : Bool) = false →
    exec (.pdDrSwapReq s) ⟨qs, m₀⟩ = .next ⟨qs, settle m₀ s <|
      .accepted (drSwapOut (modPd m q fun x => { x with drSeq := some (getSlot m s).jseq }) q (role = 0))⟩) ∧
  -- PD_RESET (R295)
  (∀ (qs : List Instr) (m₀ : Mach) (s : Nat),
    s < 5 →
    ready m₀ 0x0705 s = true →
    let m := begun m₀ s
    let p := payload m₀ s
    let q := pU p 0 1
    let k := pU p 1 1
    let seq := (getSlot m s).jseq
    let mark (m : Mach) : Mach := modPd m q fun x => { x with rstSeq := some seq }
    (k = 1 && !isService m s : Bool) = false →
    (47 < q || 2 < k : Bool) = false →
    (!commandable m q || (getPd m q).rstSeq.isSome || (k = 2 && !isSource m q) : Bool) = false →
    exec (.pdReset s) ⟨qs, m₀⟩ = .next ⟨qs, settle m₀ s <|
      .accepted (if k = 0 then mark (softResetOut m q)
        else if k = 1 then
          mark (if isSink m q then sinkSignal m q else hardSignal m q)
        else mark (modPd m q fun x => { x with capsAt := some m.dev.now }))⟩) ∧
  -- PD_CORE_STAT_GET (R296)
  (∀ (qs : List Instr) (m₀ : Mach) (slot : Nat),
    slot < 5 →
    ready m₀ 0x0706 slot = true →
    let m := begun m₀ slot
    let st (k : Nat) : Nat :=
      if ((getBlk m (0x70 + k)).fence).isSome then 2 else if (getCore m k).updating then 1
      else if (corePorts m k).isEmpty then 3 else 0
    exec (.pdCoreStatGet slot) ⟨qs, m₀⟩ = .next ⟨qs, settle m₀ slot <|
      .ok m (((List.range 8).flatMap fun k =>
          le 4 (st k * 2 ^ 28 + (corePorts m k).length % 16 * 2 ^ 24 + (getCore m k).fwMinor * 2 ^ 16
            + (getCore m k).fwMajor * 2 ^ 8))
        ++ (List.range 8).flatMap fun k => le 8 (bitmap (corePorts m k)))⟩) ∧
  -- PD_MIGRATE (R296)
  (∀ (qs : List Instr) (m₀ : Mach) (s : Nat),
    s < 5 →
    ready m₀ 0x0707 s = true →
    let m := begun m₀ s
    let p := payload m₀ s
    let src := pU p 0 1
    let dst := pU p 1 1
    let tgt := if dst = 0xFF then (leastLoaded m src).getD src else dst
    (7 < src || (7 < dst && dst ≠ 0xFF) || (dst ≠ 0xFF && (src / 4 ≠ dst / 4 || src = dst)) : Bool) = false →
    (12 < (corePorts m tgt).length + (corePorts m src).length && tgt ≠ src
        || (getCore m src).migSeq.isSome : Bool) = false →
    (tgt = src || !coreOk m tgt : Bool) = false →
    exec (.pdMigrate s) ⟨qs, m₀⟩ = .next ⟨qs, settle m₀ s <|
      .accepted (migrateAll m src tgt (some (getSlot m s).jseq))⟩) ∧
  -- BAY_CFG (R317)
  (∀ (qs : List Instr) (m₀ : Mach) (slot : Nat),
    slot < 5 →
    ready m₀ 0x0801 slot = true →
    let m := begun m₀ slot
    let p := payload m₀ slot
    let q := pU p 0 1
    ((q ≠ 0xFF && (47 < q || !isBay m q)) || 16 < pU p 1 1 || !within (pU p 2 1) 1 2
        || !within (pU p 4 2) 20 500 || !within (pU p 6 2) 1 120 : Bool) = false →
    exec (.bayCfg slot) ⟨qs, m₀⟩ = .next ⟨qs, settle m₀ slot <|
      .ok (forAll m ((if q = 0xFF then List.range 48 else [q]).filter fun i => isBay m i) fun m i =>
        modBay m i fun b => { b with trickleNext := some [pU p 1 1, pU p 2 1, pU p 4 2, pU p 6 2] }) []⟩) ∧
  -- BAY_KEY_SET (R316)
  (∀ (qs : List Instr) (m₀ : Mach) (s : Nat),
    s < 5 →
    ready m₀ 0x0802 s = true →
    let m := begun m₀ s
    let p := payload m₀ s
    let k := pU p 0 1
    let a := pU p 1 1
    isService m s = true →
    (3 < k || 1 < a || (a = 1 && !onCurve (pU p 4 32) (pU p 36 32)) : Bool) = false →
    (a = 1 && (tget m.keys {} k).used : Bool) = false →
    exec (.bayKeySet s) ⟨qs, m₀⟩ = .next ⟨qs, settle m₀ s <| persist 0x0802 (pU p 0 1) p <|
      let m := putKey m p
      .ok (if a = 1 then m
        else forAll m ((List.range 48).filter fun q => isBay m q && packPresent m q) fun m q =>
          let b := getBay m q
          let trying := (2 ≤ b.reqType && b.reqType ≤ 3) || b.verdictAt.isSome
          if trying && b.helloKey = k then attemptFail m q 8
          else if b.verdict = 1 && b.record.isSome && b.keyIdx = k then
            modBay m q fun b => { b with revokeAt := after m (sec 1) }
          else m) []⟩) ∧
  -- BAY_STAT_GET (R318)
  (∀ (qs : List Instr) (m₀ : Mach) (slot : Nat),
    slot < 5 →
    ready m₀ 0x0803 slot = true →
    let m := begun m₀ slot
    let p := payload m₀ slot
    let q := pU p 0 1
    (47 < q : Bool) = false →
    exec (.bayStatGet slot) ⟨qs, m₀⟩ = .next ⟨qs, settle m₀ slot <|
      let b := getBay m q
      .ok m (le 1 (bayCode b.st) ++ le 1 b.verdict ++ le 1 b.attempts ++ le 1 b.keyIdx ++ b.packId
        ++ le 2 (b.record.getD 0xFFFF) ++ le 2 (if 2400 < b.idMv then 0xFFFF else b.idMv / 20) ++ le 2 b.authMs ++ le 2 b.linkErr
        ++ le 4 b.inserts ++ le 4 b.lateId)⟩) ∧
  -- BAY_RECORD_GET (R318)
  (∀ (qs : List Instr) (m₀ : Mach) (slot : Nat),
    slot < 5 →
    ready m₀ 0x0804 slot = true →
    let m := begun m₀ slot
    let p := payload m₀ slot
    let x := pU p 0 2
    (255 < x : Bool) = false →
    exec (.bayRecordGet slot) ⟨qs, m₀⟩ = .next ⟨qs, settle m₀ slot <|
      let r := tget m.recs {} x
      .ok m (r.packId ++ le 1 r.keyIdx ++ le 1 r.holder ++ le 2 r.inserts ++ le 4 r.lastSeen
        ++ (r.prof ++ List.replicate 40 0).take 40)⟩) ∧
  -- BAY_KEY_GET (R316)
  (∀ (qs : List Instr) (m₀ : Mach) (slot : Nat),
    slot < 5 →
    ready m₀ 0x0805 slot = true →
    let m := begun m₀ slot
    exec (.bayKeyGet slot) ⟨qs, m₀⟩ = .next ⟨qs, settle m₀ slot <|
      .ok m ((List.range 4).flatMap fun k =>
        let x := tget m.keys {} k
        le 1 (if x.used then 1 else 0) ++ le 3 0 ++ le 32 x.x ++ le 32 x.y)⟩) ∧
  -- BAY_RECORD_FORGET (R318)
  (∀ (qs : List Instr) (m₀ : Mach) (s : Nat),
    s < 5 →
    ready m₀ 0x0806 s = true →
    let m := begun m₀ s
    let p := payload m₀ s
    let x := pU p 0 2
    isService m s = true →
    (255 < x : Bool) = false →
    recHeld m x = false →
    exec (.bayRecordForget s) ⟨qs, m₀⟩ = .next ⟨qs, settle m₀ s <|
      .ok (nvmConfig (modCtx (modRec m x fun _ => {}) x fun _ => {}) 0x0804 x []) []⟩) ∧
  -- BAY_REAUTH (R317)
  (∀ (qs : List Instr) (m₀ : Mach) (slot : Nat),
    slot < 5 →
    ready m₀ 0x0807 slot = true →
    let m := begun m₀ slot
    let p := payload m₀ slot
    let q := pU p 0 1
    (47 < q || !isBay m q : Bool) = false →
    packPresent m q = true →
    exec (.bayReauth slot) ⟨qs, m₀⟩ = .next ⟨qs, settle m₀ slot <|
      let m := modBay m q fun b => { b with attempts := 0, failed := 0, revokeAt := none }
      .ok (if (getBay m q).st = .rejected || (getBay m q).verdict = 1 then bayAgain m q else m) []⟩)

/-- Completion of the estimator and thermal commands: each of the rows named below, in every state and for all operands that meet its conditions, answers
the next state written out; whatever that expression does not change stands, the queue of waiting commands among it. -/
def Obligations.EstimatorAndThermalCommands : Prop :=
  -- EST_CFG (R351)
  (∀ (qs : List Instr) (m₀ : Mach) (slot : Nat),
    slot < 5 →
    ready m₀ 0x0901 slot = true →
    let m := begun m₀ slot
    let p := payload m₀ slot
    exec (.estCfg slot) ⟨qs, m₀⟩ = .next ⟨qs, settle m₀ slot <|
      persist 0x0901 0 p (storeQNom (setEstCfg m p))⟩) ∧
  -- EST_CTX_GET (R353)
  (∀ (qs : List Instr) (m₀ : Mach) (slot : Nat),
    slot < 5 →
    ready m₀ 0x0902 slot = true →
    let m := begun m₀ slot
    let p := payload m₀ slot
    let x := pU p 0 2
    let c := getCtx m x
    let r (n : Nat) : Nat := if c.active then n else 0
    let ri (n : Int) : Int := if c.active then n else 0
    let flags := flag c.noAnchor 0 + flag c.reAnchored 1 + flag c.reverted 2 + flag c.stale 3 + flag c.initFlag 4
      + flag c.flat 5 + flag c.learnPending 6
    (272 ≤ x : Bool) = false →
    exec (.estCtxGet slot) ⟨qs, m₀⟩ = .next ⟨qs, settle m₀ slot <|
      .ok m (le 2 x ++ [BitVec.ofNat 8 (ctxState m x), BitVec.ofNat 8 (r flags)]
        ++ le 2 (r (pct100 (socRep c))) ++ le 2 (r (pct100 (sigmaRep m c))) ++ le 2 (r (pct100 (socE c)))
        ++ le 2 (r (pct100 (sigmaE c))) ++ le 2 (r (pct100 c.soc))
        ++ leI 2 (ri (clampI (-32768) 32767 (roundRat (10 * fToRat c.fvp)))) ++ leI 2 (ri c.temp)
        ++ le 2 (r (satTo 65535 (c.vUv / 1000).toNat)) ++ leI 4 (ri c.iMa) ++ le 4 c.qFull ++ le 4 (ageS c.anchorAge)
        ++ le 4 (r (c.restMs / 1000)) ++ [BitVec.ofNat 8 c.anchorKind, BitVec.ofNat 8 (sohPct c)] ++ le 2 c.cycles
        ++ le 2 c.zs ++ le 2 c.zp ++ le 2 c.cp ++ leI 2 (roundRat (10 * c.ocvOfs)) ++ le 2 (r c.reAnchors)
        ++ le 2 (r c.fitRejects) ++ le 2 (r c.capRejects) ++ le 2 (r c.restAborts))⟩) ∧
  -- EST_OCV_SET (R330)
  (∀ (qs : List Instr) (m₀ : Mach) (slot : Nat),
    slot < 5 →
    ready m₀ 0x0903 slot = true →
    let m := begun m₀ slot
    let p := payload m₀ slot
    let chem := pU p 0 1
    let row := pU p 1 1
    let v (i : Nat) : Nat := pU p (4 + 2 * i) 2
    let m' := putOcv m p
    let t (i : Nat) : Int := (tget m'.est.tabs {} (chem - 1)).temps.getD i 0
    (!within chem 1 2 || 2 < row || !((List.range 20).all fun i => v i < v (i + 1)) || v 0 < 2000
        || 4500 < v 20 || t 1 ≤ t 0 || t 2 ≤ t 1 : Bool) = false →
    exec (.estOcvSet slot) ⟨qs, m₀⟩ = .next ⟨qs, settle m₀ slot <|
      .ok (nvmConfig m' 0x0903 (3 * chem + row) p) []⟩) ∧
  -- EST_OCV_GET (R330)
  (∀ (qs : List Instr) (m₀ : Mach) (slot : Nat),
    slot < 5 →
    ready m₀ 0x0904 slot = true →
    let m := begun m₀ slot
    let p := payload m₀ slot
    let chem := pU p 0 1
    let tb := tget m.est.tabs {} (chem - 1)
    within chem 1 2 = true →
    exec (.estOcvGet slot) ⟨qs, m₀⟩ = .next ⟨qs, settle m₀ slot <|
      .ok m ((List.range 3).flatMap fun r =>
        [BitVec.ofNat 8 chem, BitVec.ofNat 8 r] ++ leI 2 (tb.temps.getD r 0)
          ++ ((List.range 21).flatMap fun i => le 2 ((tb.rows.getD r []).getD i 0)))⟩) ∧
  -- EST_EIS_REQ (R344)
  (∀ (qs : List Instr) (m₀ : Mach) (s : Nat),
    s < 5 →
    ready m₀ 0x0905 s = true →
    let m := begun m₀ s
    let p := payload m₀ s
    let x := pU p 0 2
    let c := ctxMach m x
    (272 ≤ x : Bool) = false →
    (!(getCtx m x).active || eisPending m c : Bool) = false →
    exec (.estEisReq s) ⟨qs, m₀⟩ = .next ⟨qs, settle m₀ s <|
      .accepted { m with est := { m.est with eisQueue := m.est.eisQueue ++ [(c, (getSlot m s).jseq)] } }⟩) ∧
  -- EST_EIS_GET (R344)
  (∀ (qs : List Instr) (m₀ : Mach) (slot : Nat),
    slot < 5 →
    ready m₀ 0x0906 slot = true →
    let m := begun m₀ slot
    let p := payload m₀ slot
    let x := pU p 0 2
    let c := getCtx m x
    (272 ≤ x : Bool) = false →
    exec (.estEisGet slot) ⟨qs, m₀⟩ = .next ⟨qs, settle m₀ slot <|
      .ok m (le 4 (c.eisAge.elim 0xFFFFFFFF ageS) ++ [BitVec.ofNat 8 c.eisResult] ++ leI 1 (clampI (-128) 127 c.eisTemp)
        ++ le 2 (satTo 65535 c.eisAmp) ++ c.z.flatMap fun z => leI 2 z.re ++ leI 2 z.im)⟩) ∧
  -- EST_CTX_SET (R354)
  (∀ (qs : List Instr) (m₀ : Mach) (s : Nat),
    s < 5 →
    ready m₀ 0x0907 s = true →
    let m := begun m₀ s
    let p := payload m₀ s
    let x := pU p 0 2
    let a := pU p 2 1
    let v := pU p 4 4
    let c := getCtx m x
    isService m s = true →
    (272 ≤ x || 4 < a || (a = 1 && !within v 1000 1000000) || (a = 2 && (100 * v < 50 * c.qNom
        || 120 * c.qNom < 100 * v)) || (a = 3 && !within v 1 65535) : Bool) = false →
    ((a = 0 && eisOn m x) || (a = 4 && !c.active) : Bool) = false →
    exec (.estCtxSet s) ⟨qs, m₀⟩ = .next ⟨qs, settle m₀ s <|
      let m := modCtx m x fun c =>
        match a with
        | 0 => { defaultLearned c c.qNom with hasSlot := true }
        | 1 => { c with qNom := v, hasSlot := true }
        | 2 => { c with qFull := v, hasSlot := true }
        | 3 => { c with zsNew := v, hasSlot := true }
        | _ => { c with initDue := true, initFlag := true, sigma := 1 / 10, anchored := false, hist := [], secN := 0, secSum := 0
                        lastFull := none, lastRest := none }
      let m := if a = 0 && c.active then modCtx m x fun c => { c with fzs := zsOhm c } else m
      .ok (learnWrite m x) []⟩) ∧
  -- EST_REST_REQ (R354)
  (∀ (qs : List Instr) (m₀ : Mach) (slot : Nat),
    slot < 5 →
    ready m₀ 0x0908 slot = true →
    let m := begun m₀ slot
    let p := payload m₀ slot
    let x := pU p 0 2
    let c := ctxMach m x
    (272 ≤ x : Bool) = false →
    (!(getCtx m x).active || (if ctxStore x then !restBase m
        || m.lft.restAt.isSome else !pauseBase m (c - 1)) : Bool) = false →
    exec (.estRestReq slot) ⟨qs, m₀⟩ = .next ⟨qs, settle m₀ slot <|
      if ctxStore x then .ok { m with est := { m.est with restReq := true, restWaived := true } } []
      else .ok (modChg m c fun y => { y with pauseReq := true }) []⟩) ∧
  -- THM_CFG (R363)
  (∀ (qs : List Instr) (m₀ : Mach) (slot : Nat),
    slot < 5 →
    ready m₀ 0x0A01 slot = true →
    let m := begun m₀ slot
    let p := payload m₀ slot
    let cl := pU p 0 1
    let c : ThmClass := { arm := pU p 1 1, warn := pI p 2 2, throttle := pI p 4 2, limit := pI p 6 2, hyst := pU p 8 1
                          dwell := pU p 9 1, fastBand := pU p 10 1 }
    let r (v : Int) : Bool := withinI v (-400) 1280
    (5 < cl || 7 < c.arm || !r c.warn || !r c.throttle || !r c.limit || c.throttle ≤ c.warn
        || c.limit ≤ c.throttle || 120 < c.hyst || c.dwell = 0 || c.fastBand < 16 || (cl ≤ 1
        && 1320 ≤ c.limit + c.hyst) : Bool) = false →
    exec (.thmCfg slot) ⟨qs, m₀⟩ = .next ⟨qs, settle m₀ slot <| persist 0x0A01 (pU p 0 1) p <|
      let m := { m with thm := { m.thm with classes := tupd m.thm.classes cl fun _ => c } }
      let m := forAll m ((List.range 94).filter fun x => classOf x = cl) fun m x =>
        let old := scopeLevel m (scopeOf x)
        let now := m.dev.now
        let m := modSens m x fun s =>
          (List.range 3).foldl (fun s l =>
            if s.inLvl.getD l false && !bit c.arm l then
              { s with inLvl := s.inLvl.set l false, dwell := s.dwell.set l 0
                       trans := s.trans.set l (satTo 65535 (s.trans.getD l 0 + 1)), changes := s.changes ++ [(l, now)] }
            else s) s
        scopeAct m (scopeOf x) old (scopeLevel m (scopeOf x))
      .ok (thmLive m) []⟩) ∧
  -- THM_GROUPS_GET (R373)
  (∀ (qs : List Instr) (m₀ : Mach) (slot : Nat),
    slot < 5 →
    ready m₀ 0x0A02 slot = true →
    let m := begun m₀ slot
    exec (.thmGroupsGet slot) ⟨qs, m₀⟩ = .next ⟨qs, settle m₀ slot <|
      .ok m (thmGroups.flatMap fun g => leI 2 (maxReading m g) ++ [BitVec.ofNat 8 (validLevel m g), 0])⟩) ∧
  -- THM_SENSOR_GET (R373)
  (∀ (qs : List Instr) (m₀ : Mach) (slot : Nat),
    slot < 5 →
    ready m₀ 0x0A03 slot = true →
    let m := begun m₀ slot
    let p := payload m₀ slot
    let x := pU p 0 1
    let s := getSens m x
    (94 ≤ x : Bool) = false →
    exec (.thmSensorGet slot) ⟨qs, m₀⟩ = .next ⟨qs, settle m₀ slot <|
      .ok m (leI 2 (if s.valid then s.t else -32768) ++ [BitVec.ofNat 8 (sensLevel s), if s.fast then 1 else 0]
        ++ (s.trans.flatMap fun n => le 2 n)
        ++ le 2 (if s.seen then satTo 65535 ((m.dev.now - s.readAt) / 1000000) else 65535))⟩)

/-- Completion of the fault, Guard and watchdog commands: each of the rows named below, in every state and for all operands that meet its conditions, answers
the next state written out; whatever that expression does not change stands, the queue of waiting commands among it. -/
def Obligations.FaultAndWatchdogCommands : Prop :=
  -- FLT_DETAIL_GET (R384)
  (∀ (qs : List Instr) (m₀ : Mach) (slot : Nat),
    slot < 5 →
    ready m₀ 0x0B01 slot = true →
    let m := begun m₀ slot
    let p := payload m₀ slot
    let b := pU p 0 1
    isBlock b = true →
    exec (.fltDetailGet slot) ⟨qs, m₀⟩ = .next ⟨qs, settle m₀ slot <|
      let w := getBlk m b
      .ok m (le 4 (statusWord m b) ++ le 4 w.firstMs ++ le 1 w.firstTick ++ le 1 w.maxSev ++ le 2 w.occur ++ le 2 w.merged
        ++ [0] ++ le 1 w.details.length ++ w.details.flatMap (detailBytes m b))⟩) ∧
  -- FLT_CLEAR (R386)
  (∀ (qs : List Instr) (m₀ : Mach) (slot : Nat),
    slot < 5 →
    ready m₀ 0x0B02 slot = true →
    let m := begun m₀ slot
    let p := payload m₀ slot
    let b := pU p 0 1
    let a := pU p 1 1
    let u := pU p 2 1
    let st := if bit a 0 then releaseStatus m b u else .ok
    (3 < a || !isBlock b || st = .outOfRange : Bool) = false →
    (st ≠ .ok : Bool) = false →
    exec (.fltClear slot) ⟨qs, m₀⟩ = .next ⟨qs, settle m₀ slot <|
      let m := if bit a 0 then releaseUnit m b u else m
      .ok (if bit a 1 then Machine.causeClear m b 0xFF else m) []⟩) ∧
  -- FLT_FENCE (R387)
  (∀ (qs : List Instr) (m₀ : Mach) (slot : Nat),
    slot < 5 →
    ready m₀ 0x0B03 slot = true →
    let m := begun m₀ slot
    let p := payload m₀ slot
    let b := pU p 0 1
    let u := pU p 1 1
    let conv := 0x30 ≤ b && b < 0x67
    (!(b < 0x68 || (0x70 ≤ b && b < 0x78)) || (u ≠ 0xFF && (!conv
        || declaredPhases (getCv m (b - 0x30)).decl ≤ u)) : Bool) = false →
    unitFenced m b u = false →
    exec (.fltFence slot) ⟨qs, m₀⟩ = .next ⟨qs, settle m₀ slot <|
      let m := if b < 0x67 then
          maskGroups m (if conv && u ≠ 0xFF then [phaseChan m (b - 0x30) u] else convChans m (convOf b)) (after m (sec 300))
        else m
      .ok (fenceUnit m b u .cmd 5) []⟩) ∧
  -- BIB_HANDOVER (R396)
  (∀ (qs : List Instr) (m₀ : Mach) (s : Nat),
    s < 5 →
    ready m₀ 0x0B04 s = true →
    let m := begun m₀ s
    let h := (holder m).getD 0
    (!standbyReady m h || m.grd.handover.isSome || m.grd.failingProc.isSome || policyUpd m
        || (m.upd.kind = 1 && m.upd.st = .verifying) : Bool) = false →
    exec (.bibHandover s) ⟨qs, m₀⟩ = .next ⟨qs, settle m₀ s <|
      .accepted { m with grd := { m.grd with handover := some (getSlot m s).jseq } }⟩) ∧
  -- GRD_HOLD_CFG (R401)
  (∀ (qs : List Instr) (m₀ : Mach) (slot : Nat),
    slot < 5 →
    ready m₀ 0x0B05 slot = true →
    let m := begun m₀ slot
    let p := payload m₀ slot
    within (pU p 0 2) 1 300 = true →
    exec (.grdHoldCfg slot) ⟨qs, m₀⟩ = .next ⟨qs, settle m₀ slot <| persist 0x0B05 0 p <|
      .ok { m with grd := { m.grd with holdTimeS := pU p 0 2 } } []⟩) ∧
  -- WDH_CFG_SET (R415)
  (∀ (qs : List Instr) (m₀ : Mach) (slot : Nat),
    slot < 5 →
    ready m₀ 0x0C01 slot = true →
    let m := begun m₀ slot
    let p := payload m₀ slot
    (m.wdh.lock || m.wdh.lock1600 : Bool) = false →
    (!within (pU p 0 2) 10 60000 || 7 < pU p 2 1 || 7 < pU p 3 1 : Bool) = false →
    exec (.wdhCfgSet slot) ⟨qs, m₀⟩ = .next ⟨qs, settle m₀ slot <| persist 0x0C01 0 p <|
      let m := putWdhCfg m p
      .ok (if m.wdh.st = .hostLost && m.wdh.cfg.park && !m.grd.wdhPark then wdhParkOn m
           else if !m.wdh.cfg.park then wdhParkOff m else m) []⟩) ∧
  -- WDS_STAT_GET (R424)
  (∀ (qs : List Instr) (m₀ : Mach) (slot : Nat),
    slot < 5 →
    ready m₀ 0x0C02 slot = true →
    let m := begun m₀ slot
    let w := m.wds
    exec (.wdsStatGet slot) ⟨qs, m₀⟩ = .next ⟨qs, settle m₀ slot <|
      .ok m (le 2 w.periodMs ++ le 2 w.mask ++ le 2 w.passed ++ le 2 w.missedLast ++ le 2 w.doubledLast ++ le 2 w.faults
        ++ le 4 w.badTokens ++ le 4 w.rejects ++ le 4 w.lastMs)⟩) ∧
  -- WD_COUNT_GET (R427)
  (∀ (qs : List Instr) (m₀ : Mach) (slot : Nat),
    slot < 5 →
    ready m₀ 0x0C03 slot = true →
    let m := begun m₀ slot
    exec (.wdCountGet slot) ⟨qs, m₀⟩ = .next ⟨qs, settle m₀ slot <|
      .ok m (le 2 m.wds.wdCount ++ le 2 0 ++ le 4 (ctrRead m.nvm 0).1 ++ le 4 m.wds.wdTarget)⟩)

/-- Completion of the retention, journal and update commands: each of the rows named below, in every state and for all operands that meet its conditions, answers
the next state written out; whatever that expression does not change stands, the queue of waiting commands among it. -/
def Obligations.RetentionJournalUpdateCommands : Prop :=
  -- NVM_READ (R448)
  (∀ (qs : List Instr) (m₀ : Mach) (slot : Nat),
    slot < 5 →
    ready m₀ 0x0D01 slot = true →
    let m := begun m₀ slot
    let p := payload m₀ slot
    let page := pU p 0 2
    let off := pU p 2 1
    let len := pU p 3 1
    (4096 ≤ page || 64 ≤ off || !within len 1 64 : Bool) = false →
    exec (.nvmRead slot) ⟨qs, m₀⟩ = .next ⟨qs, settle m₀ slot <|
      let st := (List.range 8).map fun k => readStat m.nvm page k
      let stat := st.zipIdx.foldl (fun acc x => acc + statCode x.1 * 4 ^ x.2) 0
      let cor := (st.filter fun x => x = .corrected).length
      let unc := page < 3072 && st.contains .unc
      let m := { m with nvm := { m.nvm with corrected := satTo 65535 (m.nvm.corrected + cor),
                                            unc := m.nvm.unc || unc } }
      let m := if unc then note m blkNvm .nvmUnc 2 else m
      .ok m (le 2 stat ++ [0, 0] ++ (List.range len).map fun j => readByte m.nvm page ((off + j) % 64))⟩) ∧
  -- NVM_WRITE (R448)
  (∀ (qs : List Instr) (m₀ : Mach) (s : Nat),
    s < 5 →
    ready m₀ 0x0D02 s = true →
    let m := begun m₀ s
    let p := payload m₀ s
    let page := pU p 0 2
    let off := pU p 2 1
    let len := pU p 3 1
    (page < 3072 : Bool) = false →
    (4096 ≤ page || 64 ≤ off || !within len 1 64 : Bool) = false →
    exec (.nvmWrite s) ⟨qs, m₀⟩ = .next ⟨qs, settle m₀ s <|
      .wait (nvmSubmit m { page := page, bytes := some (bytesAt p 4 len), off := off, kind := .host, slot := some s })⟩) ∧
  -- NVM_ERASE (R448)
  (∀ (qs : List Instr) (m₀ : Mach) (s : Nat),
    s < 5 →
    ready m₀ 0x0D03 s = true →
    let m := begun m₀ s
    let p := payload m₀ s
    let page := pU p 0 2
    (page < 3072 : Bool) = false →
    (4096 ≤ page : Bool) = false →
    exec (.nvmErase s) ⟨qs, m₀⟩ = .next ⟨qs, settle m₀ s <|
      .wait (nvmSubmit m { page := page, kind := .hostErase, slot := some s })⟩) ∧
  -- NVM_COUNTER_GET (R448)
  (∀ (qs : List Instr) (m₀ : Mach) (slot : Nat),
    slot < 5 →
    ready m₀ 0x0D04 slot = true →
    let m := begun m₀ slot
    let p := payload m₀ slot
    let c := pU p 0 1
    (8 ≤ c : Bool) = false →
    exec (.nvmCounterGet slot) ⟨qs, m₀⟩ = .next ⟨qs, settle m₀ slot <|
      let r := ctrRead m.nvm c
      let valid := bitmap ((List.range 8).filter fun k => (copyValid m.nvm (64 + 8 * c + k)).isSome)
      .ok m (le 4 (if 4 ≤ c then 0 else r.1) ++ [BitVec.ofNat 8 valid, BitVec.ofNat 8 ((r.2 + 1) % 8), 0, 0])⟩) ∧
  -- NVM_SAVE (R448)
  (∀ (qs : List Instr) (m₀ : Mach) (slot : Nat),
    slot < 5 →
    ready m₀ 0x0D05 slot = true →
    let m := begun m₀ slot
    saveReady m.nvm = true →
    exec (.nvmSave slot) ⟨qs, m₀⟩ = .next ⟨qs, settle m₀ slot <|
      .ok (powerDownSave m 3 []) []⟩) ∧
  -- NVM_PDW_SET (R448)
  (∀ (qs : List Instr) (m₀ : Mach) (slot : Nat),
    slot < 5 →
    ready m₀ 0x0D06 slot = true →
    let m := begun m₀ slot
    let p := payload m₀ slot
    within (pU p 0 2) 4800 30000 = true →
    exec (.nvmPdwSet slot) ⟨qs, m₀⟩ = .next ⟨qs, settle m₀ slot <|
      .ok (nvmConfig { m with nvm := { m.nvm with pdwSysMv := pU p 0 2 } } 0x0D06 0 p) []⟩) ∧
  -- JNL_GET (R474)
  (∀ (qs : List Instr) (m₀ : Mach) (slot : Nat),
    slot < 5 →
    ready m₀ 0x0E01 slot = true →
    let m := begun m₀ slot
    let p := payload m₀ slot
    within (pU p 4 1) 1 31 = true →
    exec (.jnlGet slot) ⟨qs, m₀⟩ = .next ⟨qs, settle m₀ slot <|
      let es := (entriesFrom m (pU p 0 4)).take (pU p 4 1)
      .ok m (le 1 es.length ++ [0] ++ le 2 m.mbx.lost ++ es.flatMap entryBytes)⟩) ∧
  -- JNL_FIND (R474)
  (∀ (qs : List Instr) (m₀ : Mach) (slot : Nat),
    slot < 5 →
    ready m₀ 0x0E02 slot = true →
    let m := begun m₀ slot
    let p := payload m₀ slot
    let cls := pU p 0 1
    let tag := pU p 4 4
    (1 < cls || tag = 0 : Bool) = false →
    exec (.jnlFind slot) ⟨qs, m₀⟩ = .next ⟨qs, settle m₀ slot <|
      .ok m (match m.mbx.ring.reverse.find? fun e => e.cls = cls && e.tag = tag with
        | some e => [1, 0, 0, 0] ++ entryBytes e
        | none => List.replicate 36 0)⟩) ∧
  -- UPD_BEGIN (R496)
  (∀ (qs : List Instr) (m₀ : Mach) (slot : Nat),
    slot < 5 →
    ready m₀ 0x0F01 slot = true →
    let m := begun m₀ slot
    let p := payload m₀ slot
    let k := pU p 0 1
    let t := pU p 1 1
    let size := pU p 4 4
    (!within k 1 4 || !(t = 0xFF || (k = 2 && t < 8)) || !within size 256 (regionSize k) : Bool) = false →
    updOpen m = false →
    exec (.updBegin slot) ⟨qs, m₀⟩ = .next ⟨qs, settle m₀ slot <|
      let m := modRegion m k (stagedBank m k) fun _ => {}
      .ok { m with upd := { regions := m.upd.regions, ptrBank := m.upd.ptrBank, st := .receiving, kind := k, target := t
                            size := size } } []⟩) ∧
  -- UPD_DATA (R496)
  (∀ (qs : List Instr) (m₀ : Mach) (slot : Nat),
    slot < 5 →
    ready m₀ 0x0F02 slot = true →
    let m := begun m₀ slot
    let p := payload m₀ slot
    let n := pU p 4 2
    let u := m.upd
    (!within n 1 1000 || pU p 0 4 ≠ u.received || (u.st = .receiving && u.size < u.received + n) : Bool) = false →
    (u.st ≠ .receiving : Bool) = false →
    exec (.updData slot) ⟨qs, m₀⟩ = .next ⟨qs, settle m₀ slot <|
      let m := modRegion m u.kind (stagedBank m u.kind) fun r => { r with bytes := r.bytes ++ bytesAt p 8 n }
      .ok { m with upd := { m.upd with received := u.received + n } } []⟩) ∧
  -- UPD_COMMIT (R496)
  (∀ (qs : List Instr) (m₀ : Mach) (s : Nat),
    s < 5 →
    ready m₀ 0x0F03 s = true →
    let m := begun m₀ s
    let u := m.upd
    (u.st ≠ .receiving || u.received ≠ u.size || !commitReady m : Bool) = false →
    exec (.updCommit s) ⟨qs, m₀⟩ = .next ⟨qs, settle m₀ s <|
      .accepted { m with upd := { u with st := .verifying, step := 1, seq := (getSlot m s).jseq } }⟩) ∧
  -- UPD_ABORT (R496)
  (∀ (qs : List Instr) (m₀ : Mach) (slot : Nat),
    slot < 5 →
    ready m₀ 0x0F04 slot = true →
    let m := begun m₀ slot
    (!updOpen m || noReturn m : Bool) = false →
    exec (.updAbort slot) ⟨qs, m₀⟩ = .next ⟨qs, settle m₀ slot <|
      let m := if policyUpd m then
          let a := match holder m with
            | some h => 1 - h
            | none => 1
          let m := { m with grd := { m.grd with handover := if m.grd.handover = some 0 then none else m.grd.handover } }
          if (getProc m a).image = 1 then pprDo m a else m
        else m
      .ok (updFail { m with grd := { m.grd with shadow := none } } 12) []⟩) ∧
  -- UPD_STAT_GET (R497)
  (∀ (qs : List Instr) (m₀ : Mach) (slot : Nat),
    slot < 5 →
    ready m₀ 0x0F05 slot = true →
    let m := begun m₀ slot
    let u := m.upd
    exec (.updStatGet slot) ⟨qs, m₀⟩ = .next ⟨qs, settle m₀ slot <|
      .ok m (le 1 (updStCode u.st) ++ le 1 u.kind ++ le 1 u.verdict ++ le 1 u.step ++ le 4 u.size ++ le 4 u.received
        ++ le 4 (arbVersion m)
        ++ (List.range 4).flatMap fun i =>
            let k := i + 1
            let b := ptrOf m k
            le 1 b ++ [0, 0, 0] ++ le 4 (regionVersion m k b) ++ le 4 (regionVersion m k (1 - b)))⟩)

/-- Completion of the service link and perturbation commands: each of the rows named below, in every state and for all operands that meet its conditions, answers
the next state written out; whatever that expression does not change stands, the queue of waiting commands among it. -/
def Obligations.ServiceCommands : Prop :=
  -- SVC_LINK_ARM (R507)
  (∀ (qs : List Instr) (m₀ : Mach) (slot : Nat),
    slot < 5 →
    ready m₀ 0x1001 slot = true →
    let m := begun m₀ slot
    let p := payload m₀ slot
    let q := pU p 0 1
    (47 < q : Bool) = false →
    (armBarred m q || (getPort m q).mode = 0 : Bool) = false →
    exec (.svcLinkArm slot) ⟨qs, m₀⟩ = .next ⟨qs, settle m₀ slot <|
      .ok (arm m q) []⟩) ∧
  -- SVC_LINK_STOP (R514)
  (∀ (qs : List Instr) (m₀ : Mach) (s : Nat),
    s < 5 →
    ready m₀ 0x1002 s = true →
    exec (.svcLinkStop s) ⟨qs, m₀⟩ = .next ⟨qs, stavskaEnd (settle m₀ s (.ok (begun m₀ s) [])) 8⟩) ∧
  -- SVC_AUTH_CHALLENGE (R513)
  (∀ (qs : List Instr) (m₀ : Mach) (slot : Nat),
    slot < 5 →
    ready m₀ 0x1003 slot = true →
    let m := begun m₀ slot
    let (n, m) := draw m
    let x := Config.nonce n
    exec (.svcAuthChallenge slot) ⟨qs, m₀⟩ = .next ⟨qs, settle m₀ slot <|
      .ok { m with svc := { m.svc with nonce := some x, nonceAt := after m (sec 30) } } (le 32 x.toNat ++ le 8 Config.uid.toNat)⟩) ∧
  -- SVC_AUTH_RESPONSE (R513)
  (∀ (qs : List Instr) (m₀ : Mach) (slot : Nat),
    slot < 5 →
    ready m₀ 0x1004 slot = true →
    let m := begun m₀ slot
    let p := payload m₀ slot
    let cert := bytesAt p 0 108
    let v := if m.svc.lockoutAt.isSome then 4 else techVerdict m cert (bytesAt p 108 64)
    exec (.svcAuthResponse slot) ⟨qs, m₀⟩ = .next ⟨qs, settle m₀ slot <|
      .okDetail (takeVerdict m v cert) (le 1 v ++ [0, 0, 0]) (if v = 0 then ofLe (cert.take 4) else 0)⟩) ∧
  -- PTB_UNLOCK (R519)
  (∀ (qs : List Instr) (m₀ : Mach) (s : Nat),
    s < 5 →
    ready m₀ 0x1005 s = true →
    let m := begun m₀ s
    let p := payload m₀ s
    (isService m s && m.svc.testPerm) = true →
    (pU p 0 2 ≠ 0xA5C3 || !within (pU p 4 2) 60 3600 : Bool) = false →
    exec (.ptbUnlock s) ⟨qs, m₀⟩ = .next ⟨qs, settle m₀ s <|
      .ok { m with svc := { m.svc with unlockAt := after m (sec (pU p 4 2)) } } []⟩) ∧
  -- PTB_SET (R520)
  (∀ (qs : List Instr) (m₀ : Mach) (slot : Nat),
    slot < 5 →
    ready m₀ 0x1006 slot = true →
    let m := begun m₀ slot
    let p := payload m₀ slot
    let kind := pU p 0 1
    let target := pU p 2 2
    let value := pI p 4 2
    let ttl := pU p 6 2
    m.svc.unlockAt.isNone = false →
    (!ptbInRange m kind target value || !within ttl 1 60 : Bool) = false →
    (within kind 1 3 && !allAtFive m : Bool) = false →
    (8 ≤ m.svc.ptbs.length : Bool) = false →
    exec (.ptbSet slot) ⟨qs, m₀⟩ = .next ⟨qs, settle m₀ slot <|
      let (id, m) := ptbId m
      let b : Ptb := { id := id, kind := kind, target := target, value := value, endAt := m.dev.now + sec ttl
                       remaining := if kind = 5 then value.toNat else 0 }
      let m := ptbPut m (m.svc.ptbs ++ [b])
      if kind = 8 then
        let (t, m) := ptbClockTest m id
        .ok m (le 1 id ++ [0, 0, 0] ++ le 4 t)
      else .ok m (le 1 id ++ [0, 0, 0] ++ le 4 0)⟩) ∧
  -- PTB_CLEAR (R522)
  (∀ (qs : List Instr) (m₀ : Mach) (slot : Nat),
    slot < 5 →
    ready m₀ 0x1007 slot = true →
    let m := begun m₀ slot
    let p := payload m₀ slot
    let id := pU p 0 1
    exec (.ptbClear slot) ⟨qs, m₀⟩ = .next ⟨qs, settle m₀ slot <|
      .ok (if id = 0xFF then ptbEndAll m else ptbEnd m id) []⟩) ∧
  -- SVC_STAT_GET (R515)
  (∀ (qs : List Instr) (m₀ : Mach) (slot : Nat),
    slot < 5 →
    ready m₀ 0x1008 slot = true →
    let m := begun m₀ slot
    let x := m.svc
    let link := if x.link ≠ 0 then x.link else if x.armPort.isSome then 1 else 0
    let port := if x.link ≠ 0 then x.port else x.armPort.getD 0xFF
    let n := x.ptbs.length
    exec (.svcStatGet slot) ⟨qs, m₀⟩ = .next ⟨qs, settle m₀ slot <|
      .ok m (le 1 link ++ le 1 port ++ le 1 (if x.service then 1 else 0) ++ le 1 x.lastFail ++ le 2 (leftOf m x.armAt (sec 1))
        ++ le 1 x.authFails ++ le 1 (if x.unlockAt.isSome then 1 else 0) ++ x.techId
        ++ le 4 (if x.link ≠ 0 then (m.dev.now - x.linkStart) / sec 1 else 0) ++ le 4 x.frames ++ le 1 n ++ [0, 0, 0]
        ++ x.ptbs.flatMap (ptbEntry m) ++ List.replicate (12 * (8 - n)) 0)⟩)

/-- Completion of the phase and converter commands: each of the rows named below, in every state and for all operands that meet its conditions, answers
the next state written out; whatever that expression does not change stands, the queue of waiting commands among it. -/
def Obligations.ConverterCommands : Prop :=
  -- CNV_DECLARE (R74)
  (∀ (qs : List Instr) (m₀ : Mach) (slot : Nat),
    slot < 5 →
    ready m₀ 0x1102 slot = true →
    let m := begun m₀ slot
    let p := payload m₀ slot
    let k := pU p 0 1
    let d := declOf p
    let trial := modCv m k fun c => { c with decl := d }
    (54 < k || 3 < pU p 1 1 || !declInRange k d || !sparesOk m k d : Bool) = false →
    (d.topo ≠ 0 && (adcOver trial || engOver trial) : Bool) = false →
    (d.topo ≠ 0 && 1000000 < 2 * (getCv m k).ctrl.cfg.specLeadNs * d.fswKhz : Bool) = false →
    ((getCv m k).run || (k < 48 && attached m k) : Bool) = false →
    (k < 48 && isBay m k && (d.topo = 0 || d.topo = 3) : Bool) = false →
    exec (.cnvDeclare slot) ⟨qs, m₀⟩ = .next ⟨qs, settle m₀ slot <| persist 0x1102 (pU p 0 1) p <|
      let m := declare m k d
      .ok m (le 2 (if d.topo = 0 then 0 else periodCyc d.fswKhz) ++ le 2 (adcPermille m))⟩) ∧
  -- PHS_SELFTEST (R78)
  (∀ (qs : List Instr) (m₀ : Mach) (s : Nat),
    s < 5 →
    ready m₀ 0x1103 s = true →
    let m := begun m₀ s
    let p := payload m₀ s
    let k := pU p 0 1
    let c := getCv m k
    (54 < k : Bool) = false →
    (c.run || c.starting || c.decl.topo = 0 || (k < 48 && attached m k) : Bool) = false →
    exec (.phsSelftest s) ⟨qs, m₀⟩ = .next ⟨qs, settle m₀ s <|
      .wait (modCv m k fun c => { c with selftest := 1, selftestSlot := some s
                                         ph := tmap c.ph fun _ y => { y with tested := false } })⟩) ∧
  -- PHS_STATUS_GET (R543)
  (∀ (qs : List Instr) (m₀ : Mach) (slot : Nat),
    slot < 5 →
    ready m₀ 0x1104 slot = true →
    let m := begun m₀ slot
    let p := payload m₀ slot
    let k := pU p 0 1
    (54 < k : Bool) = false →
    exec (.phsStatusGet slot) ⟨qs, m₀⟩ = .next ⟨qs, settle m₀ slot <|
      let c := getCv m k
      let n := declaredPhases c.decl
      .ok m ([BitVec.ofNat 8 k, BitVec.ofNat 8 n, 0, 0] ++ le 4 c.peakPeriods ++ le 4 c.skipPeriods
        ++ (List.range n).flatMap (phaseRecord m k))⟩) ∧
  -- CNV_LOOP_CFG (R108)
  (∀ (qs : List Instr) (m₀ : Mach) (slot : Nat),
    slot < 5 →
    ready m₀ 0x1105 slot = true →
    let m := begun m₀ slot
    let p := payload m₀ slot
    let k := pU p 0 1
    let d := (getCv m k).decl
    let f := loopCfgOf p
    let o := (ctrlOf m k).cfg
    let fixedSame := f.loopEn = o.loopEn && f.updateDiv = o.updateDiv && f.vffNomMv = o.vffNomMv && f.mBk = o.mBk
      && f.mBst = o.mBst && f.modeHyst = o.modeHyst
    let trial := modCtrl m k fun c => { c with cfg := f }
    (54 < k || !loopCfgOk d p || engOver trial : Bool) = false →
    ((getCv m k).run && !fixedSame : Bool) = false →
    exec (.cnvLoopCfg slot) ⟨qs, m₀⟩ = .next ⟨qs, settle m₀ slot <|
      .ok (if (getCv m k).run then modCtrl m k fun c => { c with cfgPend := some f }
        else modCv m k fun c => { c with ctrl := { c.ctrl with cfg := f, cfgPend := none }
                                         prot := { c.prot with thmHalf := c.prot.thmHalf && f.updateDiv = 1 } }) []⟩) ∧
  -- CNV_COEF_WRITE (R99)
  (∀ (qs : List Instr) (m₀ : Mach) (slot : Nat),
    slot < 5 →
    ready m₀ 0x1106 slot = true →
    let m := begun m₀ slot
    let p := payload m₀ slot
    let k := pU p 0 1
    let n := pU p 1 1
    let st := setOf (p.drop 4)
    let c := ctrlOf m k
    (54 < k || 7 < n || !setOk st : Bool) = false →
    (c.map.contains n || (c.pendMap.getD []).contains n : Bool) = false →
    exec (.cnvCoefWrite slot) ⟨qs, m₀⟩ = .next ⟨qs, settle m₀ slot <|
      .ok (modCtrl m k fun c => { c with sets := tupd c.sets n fun _ => st }) []⟩) ∧
  -- CNV_SET_MAP (R101)
  (∀ (qs : List Instr) (m₀ : Mach) (s : Nat),
    s < 5 →
    ready m₀ 0x1107 s = true →
    let m := begun m₀ s
    let p := payload m₀ s
    let k := pU p 0 1
    let mp := (List.range 6).map fun j => pU p (1 + j) 1
    (54 < k || !mapOk (getCv m k).decl (ctrlOf m k) mp : Bool) = false →
    cnvFenced m k = false →
    exec (.cnvSetMap s) ⟨qs, m₀⟩ = .next ⟨qs, settle m₀ s <|
      if (getCv m k).run then .wait (modCtrl m k fun c => { c with pendMap := some mp, mapSlot := some s })
      else .ok (modCtrl m k fun c => { c with map := mp }) []⟩) ∧
  -- CNV_REF_SET (R106)
  (∀ (qs : List Instr) (m₀ : Mach) (slot : Nat),
    slot < 5 →
    ready m₀ 0x1108 slot = true →
    let m := begun m₀ slot
    let p := payload m₀ slot
    let k := pU p 0 1
    let j := pU p 1 1
    let v := pU p 4 4
    (3 < j || !(if j = 0 || j = 3 then within v 5000 60000 else v ≤ 262143) : Bool) = false →
    (k ≠ 54 : Bool) = false →
    exec (.cnvRefSet slot) ⟨qs, m₀⟩ = .next ⟨qs, settle m₀ slot <|
      let m := { m with aux := { m.aux with
        foldOver := m.aux.foldOver || j = 3, iOver := if j = 1 then some v else m.aux.iOver } }
      .ok (setRef m 54 j (if j = 1 then auxIout m else v)) []⟩) ∧
  -- CNV_SPEC_STATS_GET (R124)
  (∀ (qs : List Instr) (m₀ : Mach) (slot : Nat),
    slot < 5 →
    ready m₀ 0x1109 slot = true →
    let m := begun m₀ slot
    let p := payload m₀ slot
    let k := pU p 0 1
    (54 < k || 1 < pU p 1 1 : Bool) = false →
    exec (.cnvSpecStatsGet slot) ⟨qs, m₀⟩ = .next ⟨qs, settle m₀ slot <|
      let c := ctrlOf m k
      let out := le 4 c.commits ++ le 4 c.squashes ++ le 4 c.snowploughs ++ le 2 c.snowRun ++ le 2 c.snowRunMax
        ++ le 4 c.sqLate ++ le 4 c.sqResidual ++ le 4 c.sqSelect ++ le 4 c.sqClamp ++ le 4 c.selChanges
        ++ [BitVec.ofNat 8 c.sel, BitVec.ofNat 8 c.mode] ++ le 2 c.dutyApplied
      .ok (if pU p 1 1 = 1 then modCtrl m k fun c =>
          { c with commits := 0, squashes := 0, snowploughs := 0, snowRun := 0, snowRunMax := 0, sqLate := 0
                   sqResidual := 0, sqSelect := 0, sqClamp := 0, selChanges := 0 } else m) out⟩) ∧
  -- CNV_SPEC_RESUME (R122)
  (∀ (qs : List Instr) (m₀ : Mach) (slot : Nat),
    slot < 5 →
    ready m₀ 0x110A slot = true →
    let m := begun m₀ slot
    m.eng.suspended = true →
    exec (.cnvSpecResume slot) ⟨qs, m₀⟩ = .next ⟨qs, settle m₀ slot <|
      .ok (setLive { m with eng := { m.eng with suspended := false, starvedTimes := [] } } blkEng .specSuspended 6 false) []⟩) ∧
  -- CNV_PROT_CFG (R132)
  (∀ (qs : List Instr) (m₀ : Mach) (slot : Nat),
    slot < 5 →
    ready m₀ 0x110B slot = true →
    let m := begun m₀ slot
    let p := payload m₀ slot
    let k := pU p 0 1
    (54 < k || !within (pU p 2 2) 50 250 || !within (pU p 4 2) 200 2000 || !within (pU p 6 2) 50 300
        || !within (pU p 8 2) 1 100 : Bool) = false →
    exec (.cnvProtCfg slot) ⟨qs, m₀⟩ = .next ⟨qs, settle m₀ slot <|
      .ok (modCv m k fun c =>
        let x := { c.prot with cfgPend := some (pU p 2 2, pU p 4 2, pU p 6 2, pU p 8 2) }
        { c with prot := if c.run then x else protSettle x }) []⟩) ∧
  -- CNV_PROT_STAT_GET (R145)
  (∀ (qs : List Instr) (m₀ : Mach) (slot : Nat),
    slot < 5 →
    ready m₀ 0x110C slot = true →
    let m := begun m₀ slot
    let p := payload m₀ slot
    let k := pU p 0 1
    (54 < k : Bool) = false →
    exec (.cnvProtStatGet slot) ⟨qs, m₀⟩ = .next ⟨qs, settle m₀ slot <|
      let c := getCv m k
      let fenced := bitmap ((List.range (declaredPhases c.decl)).filter fun j => (tget c.ph {} j).st = .fenced)
      .ok m ([BitVec.ofNat 8 (declaredPhases c.decl), BitVec.ofNat 8 fenced, BitVec.ofNat 8 c.prot.hiccups,
          BitVec.ofNat 8 (if c.prot.derateAt.isSome then 1 else 0)]
        ++ le 2 (satTo 65535 (irateTotal m k)) ++ le 2 (satTo 65535 (ovThrOf m k)) ++ le 2 (satTo 65535 (uvThrOf m k))
        ++ le 2 c.prot.uvRun ++ le 4 c.prot.ovCount ++ le 4 c.prot.shortCount ++ le 4 c.prot.shedCount)⟩)

/-- Completion of host transactions, register and mailbox words, service and journal rows: each of the rows named below, in every state and for all operands that meet its conditions, answers
the next state written out; whatever that expression does not change stands, the queue of waiting commands among it. -/
def Obligations.HostLinkEvents : Prop :=
  -- SPI_TRANSACTION (R453)
  (∀ (qs : List Instr) (m : Mach) (mosi : List Nat) (tailBits : Nat),
    ((mosi.all fun b => b < 256) && tailBits < 8 : Bool) = true →
    (linkUp m && m.dev.hsel = 0 : Bool) = true →
    exec (.spiTransaction mosi tailBits) ⟨qs, m⟩ = .next ⟨qs, spi m (mosi.map (BitVec.ofNat 8)) tailBits⟩) ∧
  -- I2C_TRANSACTION (R455)
  (∀ (qs : List Instr) (m : Mach) (segs : List I2cSeg),
    segs.all segOk = true →
    (linkUp m && m.dev.hsel = 1 && segs.any (segOurs m) : Bool) = true →
    exec (.i2cTransaction segs) ⟨qs, m⟩ = .next ⟨qs, i2c m segs⟩) ∧
  -- WDH_SERVE (R405)
  (∀ (qs : List Instr) (m : Mach) (key : Nat),
    key < 65536 →
    let w := m.wdh
    ¬(!wdhUp m) →
    let e : Mach :=
      if w.cfg.compat && w.st = .off then
        wdhStart { m with wdh := { w with lock1600 := true } } .running
      else if key % 65536 ≠ 0x6C3E then
        note { m with wdh := { w with badKey := true } } blkWdh .event 1
      else if w.waiting then m
      else match w.st with
        | .off => wdhStart m .running
        | .running =>
          if w.close ≤ w.count then m
          else if w.count < w.openAt then hostLost { m with wdh := { w with early := true } } .wdhEarly
          else wdhStart m .running
        | .hostLost => if w.close ≤ w.count then m else wdhParkOff (wdhStart m .running)
    exec (.wdhServe key) ⟨qs, m⟩ = .next ⟨qs, e⟩) ∧
  -- WDH_DISABLE_SEQUENCE (R413)
  (∀ (qs : List Instr) (m₀ : Mach) (key : Nat),
    key < 65536 →
    let m := m₀
    let w := m.wdh
    let bad (m : Mach) : Mach := { m with wdh := { m.wdh with badKey := true, firstKey := none } }
    ¬(key = 0 || !wdhUp m) →
    let m := match w.firstKey with
      | some c => if 64 < c then bad m else m
      | none => m
    let e : Mach :=
      match m.wdh.firstKey with
      | some _ =>
        if key ≠ 0xE1D0 || w.lock || w.lock1600 || w.st = .hostLost || w.cfg.compat then bad m
        else { m with wdh := { m.wdh with st := .off, waiting := false, firstKey := none } }
      | none => if key = 0x1F2E then { m with wdh := { m.wdh with firstKey := some 0 } } else bad m
    exec (.wdhDisableSequence key) ⟨qs, m₀⟩ = .next ⟨qs, e⟩) ∧
  -- WDH_LOCK_SET (R409)
  (∀ (qs : List Instr) (m : Mach),
    exec .wdhLockSet ⟨qs, m⟩ = .next ⟨qs, wdhLockSet m⟩) ∧
  -- MBX_DOORBELL (R463)
  (∀ (qs : List Instr) (m : Mach) (mask : Nat),
    mask < 2 ^ 32 →
    exec (.mbxDoorbell mask) ⟨qs, m⟩ = .next ⟨qs, doorbell m mask⟩) ∧
  -- MBX_ACK (R463)
  (∀ (qs : List Instr) (m : Mach) (mask : Nat),
    mask < 2 ^ 32 →
    exec (.mbxAck mask) ⟨qs, m⟩ = .next ⟨qs, mbxAck m mask⟩) ∧
  -- MBX_SLOT_WRITE (R463)
  (∀ (qs : List Instr) (m : Mach) (addr word : Nat),
    (0x1000 ≤ addr && addr < 0x2000 && addr % 4 = 0 && word < 2 ^ 32 : Bool) = true →
    exec (.mbxSlotWrite addr word) ⟨qs, m⟩ = .next ⟨qs, slotWrite m addr word⟩) ∧
  -- CAUSE_CLEAR (R381)
  (∀ (qs : List Instr) (m : Mach) (block mask : Nat),
    (isBlock block && mask < 256 : Bool) = true →
    exec (.causeClear block mask) ⟨qs, m⟩ = .next ⟨qs, causeClear m block mask⟩) ∧
  -- REGISTER_WRITE (R9)
  (∀ (qs : List Instr) (m : Mach) (addr word : Nat),
    (addr < 0x1000 && addr % 4 = 0 && word < 2 ^ 32 : Bool) = true →
    exec (.registerWrite addr word) ⟨qs, m⟩ = .next ⟨qs, regWrite m addr word⟩) ∧
  -- MBX_SERVE (R464)
  (∀ (qs : List Instr) (m : Mach),
    exec .mbxServe ⟨qs, m⟩ = .next ⟨qs, serve m⟩) ∧
  -- COMMAND_OUTCOME (R470)
  (∀ (qs : List Instr) (m : Mach) (seq result detail : Nat),
    (isStatus result && seq < 2 ^ 32 && detail < 2 ^ 32 : Bool) = true →
    exec (.commandOutcome seq result detail) ⟨qs, m⟩ = .next ⟨qs, outcome m seq result detail⟩) ∧
  -- INTERNAL_ENTRY_FLUSH (R473)
  (∀ (qs : List Instr) (m : Mach),
    exec .internalEntryFlush ⟨qs, m⟩ = .next ⟨qs, { m with mbx := flushWaiting m.mbx 64 }⟩)

/-- Completion of the resets and of the steps of a start: each of the rows named below, in every state and for all operands that meet its conditions, answers
the next state written out; whatever that expression does not change stands, the queue of waiting commands among it. -/
def Obligations.ResetEvents : Prop :=
  -- POR (R479)
  (∀ (qs : List Instr) (m : Mach),
    exec .por ⟨qs, m⟩ = .next ⟨qs, stationReset m .por false⟩) ∧
  -- BOR (R479)
  (∀ (qs : List Instr) (m : Mach) (vpreMv : Nat),
    (m.dev.vpreGood && (vpreMv < 4200 || m.dev.borDue.isSome) : Bool) = true →
    exec (.bor vpreMv) ⟨qs, m⟩ = .next ⟨qs, borReset m⟩) ∧
  -- PIN_RESET (R479)
  (∀ (qs : List Instr) (m : Mach) (lowNs : Nat),
    ¬(!m.dev.vpreGood) →
    let e : Mach :=
      if lowNs < 200 then advance m lowNs
      else
        let (n, m) := if lowNs < 1000 then draw m else (0, m)
        if 1000 ≤ lowNs || Config.shortPulseResets n then advance (stationReset m .pin true) lowNs else advance m lowNs
    exec (.pinReset lowNs) ⟨qs, m⟩ = .next ⟨qs, e⟩) ∧
  -- PPR_AUTO (R385)
  (∀ (qs : List Instr) (m₀ : Mach) (proc : Nat),
    proc < 2 →
    let m := m₀
    ∀ d : Nat,
    (getProc m proc).pprAt = some d →
    let m := advanceTo m d
    exec (.pprAuto proc) ⟨qs, m₀⟩ = .next ⟨qs, pprDo m proc⟩) ∧
  -- BLK_DONE (R483)
  (∀ (qs : List Instr) (m₀ : Mach) (block : Nat),
    ((blkResetNs block).isSome) = true →
    let m := m₀
    ∀ d : Nat,
    (m.pwr.blkAt.find? fun x => x.1 = block).map (·.2) = some d →
    let m := advanceTo m d
    exec (.blkDone block) ⟨qs, m₀⟩ = .next ⟨qs, blkEnd m block⟩) ∧
  -- FER_AUTO (R484)
  (∀ (qs : List Instr) (m₀ : Mach) (die : Nat),
    die < 2 →
    let m := m₀
    ∀ d : Nat,
    tget m.pwr.ferAuto none die = some d →
    let m := advanceTo m d
    let m := { m with pwr := { m.pwr with ferTimes := tupd m.pwr.ferTimes die fun l => l ++ [nowMs m] } }
    let d := die
    ((tget m.pwr.ferAt none d).isSome) = false →
    exec (.ferAuto die) ⟨qs, m₀⟩ = .next ⟨qs, ferBegin m d⟩) ∧
  -- FER_DONE (R484)
  (∀ (qs : List Instr) (m₀ : Mach) (die : Nat),
    die < 2 →
    let m := m₀
    ∀ d : Nat,
    tget m.pwr.ferAt none die = some d →
    let m := advanceTo m d
    exec (.ferDone die) ⟨qs, m₀⟩ = .next ⟨qs, ferDone m die⟩) ∧
  -- GDCLK_MISSING (R35)
  (∀ (qs : List Instr) (m : Mach),
    exec .gdclkMissing ⟨qs, m⟩ = .next ⟨qs, stationReset m .por true⟩) ∧
  -- RESET_PHASE_END (R481)
  (∀ (qs : List Instr) (m : Mach) (vstsMv : Nat),
    sysRated vstsMv = true →
    (m.dev.resetPhase && m.dev.vpreGood && m.dev.vioGood && m.dev.xin : Bool) = true →
    exec (.resetPhaseEnd vstsMv) ⟨qs, m⟩ = .next ⟨qs, resetPhaseEnd m vstsMv⟩) ∧
  -- VPRE_GOOD (R55)
  (∀ (qs : List Instr) (m : Mach) (vpreMv : Nat) (bootOnly : Bool),
    (!m.dev.vpreGood && m.pwr.st ≠ .ship : Bool) = true →
    exec (.vpreGood vpreMv bootOnly) ⟨qs, m⟩ = .next ⟨qs, vpreUp m vpreMv bootOnly⟩) ∧
  -- VIO_GOOD (R55)
  (∀ (qs : List Instr) (m : Mach),
    m.dev.vpreGood = true →
    exec .vioGood ⟨qs, m⟩ =
      .next ⟨qs, { m with dev := { m.dev with vioGood := true }, path := { m.path with startCkt := false } }⟩) ∧
  -- STRAP_LATCH (R47)
  (∀ (qs : List Instr) (m : Mach) (hsel hadr dbp : Nat),
    (hsel < 2 && hadr < 2 && dbp < 4 : Bool) = true →
    (m.dev.vioGood && !m.dev.strapsLatched : Bool) = true →
    exec (.strapLatch hsel hadr dbp) ⟨qs, m⟩ =
      .next ⟨qs, { m with dev := { m.dev with strapsLatched := true, hsel := hsel, hadr := hadr, dbp := dbp } }⟩) ∧
  -- RECALL_COMPLETE (R436)
  (∀ (qs : List Instr) (m : Mach),
    (m.dev.vpreGood && m.dev.xin && !m.dev.recallDone && !m.dev.resetPhase : Bool) = true →
    exec .recallComplete ⟨qs, m⟩ = .next ⟨qs, recallComplete m⟩) ∧
  -- CONFIG_APPLY (R55)
  (∀ (qs : List Instr) (m : Mach),
    (m.dev.recallDone && !m.dev.resetPhase && !m.dev.configApplied && m.pwr.st ≠ .standby : Bool) = true →
    exec .configApply ⟨qs, m⟩ = .next ⟨qs, configApply m⟩)

/-- Completion of the start by the Store, the power-down save and the page writes: each of the rows named below, in every state and for all operands that meet its conditions, answers
the next state written out; whatever that expression does not change stands, the queue of waiting commands among it. -/
def Obligations.RetentionEvents : Prop :=
  -- HOLD_CHARGED (R445)
  (∀ (qs : List Instr) (m : Mach) (holdMv : Nat),
    (m.dev.vpreGood && 12000 ≤ holdMv : Bool) = true →
    exec (.holdCharged holdMv) ⟨qs, m⟩ = .next ⟨qs, { m with dev := { m.dev with holdOk := true } }⟩) ∧
  -- STORE_START (R168)
  (∀ (qs : List Instr) (m₀ : Mach) (vstsMv : Nat) (wake : Bool),
    sysRated vstsMv = true →
    let m := m₀
    (!m.dev.vpreGood && 8000 ≤ vstsMv && (wake || !m.pwr.shipLatch) : Bool) = true →
    let m := leaveShip m 6
    exec (.storeStart vstsMv wake) ⟨qs, m₀⟩ =
      .next ⟨qs, { m with path := { m.path with startCkt := true, vstsMv := vstsMv, sysMv := vstsMv } }⟩) ∧
  -- POWER_DOWN_WARNING (R443)
  (∀ (qs : List Instr) (m₀ : Mach) (trigger mv : Nat) (hold : List Nat),
    trigger < 3 →
    let m := m₀
    let m := if trigger = 1 then { m with path := { m.path with sysMv := mv } }
      else if trigger = 2 then { m with dev := { m.dev with vbootMv := mv } } else m
    let vb := warnsFromVboot m
    let hit := if trigger = 0 then !vb && mv < 4600 else if trigger = 1 then !vb && mv < m.nvm.pdwSysMv
      else vb && mv < 4500
    (m.dev.vpreGood && !m.dev.resetPhase && !m.dev.warning && hit : Bool) = true →
    exec (.powerDownWarning trigger mv hold) ⟨qs, m₀⟩ = .next ⟨qs, powerWarning m hold⟩) ∧
  -- SAVE_COMPLETE (R446)
  (∀ (qs : List Instr) (m : Mach) (warningEnded : Bool),
    (m.dev.borDue.isNone && (m.dev.warning || m.pwr.stateDue = some 3) : Bool) = true →
    exec (.saveComplete warningEnded) ⟨qs, m⟩ = .next ⟨qs, saveComplete m warningEnded⟩) ∧
  -- SAVE_REGION_ERASE (R446)
  (∀ (qs : List Instr) (m : Mach),
    (!saveReady m.nvm && m.dev.recallDone && m.dev.borDue.isNone : Bool) = true →
    exec .saveRegionErase ⟨qs, m⟩ = .next ⟨qs, eraseSaveRegion (if m.nvm.saving.isSome then writeCheckpoint m else m)⟩) ∧
  -- CHECKPOINT (R442)
  (∀ (qs : List Instr) (m₀ : Mach),
    let m := m₀
    ∀ d : Nat,
    m.nvm.checkpointAt = some d →
    let m := advanceTo m d
    let m := writeCheckpoint m
    exec .checkpoint ⟨qs, m₀⟩ = .next ⟨qs, { m with nvm := { m.nvm with checkpointAt := after m (sec 900) } }⟩) ∧
  -- NVM_PAGE_WRITE_DONE (R432)
  (∀ (qs : List Instr) (m₀ : Mach) (ok1 ok2 : Bool),
    let m := m₀
    ∀ w,
    (if m.dev.xin then m.nvm.cur else none) = some w →
    let once := ok1 || m.nvm.reverify
    let clean := ok1 && !m.nvm.reverify
    let more := if once then 0 else if w.kind = NvmKind.hostErase then 350000 else 1070000
    let m := advanceTo m (w.startAt + writeNs m.nvm w + more)
    let m :=
      match tornBy m w with
      | some b =>
        let bs := w.bytes.getD (List.replicate 64 0xFF)
        let nv := match w.item with
          | some (c, x) => { m.nvm with items := tornItem m.nvm.items c x }
          | none => nvFold (erasePage m.nvm w.page) (List.range b.value.toNat) fun nv k => programGroup nv w.page k bs
        let m := note { m with nvm := nv } blkNvm .nvmUnc 2
        answerWriter (ptbEnd m b.id) w 2
      | none =>
        if clean || ok2 then
          let m := { m with nvm := applyWrite m.nvm w }
          let m := match w.ctx with
            | some x => if w.kind = NvmKind.learned then
                modCtx m x fun c => { c with learnPending := false, reverted := false } else m
            | none => m
          answerWriter m w (if clean then 0 else 1)
        else answerWriter (note (failWrite m w) blkNvm .nvmUnc 2) w 2
    exec (.nvmPageWriteDone ok1 ok2) ⟨qs, m₀⟩ =
      .next ⟨qs, nvmKick { m with nvm := { m.nvm with cur := none, reverify := false } }⟩) ∧
  -- LEARNED_WRITE_DUE (R349)
  (∀ (qs : List Instr) (m : Mach) (ctx : Nat),
    ctx < 272 →
    ((getCtx m ctx).active && (getCtx m ctx).learnPending && 14400000 ≤ (getCtx m ctx).actMs : Bool) = true →
    exec (.learnedWriteDue ctx) ⟨qs, m⟩ = .next ⟨qs, learnWrite m ctx⟩) ∧
  -- XIN_RETURN (R434)
  (∀ (qs : List Instr) (m₀ : Mach),
    let m := m₀
    (!m.dev.xin : Bool) = true →
    let m := { m with dev := { m.dev with xin := true } }
    let e : Mach :=
      match m.nvm.cur with
      | some w => { m with nvm := { m.nvm with cur := some { w with startAt := m.dev.now }, reverify := true } }
      | none => nvmKick m
    exec .xinReturn ⟨qs, m₀⟩ = .next ⟨qs, e⟩)

/-- Completion of the losses of clocks and die links: each of the rows named below, in every state and for all operands that meet its conditions, answers
the next state written out; whatever that expression does not change stands, the queue of waiting commands among it. -/
def Obligations.ClockAndLinkEvents : Prop :=
  -- MCLK_LOSS (R32)
  (∀ (qs : List Instr) (m : Mach),
    m.dev.mclk = true →
    exec .mclkLoss ⟨qs, m⟩ = .next ⟨qs, mclkStop m⟩) ∧
  -- CLK_LOSS (R33)
  (∀ (qs : List Instr) (m₀ : Mach) (dom : Nat),
    (1 ≤ dom && dom ≤ 3 : Bool) = true →
    let m := m₀
    clkRuns m dom = true →
    let d := m.dev
    let m := { m with dev := { d with ceclk := d.ceclk && dom ≠ 1, pwmclk := d.pwmclk && dom ≠ 2, adcclk := d.adcclk && dom ≠ 3 } }
    let m := setLive (note m blkClk .clkLoss 7) blkClk .clkLoss 7 true
    let first := m.grd.clkLost = 0
    let m := { m with grd := { m.grd with clkLost := m.grd.clkLost + flag (!bit m.grd.clkLost dom) dom } }
    ¬(!first) →
    let ks := declaredConvs m
    let m := forAll m ks fun m k =>
      fenceConv (setLive (note m (cnvBlk k) .clkLoss 7) (cnvBlk k) .clkLoss 7 true) k (codeOf .clkLoss)
    let ports := (List.range 48).filter fun p => (getPort m p).mode ≠ 0 && !ks.contains p
    let m := forAll m ports fun m p => markFence (setLive (note m p .clkLoss 7) p .clkLoss 7 true) p (codeOf .clkLoss)
    exec (.clkLoss dom) ⟨qs, m₀⟩ =
      .next ⟨qs, forAll m (List.range 48) fun m p => modCv m p fun c => { c with vbg := false }⟩) ∧
  -- XIN_LOSS (R34)
  (∀ (qs : List Instr) (m : Mach),
    m.dev.xin = true →
    exec .xinLoss ⟨qs, m⟩ = .next ⟨qs, xinStop m⟩) ∧
  -- ESTCLK_LOSS (R327)
  (∀ (qs : List Instr) (m : Mach),
    exec .estclkLoss ⟨qs, m⟩ =
      .next ⟨qs, { m with dev := { m.dev with estclk := false }, est := { m.est with halted := true } }⟩) ∧
  -- DIE_LINK_LOSS (R402)
  (∀ (qs : List Instr) (m : Mach) (die : Nat),
    die < 2 →
    ((getBlk m (blkLinkE + die)).fence.isNone) = true →
    exec (.dieLinkLoss die) ⟨qs, m⟩ = .next ⟨qs, dieLost m die⟩) ∧
  -- LINK_GLITCH (R402)
  (∀ (qs : List Instr) (m : Mach) (die : Nat),
    die < 2 →
    exec (.linkGlitch die) ⟨qs, m⟩ = .next ⟨qs, note m (blkLinkE + die) .linkGlitch 1⟩) ∧
  -- FE_HEARTBEAT_LOSS (R20)
  (∀ (qs : List Instr) (m₀ : Mach) (die : Nat),
    die < 2 →
    let m := m₀
    let m := if (getBlk m (blkLinkE + die)).fence.isNone then dieLost m die else m
    let m := { m with dev := { m.dev with feDark := m.dev.feDark.filter (fun q => q ≠ die) ++ [die] } }
    let e : Mach :=
      forAll m ((List.range 24).map (24 * die + ·)) fun m p =>
        let m := modCv m p fun c => { c with vbg := false, vbd := !isBay m p || bayEmpty m p }
        modPort m p fun x => { x with dcp := false, vconn := false }
    exec (.feHeartbeatLoss die) ⟨qs, m₀⟩ = .next ⟨qs, e⟩) ∧
  -- FE_W_REJOIN (R21)
  (∀ (qs : List Instr) (m : Mach),
    ((getBlk m (blkLinkE + 1)).fence.isNone && m.sto.tapsRead && (getChg m 0).st = .suspended
        && (getChg m 0).cause = 7 : Bool) = true →
    exec .feWRejoin ⟨qs, m⟩ = .next ⟨qs, chgEnter m 0 .check⟩) ∧
  -- AONCLK_LOSS (R31)
  (∀ (qs : List Instr) (m : Mach),
    m.dev.aonclk = true →
    exec .aonclkLoss ⟨qs, m⟩ = .next ⟨qs, note { m with dev := { m.dev with aonclk := false } } blkClk .clkLoss 1⟩) ∧
  -- USBCLK_LOSS (R31)
  (∀ (qs : List Instr) (m : Mach),
    exec .usbclkLoss ⟨qs, m⟩ = .next ⟨qs, { usbDrop m with dev := { (usbDrop m).dev with usbclk := false } }⟩)

/-- Completion of the periods of a converter and of its engine slot: each of the rows named below, in every state and for all operands that meet its conditions, answers
the next state written out; whatever that expression does not change stands, the queue of waiting commands among it. -/
def Obligations.EngineEvents : Prop :=
  -- PERIOD_BOUNDARY (R65)
  (∀ (qs : List Instr) (m : Mach) (conv : Nat),
    conv < 55 →
    ((getCv m conv).run && m.dev.pwmclk : Bool) = true →
    exec (.periodBoundary conv) ⟨qs, m⟩ = .next ⟨qs, periodBoundary m conv⟩) ∧
  -- SPECULATION (R111)
  (∀ (qs : List Instr) (m : Mach) (conv : Nat) (early : List (Option Int)),
    conv < 55 →
    (specReady conv (getCv m conv) && specBefore m conv < 4 && m.dev.ceclk : Bool) = true →
    let cv := getCv m conv
    exec (.speculation conv early) ⟨qs, m⟩ =
      .next ⟨qs, modCtrl m conv fun c => { c with bank := speculate conv cv.reverse cv.decl c early }⟩) ∧
  -- RESOLVE (R114)
  (∀ (qs : List Instr) (m : Mach) (conv : Nat) (y : List Int),
    conv < 55 →
    ((getCv m conv).run && m.dev.ceclk && !(ctrlOf m conv).resolved
        && !(specOn (ctrlOf m conv) && (ctrlOf m conv).loaded) : Bool) = true →
    let e : Mach :=
      if skipHeld m conv y then modCtrl m conv fun c => { c with bank := {}, resolved := true, idlePer := true }
      else startPathHold (resolve (modCtrl m conv fun c => { c with idlePer := false }) conv y) conv
    exec (.resolve conv y) ⟨qs, m⟩ = .next ⟨qs, e⟩) ∧
  -- SHADOW_LOAD (R114)
  (∀ (qs : List Instr) (m : Mach) (conv : Nat),
    conv < 55 →
    let c := ctrlOf m conv
    ((getCv m conv).run && !c.loaded && m.dev.pwmclk
        && (!specOn c || c.resolved || heldPeriod (execNow conv (getCv m conv).decl c)) : Bool) = true →
    exec (.shadowLoad conv) ⟨qs, m⟩ = .next ⟨qs, modCtrl m conv shadowLoad⟩) ∧
  -- RECOVERY (R114)
  (∀ (qs : List Instr) (m : Mach) (conv : Nat),
    conv < 55 →
    ((getCv m conv).run && m.dev.ceclk && recHead m conv
        && ((ctrlOf m conv).recovery.any fun r => r.snow.isSome || inTime (ctrlOf m conv) r) : Bool) = true →
    exec (.recovery conv) ⟨qs, m⟩ = .next ⟨qs, recovery m conv⟩) ∧
  -- CTRL_STARVED (R121)
  (∀ (qs : List Instr) (m : Mach) (conv : Nat),
    conv < 55 →
    ((ctrlOf m conv).starvedDue) = true →
    exec (.ctrlStarved conv) ⟨qs, m⟩ = .next ⟨qs, ctrlStarved m conv⟩) ∧
  -- SPEC_SUSPEND (R122)
  (∀ (qs : List Instr) (m₀ : Mach),
    let m := m₀
    (!m.eng.suspended
        && 4 ≤ (m.eng.starvedTimes.filter fun t => m.dev.now < t + ms 100).length : Bool) = true →
    let m := note m blkEng .specSuspended 6
    exec .specSuspend ⟨qs, m₀⟩ =
      .next ⟨qs, setLive { m with eng := { m.eng with suspended := true } } blkEng .specSuspended 6 true⟩) ∧
  -- MODE_CHANGE (R96)
  (∀ (qs : List Instr) (m : Mach) (conv : Nat),
    conv < 55 →
    let c := ctrlOf m conv
    ((getCv m conv).run && c.resolved && c.committed && !c.bank.ready && 4 ≤ c.modeDwell && c.modeNext ≠ c.mode : Bool) = true →
    exec (.modeChange conv) ⟨qs, m⟩ = .next ⟨qs, modCtrl m conv modeChange⟩) ∧
  -- PEAK_TRIP (R69)
  (∀ (qs : List Instr) (m : Mach) (conv : Nat) (hit : PeakHit),
    (conv < 55 && hit.phase < 8 : Bool) = true →
    ((getCv m conv).run && (tget (getCv m conv).ph {} hit.phase).st = .inService && heard (getCv m conv) hit.sinceNs
        && crosses m conv (phaseChan m conv hit.phase + (if hit.legB then 1 else 0)) hit.imonUv : Bool) = true →
    exec (.peakTrip conv hit) ⟨qs, m⟩ = .next ⟨qs, peakTrip m conv hit.phase⟩) ∧
  -- SENSE_SPLIT (R67)
  (∀ (qs : List Instr) (m : Mach) (conv phase : Nat) (aMa bMa : Int),
    (conv < 55 && phase < 8 : Bool) = true →
    ((tget (getCv m conv).ph {} phase).st = .inService
        && ((getCv m conv).decl.irateMa : Int) < 10 * (aMa - bMa).natAbs : Bool) = true →
    exec (.senseSplit conv phase aMa bMa) ⟨qs, m⟩ = .next ⟨qs, note m (cnvBlk conv) .senseSplit 2⟩)

/-- Completion of the phase, self-test and ADC array rows: each of the rows named below, in every state and for all operands that meet its conditions, answers
the next state written out; whatever that expression does not change stands, the queue of waiting commands among it. -/
def Obligations.PhaseAndAdcEvents : Prop :=
  -- TMON_OPEN (R72)
  (∀ (qs : List Instr) (m : Mach) (group mv : Nat),
    group < 16 →
    (mv < 100 && m.dev.adcclk : Bool) = true →
    exec (.tmonOpen group mv) ⟨qs, m⟩ = .next ⟨qs, tmonOpen m group mv⟩) ∧
  -- STAGE_FAULT (R72)
  (∀ (qs : List Instr) (m : Mach) (group mv : Nat),
    group < 16 →
    (2400 < mv && m.dev.adcclk : Bool) = true →
    exec (.stageFault group mv) ⟨qs, m⟩ = .next ⟨qs, stageFault m group mv⟩) ∧
  -- STAGE_IDENTIFY (R139)
  (∀ (qs : List Instr) (m : Mach) (group : Nat) (found : List Nat),
    group < 16 →
    ((getTmon m group).fault && (getTmon m group).parkEnd.isNone : Bool) = true →
    exec (.stageIdentify group found) ⟨qs, m⟩ = .next ⟨qs, stageIdentify m group found⟩) ∧
  -- PHASE_PARK_END (R139)
  (∀ (qs : List Instr) (m₀ : Mach) (group mv : Nat),
    group < 16 →
    let m := m₀
    ∀ d : Nat,
    (getTmon m group).parkEnd = some d →
    let m := advanceTo m d
    exec (.phaseParkEnd group mv) ⟨qs, m₀⟩ = .next ⟨qs, phaseParkEnd m group mv⟩) ∧
  -- PHASE_SELFTEST (R77)
  (∀ (qs : List Instr) (m : Mach) (conv phase : Nat) (meas : SelftestMeas),
    (conv < 55 && phase < 8 : Bool) = true →
    ((getCv m conv).selftest ≠ 0 && !(getCv m conv).run && phase < declaredPhases (getCv m conv).decl
        && m.dev.configApplied && meas.peaks.length = 8 && meas.compSteps.length = 2 : Bool) = true →
    exec (.phaseSelftest conv phase meas) ⟨qs, m⟩ = .next ⟨qs, phaseSelftest m conv phase meas⟩) ∧
  -- SELFTEST_DONE (R78)
  (∀ (qs : List Instr) (m : Mach) (conv : Nat),
    conv < 55 →
    ((getCv m conv).selftest ≠ 0 && !(getCv m conv).run : Bool) = true →
    exec (.selftestDone conv) ⟨qs, m⟩ = .next ⟨qs, selftestDone m conv⟩) ∧
  -- SELFTEST_DEFERRED_RUN (R78)
  (∀ (qs : List Instr) (m : Mach) (input vinMv : Nat),
    input < 6 →
    vinMv ≤ 170000 →
    ((getCv m (48 + input)).selftest = 2 && 5000 < vinMv : Bool) = true →
    exec (.selftestDeferredRun input vinMv) ⟨qs, m⟩ = .next ⟨qs, modCv m (48 + input) fun c => { c with selftest := 1 }⟩) ∧
  -- IMON_ZERO_CHECK (R86)
  (∀ (qs : List Instr) (m₀ : Mach) (conv phase zeroA zeroB : Nat),
    (conv < 55 && phase < 8 : Bool) = true →
    let m := m₀
    (!(getCv m conv).run && (tget (getCv m conv).ph {} phase).st = .inService : Bool) = true →
    let k := conv
    let idx := phase
    let za := zeroA
    let zb := zeroB
    let d := (getCv m k).decl
    let ok (z : Nat) : Bool := d.imonZeroMv ≤ z + 50 && z ≤ d.imonZeroMv + 50
    let za := ((za : Int) + ptbValue m 3 (phaseChan m k idx)).toNat
    let zb := ((zb : Int) + ptbValue m 3 (phaseChan m k idx + 1)).toNat
    let m := modCv m k fun c => { c with ph := tupd c.ph idx fun y =>
      { y with zeroA := za, zeroB := zb, zeroAt := m.dev.now } }
    ¬(ok za && ok zb) →
    exec (.imonZeroCheck conv phase zeroA zeroB) ⟨qs, m₀⟩ = .next ⟨qs, fencePhase m k idx .imonZero 5⟩) ∧
  -- ADC_ROTATION (R82)
  (∀ (qs : List Instr) (m₀ : Mach),
    let m := m₀
    m.dev.adcclk = true →
    ∀ d : Nat,
    m.adc.rotateAt = some d →
    let m := advanceTo m d
    exec .adcRotation ⟨qs, m₀⟩ = .next ⟨qs, adcRotation m⟩) ∧
  -- ADC_HANDOVER (R82)
  (∀ (qs : List Instr) (m : Mach) (disagree : List Nat) (leavingErr standinErr : Nat),
    exec (.adcHandover disagree leavingErr standinErr) ⟨qs, m⟩ = .next ⟨qs, adcHandover m disagree leavingErr standinErr⟩) ∧
  -- ADC_CAL_DONE (R83)
  (∀ (qs : List Instr) (m₀ : Mach) (pass : Bool),
    let m := m₀
    ∀ a,
    (adcIn m .calibrating).or (adcIn m .withdrawn) = some a →
    let held := m.adc.retry
    let m := { m with adc := { m.adc with retry := false } }
    let m := if pass then adcFill (modAdc m a fun x => { x with st := .ready, fails := 0 })
      else if 1 ≤ (adcUnit m a).fails then adcShortage (modAdc m a fun x => { x with st := .retired })
      else modAdc m a fun x => { x with st := .calibrating, fails := 1 }
    exec (.adcCalDone pass) ⟨qs, m₀⟩ = .next ⟨qs, if held then adcStep m else m⟩) ∧
  -- HOUSEKEEPING_ROUND (R79)
  (∀ (qs : List Instr) (m : Mach) (round : Round),
    (round.taps.length = 17 && round.sensors.length = 94 : Bool) = true →
    (sysRated round.vstsMv && sysRated round.sysMv && sysRated round.auxMv && round.taps.all sysRated : Bool) = true →
    measuring m = true →
    exec (.housekeepingRound round) ⟨qs, m⟩ = .next ⟨qs, housekeepingRound m round⟩)

/-- Completion of the converter protection rows: each of the rows named below, in every state and for all operands that meet its conditions, answers
the next state written out; whatever that expression does not change stands, the queue of waiting commands among it. -/
def Obligations.ConverterProtectionEvents : Prop :=
  -- PREBIAS_CHECK (R126)
  (∀ (qs : List Instr) (m : Mach) (conv : Nat) (meas : PrebiasMeas),
    conv < 55 →
    (meas.vbsMv ≤ 60000 && meas.samples.all (· ≤ 65000) : Bool) = true →
    (mayCheck m conv && (protOf m conv).prebiasAt.isNone && meas.samples.length = 4 : Bool) = true →
    exec (.prebiasCheck conv meas) ⟨qs, m⟩ = .next ⟨qs, prebiasCheck m conv meas⟩) ∧
  -- PREBIAS_RETRY (R127)
  (∀ (qs : List Instr) (m₀ : Mach) (conv : Nat) (meas : PrebiasMeas),
    conv < 55 →
    (meas.vbsMv ≤ 60000 && meas.samples.all (· ≤ 65000) : Bool) = true →
    let m := m₀
    (mayCheck m conv && meas.samples.length = 4 : Bool) = true →
    ∀ d : Nat,
    (protOf m conv).prebiasAt = some d →
    let m := advanceTo m d
    exec (.prebiasRetry conv meas) ⟨qs, m₀⟩ =
      .next ⟨qs, prebiasCheck (modProt m conv fun p => { p with prebiasAt := none }) conv meas⟩) ∧
  -- BACKDRIVE_CLEAR (R126)
  (∀ (qs : List Instr) (m₀ : Mach) (port vbsMv : Nat),
    port < 48 →
    vbsMv ≤ 60000 →
    let m := m₀
    ((protOf m port).backdrive && vbsMv < 800 : Bool) = true →
    let m := modProt m port fun p => { p with backdrive := false }
    exec (.backdriveClear port vbsMv) ⟨qs, m₀⟩ =
      .next ⟨qs, if (getPort m port).tc = .attachedSrc then requestStart m port else m⟩) ∧
  -- SHORT_DETECT (R129)
  (∀ (qs : List Instr) (m : Mach) (conv sampleMv limPermille : Nat) (ccOpen : Bool),
    conv < 55 →
    sampleMv ≤ 65000 →
    let e : Mach :=
      if (getCv m conv).run then shortDetect m conv sampleMv limPermille ccOpen
      else when ((getBlk m (cnvBlk conv)).fence = some (codeOf .ctrlStarved) && reacting m (cnvBlk conv)
          && shortCond m conv sampleMv limPermille && !(ccOpen && conv < 48)) m fun m => shortMerged m conv
    exec (.shortDetect conv sampleMv limPermille ccOpen) ⟨qs, m⟩ = .next ⟨qs, e⟩) ∧
  -- HICCUP_RETRY (R130)
  (∀ (qs : List Instr) (m₀ : Mach) (conv : Nat),
    conv < 55 →
    let m := m₀
    ∀ d : Nat,
    (protOf m conv).hiccupAt = some d →
    let m := advanceTo m d
    let m := modProt m conv fun p => { p with hiccupAt := none, hiccups := p.hiccups + 1 }
    ((conv < 48 || startWanted m conv) && (conv ≠ 54 || m.aux.wants) : Bool) = true →
    let k := conv
    let c := getCv m k
    ¬(c.decl.topo = 0 || cnvFenced m k || c.run || m.grd.clkLost ≠ 0 || !m.dev.configApplied) →
    let pend := (List.range (declaredPhases c.decl)).any fun j => (tget c.ph {} j).st = .pending
    let e : Mach :=
      modCv m k fun c => { c with starting := true, parked := false
                                  selftest := if pend then max c.selftest 1 else c.selftest
                                  prot := { c.prot with prebiasTries := 0, prebiasAt := none } }
    exec (.hiccupRetry conv) ⟨qs, m₀⟩ = .next ⟨qs, e⟩) ∧
  -- HICCUP_COUNT_RESET (R130)
  (∀ (qs : List Instr) (m₀ : Mach) (conv : Nat),
    conv < 55 →
    let m := m₀
    ∀ d : Nat,
    (protOf m conv).stableAt = some d →
    let m := advanceTo m d
    exec (.hiccupCountReset conv) ⟨qs, m₀⟩ =
      .next ⟨qs, setLive (modProt m conv fun p => { p with hiccups := 0, stableAt := none }) (cnvBlk conv) .short 4 false⟩) ∧
  -- OV_DETECT (R133)
  (∀ (qs : List Instr) (m : Mach) (conv sampleMv : Nat) (ccOpen : Bool),
    conv < 55 →
    sampleMv ≤ 65000 →
    ((getCv m conv).run) = true →
    let k := conv
    ¬(thrUnit sampleMv ≤ ovNow m k) →
    let e : Mach :=
      if k < 48 && ccOpen then consequential (stopRun m k) (cnvBlk k) .ov k
      else
        match (if k < 48 then maskedBy m (.port k) else none) with
        | some o => consequential m (cnvBlk k) .ov o
        | none =>
          let m := modProt m k fun p => { p with ovCount := wrap32 (p.ovCount + 1) }
          let recent := (protOf m k).ovTimes.filter fun t => m.dev.now < t + sec 10
          let m := modProt m k fun p => { p with ovTimes := recent ++ [m.dev.now] }
          if 48 ≤ k || !recent.isEmpty then fault m k .ov 5
          else
            let (m, act) := detect m (cnvBlk k) .ov 4 10000
            if !act then m
            else
              let rev := (getCv m k).reverse
              let m := stopRun m k
              if isBay m k || rev then requestStart m k
              else
                let trans := (getPd m k).pe = .transition
                modPd (hardSignal (abortBy m k 2) k) k fun x => { x with lastAbort := if trans then 2 else x.lastAbort }
    exec (.ovDetect conv sampleMv ccOpen) ⟨qs, m⟩ = .next ⟨qs, e⟩) ∧
  -- UV_DETECT (R134)
  (∀ (qs : List Instr) (m : Mach) (conv sampleMv limPermille ms : Nat),
    conv < 55 →
    sampleMv ≤ 65000 →
    ((getCv m conv).run) = true →
    exec (.uvDetect conv sampleMv limPermille ms) ⟨qs, m⟩ = .next ⟨qs, uvDetect m conv sampleMv limPermille ms⟩) ∧
  -- PHASE_OPEN (R137)
  (∀ (qs : List Instr) (m : Mach) (conv : Nat) (legAMa legBMa valleyMa : List Int) (periods : Nat),
    conv < 55 →
    (protJudged m conv && 32 ≤ periods && legAMa.length = declaredPhases (getCv m conv).decl
        && legBMa.length = legAMa.length && valleyMa.length = legAMa.length : Bool) = true →
    exec (.phaseOpen conv legAMa legBMa valleyMa periods) ⟨qs, m⟩ = .next ⟨qs, phaseOpen m conv legAMa legBMa valleyMa⟩) ∧
  -- SENSE_RAIL (R138)
  (∀ (qs : List Instr) (m : Mach) (conv phase imonMv : Nat),
    (conv < 55 && phase < 8 : Bool) = true →
    imonMv ≤ 3600 →
    (protJudged m conv && (tget (getCv m conv).ph {} phase).st = .inService && (imonMv < 20 || 1780 < imonMv) : Bool) = true →
    exec (.senseRail conv phase imonMv) ⟨qs, m⟩ = .next ⟨qs, fencePhase m conv phase .senseRail 5⟩) ∧
  -- SENSE_RIPPLE (R138)
  (∀ (qs : List Instr) (m : Mach) (conv phase : Nat) (valleyMa midMa : List Int),
    (conv < 55 && phase < 8 : Bool) = true →
    (protJudged m conv && (tget (getCv m conv).ph {} phase).st = .inService && valleyMa.length = 8 && midMa.length = 8
        && ((getCv m conv).decl.irateMa * riseDen m conv : Nat) ≤ 10 * halfRise m conv
        && (valleyMa.zip midMa).all fun e => 4 * (magnitude m conv e.2 - magnitude m conv e.1) * riseDen m conv < halfRise m conv : Bool) = true →
    exec (.senseRipple conv phase valleyMa midMa) ⟨qs, m⟩ = .next ⟨qs, fencePhase m conv phase .senseRipple 5⟩) ∧
  -- DERATE_END (R142)
  (∀ (qs : List Instr) (m₀ : Mach) (port : Nat),
    port < 48 →
    let m := m₀
    ∀ d : Nat,
    (protOf m port).derateAt = some d →
    let m := advanceTo m d
    exec (.derateEnd port) ⟨qs, m₀⟩ = .next ⟨qs, derateEnd m port reRequest⟩)

/-- Completion of the battery FET and input rows: each of the rows named below, in every state and for all operands that meet its conditions, answers
the next state written out; whatever that expression does not change stands, the queue of waiting commands among it. -/
def Obligations.PathAndInputEvents : Prop :=
  -- BFET_MODE_EVAL (R148)
  (∀ (qs : List Instr) (m₀ : Mach) (vstsMv : Nat),
    sysRated vstsMv = true →
    let m := m₀
    let v := vstsMv
    let m := { m with path := { m.path with vstsMv := v } }
    ¬(m.path.transAt.isSome || m.grd.clkLost ≠ 0) →
    let dead := v + 300 < m.path.sysMin
    let near := (m.path.sysMv < v + 100 && v < m.path.sysMv + 100) || (dead && m.path.sysMin ≤ m.path.sysMv)
    ¬(m.path.joining && !near) →
    let m := if m.path.joining then
        let m := { m with path := { m.path with joining := false } }
        modBlk m blkStore fun w => if w.fence = some (codeOf .storeRemoved) then { w with fence := none } else w
      else m
    let (md, m) := bfetSelect m v
    ¬(md = m.path.mode) →
    let e : Mach :=
      if md = .on && (m.path.mode = .diode || m.path.mode = .linear) then
        ladderApply { m with path := { m.path with
          toMode := some .on, transAt := some (m.dev.now + slewNs m (v + 20) + ms 1) } }
      else setMode m md
    exec (.bfetModeEval vstsMv) ⟨qs, m₀⟩ = .next ⟨qs, e⟩) ∧
  -- BFET_TRANSITION_DONE (R151)
  (∀ (qs : List Instr) (m₀ : Mach),
    let m := m₀
    m.grd.clkLost = 0 →
    ∀ d : Nat,
    m.path.transAt = some d →
    let m := advanceTo m d
    exec .bfetTransitionDone ⟨qs, m₀⟩ = .next ⟨qs, setMode m (m.path.toMode.getD m.path.mode)⟩) ∧
  -- REVERSE_COMPARATOR (R149)
  (∀ (qs : List Instr) (m₀ : Mach) (storeMa : Int),
    let m := m₀
    (m.path.mode = .diode && 200 < storeMa : Bool) = true →
    let m := modChg m 0 fun c => { c with iMa := storeMa }
    let e : Mach :=
      { m with path := { m.path with
          revBlock := true
          transAt := match m.path.toMode with
            | some _ => some (m.dev.now + slewNs m (m.path.vstsMv + 20) + ms 1)
            | none => m.path.transAt } }
    exec (.reverseComparator storeMa) ⟨qs, m₀⟩ = .next ⟨qs, e⟩) ∧
  -- LINEAR_UPDATE (R150)
  (∀ (qs : List Instr) (m : Mach) (sysMv vstsMv : Nat) (storeMa : Int),
    (sysRated sysMv && sysRated vstsMv : Bool) = true →
    m.path.mode = .linear →
    exec (.linearUpdate sysMv vstsMv storeMa) ⟨qs, m⟩ =
      .next ⟨qs, modChg (linearUpdate m sysMv vstsMv) 0 fun c => { c with iMa := storeMa }⟩) ∧
  -- LIN_OVERLOAD (R150)
  (∀ (qs : List Instr) (m₀ : Mach) (sysMv vstsMv : Nat) (storeMa : Int),
    (sysRated sysMv && sysRated vstsMv : Bool) = true →
    let m := m₀
    (m.path.mode = .linear && 1500 * (m.path.pdCapMw : Int) < ((sysMv : Int) - vstsMv) * storeMa : Bool) = true →
    let (m, act) := detect m blkStore .linOverload 5 10000
    exec (.linOverload sysMv vstsMv storeMa) ⟨qs, m₀⟩ = .next ⟨qs, if act then storeFence m .linOverload else m⟩) ∧
  -- INPUT_PRESENT (R154)
  (∀ (qs : List Instr) (m₀ : Mach) (input vinMv : Nat),
    input < 6 →
    vinRated vinMv = true →
    let m := m₀
    let i := input
    let vin := vinMv
    let x := getInp m i
    ¬(x.typ = 0 || !x.enable || x.present || vin < presMv x) →
    let m := modInp m i fun x =>
      { x with present := true, parked := false, vinMv := vin, stopped := 0
               vehDetAt := if x.typ = 3 then after m (sec 1) else none, veh24 := none
               scanAt := if x.typ = 2 then after m (sec x.scanS) else none
               floorNow := if x.typ = 2 then x.floorNow else x.vfloorMv }
    exec (.inputPresent input vinMv) ⟨qs, m₀⟩ = .next ⟨qs, requestStart (ladderApply (rankRecompute m)) (48 + i)⟩) ∧
  -- INPUT_ABSENT (R154)
  (∀ (qs : List Instr) (m₀ : Mach) (input vinMv : Nat),
    input < 6 →
    vinRated vinMv = true →
    let m := m₀
    let i := input
    let vin := vinMv
    let x := getInp m i
    ¬(!x.present || 9 * presMv x ≤ 10 * vin) →
    let m := modInp m i fun x =>
      { x with present := false, parked := false, vinMv := vin, scanning := false, scanEndAt := none, scanAt := none
               vehDetAt := none, veh24 := none, stopped := 0, restartAt := none }
    let m := setLive (stopRun m (48 + i)) (cnvBlk (48 + i)) .inOv 4 false
    let m := setLive (modProt m (48 + i) fun p => { p with hiccupAt := none, prebiasAt := none }) (cnvBlk (48 + i)) .short 4 false
    exec (.inputAbsent input vinMv) ⟨qs, m₀⟩ = .next ⟨qs, ladderApply (rankRecompute m)⟩) ∧
  -- IN_OV (R155)
  (∀ (qs : List Instr) (m₀ : Mach) (input vinMv : Nat),
    input < 6 →
    vinRated vinMv = true →
    let m := m₀
    let i := input
    let vin := vinMv
    let x := getInp m i
    ¬(x.typ = 0 || !x.enable || vin ≤ x.vmaxMv || cnvFenced m (48 + i)) →
    let b := cnvBlk (48 + i)
    let (m, act) := detect m b .inOv 4 10000
    let m := setLive (modInp m i fun x => { x with vinMv := vin }) b .inOv 4 true
    let e : Mach :=
      if act then
        stopRun (modInp m i fun x => { x with stopped := 1, scanning := false, scanEndAt := none, restartAt := none }) (48 + i)
      else m
    exec (.inOv input vinMv) ⟨qs, m₀⟩ = .next ⟨qs, e⟩) ∧
  -- IN_OV_RECOVER (R155)
  (∀ (qs : List Instr) (m₀ : Mach) (input vinMv : Nat),
    input < 6 →
    vinRated vinMv = true →
    let m := m₀
    let x := getInp m input
    (x.stopped = 1 && 100 * vinMv < 95 * x.vmaxMv : Bool) = true →
    let m := setLive (modInp m input fun x => { x with stopped := 0, vinMv := vinMv }) (cnvBlk (48 + input)) .inOv 4 false
    exec (.inOvRecover input vinMv) ⟨qs, m₀⟩ = .next ⟨qs, if inputLive m input then requestStart m (48 + input) else m⟩) ∧
  -- INPUT_REVERSE (R156)
  (∀ (qs : List Instr) (m₀ : Mach) (input : Nat) (iinMa : Int),
    input < 6 →
    let m := m₀
    ((getCv m (48 + input)).run && iinMa < -200 : Bool) = true →
    let (m, act) := detect m (cnvBlk (48 + input)) .reverse 4 10000
    let e : Mach :=
      if act then
        stopRun (modInp m input fun x => { x with stopped := 2, restartAt := after m (ms 100) }) (48 + input)
      else m
    exec (.inputReverse input iinMa) ⟨qs, m₀⟩ = .next ⟨qs, e⟩) ∧
  -- INPUT_REVERSE_RESTART (R156)
  (∀ (qs : List Instr) (m₀ : Mach) (input : Nat),
    input < 6 →
    let m := m₀
    ∀ d : Nat,
    (getInp m input).restartAt = some d →
    let m := advanceTo m d
    let m := modInp m input fun x => { x with stopped := 0, restartAt := none }
    exec (.inputReverseRestart input) ⟨qs, m₀⟩ = .next ⟨qs, if inputLive m input then requestStart m (48 + input) else m⟩) ∧
  -- VEHICLE_SYSTEM_DETECT (R157)
  (∀ (qs : List Instr) (m₀ : Mach) (input vinMv : Nat),
    input < 6 →
    vinRated vinMv = true →
    let m := m₀
    ∀ d : Nat,
    (getInp m input).vehDetAt = some d →
    let m := advanceTo m d
    exec (.vehicleSystemDetect input vinMv) ⟨qs, m₀⟩ =
      .next ⟨qs, modInp m input fun x => { x with vehDetAt := none, veh24 := some (18000 ≤ vinMv), vinMv := vinMv }⟩) ∧
  -- VEHICLE_PARK (R157)
  (∀ (qs : List Instr) (m₀ : Mach) (input vinMv : Nat),
    input < 6 →
    vinRated vinMv = true →
    let m := m₀
    let x := getInp m input
    (x.typ = 3 && x.enable && x.present && !x.parked && x.veh24.isSome && x.vehHoldS ≠ 0 && vinMv < vehRun x : Bool) = true →
    let m := modInp m input fun x => { x with parked := true, vinMv := vinMv }
    let m := modCv (stopRun m (48 + input)) (48 + input) fun c => { c with parked := true }
    exec (.vehiclePark input vinMv) ⟨qs, m₀⟩ = .next ⟨qs, ladderApply (rankRecompute m)⟩) ∧
  -- VEHICLE_UNPARK (R157)
  (∀ (qs : List Instr) (m₀ : Mach) (input vinMv : Nat),
    input < 6 →
    vinRated vinMv = true →
    let m := m₀
    let x := getInp m input
    (x.typ = 3 && x.parked && vehRun x ≤ vinMv : Bool) = true →
    let m := ladderApply (rankRecompute (modInp m input fun x => { x with parked := false, vinMv := vinMv }))
    exec (.vehicleUnpark input vinMv) ⟨qs, m₀⟩ =
      .next ⟨qs, if (getInp m input).stopped = 0 then requestStart m (48 + input) else m⟩)

/-- Completion of the donor, tracking, SYS, cable-start and removal rows: each of the rows named below, in every state and for all operands that meet its conditions, answers
the next state written out; whatever that expression does not change stands, the queue of waiting commands among it. -/
def Obligations.SourceEvents : Prop :=
  -- DONOR_LIMIT_UPDATE (R160)
  (∀ (qs : List Instr) (m : Mach) (loadsMa inputsMa : Nat),
    (m.path.mode = .on && !isLive m blkStore (codeOf .chgOc) && holderRuns m : Bool) = true →
    exec (.donorLimitUpdate loadsMa inputsMa) ⟨qs, m⟩ = .next ⟨qs, donorLimitUpdate m loadsMa inputsMa⟩) ∧
  -- DONOR_WITHDRAW (R161)
  (∀ (qs : List Instr) (m₀ : Mach) (port : Nat),
    port < 48 →
    let m := m₀
    (m.path.donors.contains port && !donorCond m && (m.path.donorPol = 1 || m.path.donorPol = 2)
        && m.path.bootSink ≠ some port && !m.path.withdrawn.contains port : Bool) = true →
    ∀ d : Nat,
    m.path.donorEndAt = some d →
    let m := advanceTo m d
    exec (.donorWithdraw port) ⟨qs, m₀⟩ =
      .next ⟨qs, reRequest (setRef { m with path := { m.path with withdrawn := m.path.withdrawn ++ [port] } } port 1 0) port⟩) ∧
  -- MPPT_STEP (R162)
  (∀ (qs : List Instr) (m₀ : Mach) (input powerMw foldPermille : Nat),
    input < 6 →
    let m := m₀
    let x := getInp m input
    (x.typ = 2 && (getCv m (48 + input)).run && !x.scanning && holderRuns m : Bool) = true →
    let m := mpptStep m input powerMw foldPermille
    exec (.mpptStep input powerMw foldPermille) ⟨qs, m₀⟩ = .next ⟨qs, setRef m (48 + input) 3 (getInp m input).floorNow⟩) ∧
  -- MPPT_SCAN (R163)
  (∀ (qs : List Instr) (m₀ : Mach) (input : Nat),
    input < 6 →
    let m := m₀
    holderRuns m = true →
    ∀ d : Nat,
    (getInp m input).scanAt = some d →
    let m := advanceTo m d
    exec (.mpptScan input) ⟨qs, m₀⟩ = .next ⟨qs, mpptScan m input⟩) ∧
  -- MPPT_SCAN_END (R163)
  (∀ (qs : List Instr) (m₀ : Mach) (input vocMv : Nat),
    input < 6 →
    vinRated vocMv = true →
    let m := m₀
    ∀ d : Nat,
    (getInp m input).scanEndAt = some d →
    let m := advanceTo m d
    let m := modInp m input fun x =>
      { x with scanning := false, scanEndAt := none, vocMv := vocMv, vinMv := vocMv, floorNow := x.foc * vocMv / 1000 }
    exec (.mpptScanEnd input vocMv) ⟨qs, m₀⟩ =
      .next ⟨qs, requestStart (setRef m (48 + input) 3 (getInp m input).floorNow) (48 + input)⟩) ∧
  -- SYS_LOW (R167)
  (∀ (qs : List Instr) (m₀ : Mach) (sysMv : Nat),
    sysRated sysMv = true →
    let m := m₀
    let sys := sysMv
    let m := { m with path := { m.path with sysMv := sys } }
    ¬((m.path.mode ≠ .on && m.path.mode ≠ .diode) || feeding m || m.path.sysMin ≤ sys || m.path.sysLow) →
    let (m, act) := detect m blkStore .sysLow 4 (sec 1)
    ¬(!act) →
    let ran := (List.range 48).filter fun p => (getCv m p).run || (getCv m p).starting
    let m := { m with path := { m.path with sysLow := true, lowRestart := ran } }
    let m := forAll m ran stopRun
    let m := forAll m ran fun m p => modProt m p fun x => { x with hiccupAt := none, prebiasAt := none }
    let m := forAll m (ran.filter fun p => !isBay m p && !(getCv m p).reverse) lowSignal
    let m := stopRun m 54
    exec (.sysLow sysMv) ⟨qs, m₀⟩ = .next ⟨qs, { m with aux := { m.aux with running := false } }⟩) ∧
  -- SYS_RECOVER (R167)
  (∀ (qs : List Instr) (m₀ : Mach) (sysMv : Nat),
    sysRated sysMv = true →
    let m := m₀
    let sys := sysMv
    ¬(!(m.path.sysLow || m.path.restartWait) || sys < m.path.sysFold) →
    let l := m.path.lowRestart
    let w := m.path.warnRestart
    let m := { m with path := { m.path with sysLow := false, restartWait := false, lowRestart := [], warnRestart := []
                                            sysMv := sys } }
    let m := forAll m l fun m p =>
      let m := modPd m p fun x => if x.pe = .hardReset then { x with pe := .startup } else x
      if attachedTypeC m p || isBay m p then requestStart m p else m
    let m := forAll m w fun m k => if k < 48 then portAgain m k else if k < 54 then inputGo m (k - 48) else m
    let m := auxEval m
    exec (.sysRecover sysMv) ⟨qs, m₀⟩ = .next ⟨qs, if m.aux.enable && auxPolicy m then auxGrant m else m⟩) ∧
  -- CABLE_BOOT (R171)
  (∀ (qs : List Instr) (m₀ : Mach) (port vbusMv rp : Nat),
    (port < 48 && rp < 3 : Bool) = true →
    vbusMv ≤ 60000 →
    let m := m₀
    let st := if m.dev.strapsLatched then strapped m.dev.dbp port else port % 2 = 0 || port < 4
    (!m.dev.vpreGood && st && 4750 ≤ vbusMv && vbusMv ≤ 5500 : Bool) = true →
    let (n, m) := draw m
    let m := { m with pwr := { m.pwr with lastWake := 7 }, path := { m.path with bootSink := some port }
                      dev := { m.dev with vbootMv := vbusMv - Config.freeNat n % 151 } }
    exec (.cableBoot port vbusMv rp) ⟨qs, m₀⟩ =
      .next ⟨qs, leaveShip (modPort m port fun x => { x with dead := true, partnerRp := rp, vbsMv := vbusMv }) 7⟩) ∧
  -- BOOT_CAPS_TIMEOUT (R171)
  (∀ (qs : List Instr) (m₀ : Mach) (port : Nat),
    port < 48 →
    let m := m₀
    m.path.bootSink = some port →
    ∀ d : Nat,
    m.path.bootCapsAt = some d →
    let m := advanceTo m d
    let m := { m with path := { m.path with bootCapsAt := none } }
    ¬((getPort m port).partnerRp = 0) →
    let k := port
    let c := getCv m k
    ¬(c.decl.topo = 0 || cnvFenced m k || c.run || m.grd.clkLost ≠ 0 || !m.dev.configApplied) →
    let pend := (List.range (declaredPhases c.decl)).any fun j => (tget c.ph {} j).st = .pending
    let e : Mach :=
      modCv m k fun c => { c with starting := true, parked := false
                                  selftest := if pend then max c.selftest 1 else c.selftest
                                  prot := { c.prot with prebiasTries := 0, prebiasAt := none } }
    exec (.bootCapsTimeout port) ⟨qs, m₀⟩ = .next ⟨qs, e⟩) ∧
  -- BOOT_SINK_LOSS (R172)
  (∀ (qs : List Instr) (m₀ : Mach) (port sysMv vbootMv : Nat) (hold : List Nat),
    port < 48 →
    sysRated sysMv = true →
    let m := m₀
    m.path.bootSink = some port →
    let m := { m with path := { m.path with sysMv := sysMv }, dev := { m.dev with vbootMv := vbootMv } }
    let m := if (getPort m port).tc = .attachedSnk then sinkStop m port 1 4
      else { m with path := { m.path with bootSink := none, bootCapsAt := none } }
    let e : Mach :=
      if sysMv < m.path.sysMin && vbootMv < 4500 && m.dev.vpreGood && !m.dev.resetPhase && !m.dev.warning then
        powerWarning m hold
      else m
    exec (.bootSinkLoss port sysMv vbootMv hold) ⟨qs, m₀⟩ = .next ⟨qs, e⟩) ∧
  -- STORE_REMOVAL (R174)
  (∀ (qs : List Instr) (m : Mach) (detector : Nat) (sysMv vstsMv meanSysMv : Nat) (storeMa : Int),
    detector < 4 →
    (sysRated sysMv && sysRated vstsMv && sysRated meanSysMv : Bool) = true →
    let det := detector
    let sys := sysMv
    let vsts := vstsMv
    let mean := meanSysMv
    let i := storeMa
    let p := m.path
    let x := getChg m 0
    let hit : Bool :=
      if det = 0 then p.mode = .on && chgPermits x && x.vChg + 300 < sys && 10 * i < x.iNow
      else if det = 1 then (p.mode = .on || p.mode = .diode) && (mean + 500 < sys || sys + 500 < mean) && -100 ≤ i && i ≤ 100
      else if det = 2 then true
      else vsts < 2000 || (8000 ≤ vsts && m.sto.tapsRead && m.sto.taps.getD 16 0 - m.sto.taps.getD 0 0 < x.prof.cells * 1000)
    ¬(!p.storePresent || (getBlk m blkStore).fence.isSome || !hit) →
    let e : Mach :=
      match (if det = 1 then maskedBy m .dischargeStep else none) with
      | some o => consequential m blkStore .storeRemoved o
      | none =>
        let (m, act) := detect m blkStore .storeRemoved 5 10000
        if !act then m
        else
          let m := { m with path := { m.path with vstsMv := vsts, sysMv := sys } }
          let m := storeFence m .storeRemoved
          let m := { m with path := { m.path with sysTgt := mean, sysTgtSet := true } }
          let m := modChg m 0 fun x => { x with preT := {}, fastT := {}, expired := false, iNow := 0 }
          let m := ladderApply (journal m .storeRemoved blkStore)
          forAll m ((List.range 6).filter fun j => (getInp m j).scanning) fun m j =>
            let m := modInp m j fun y => { y with scanning := false, scanEndAt := none }
            if inputLive m j && (getInp m j).stopped = 0 then requestStart m (48 + j) else m
    exec (.storeRemoval detector sysMv vstsMv meanSysMv storeMa) ⟨qs, m⟩ = .next ⟨qs, e⟩) ∧
  -- STORE_ACCEPT (R175)
  (∀ (qs : List Instr) (m : Mach) (vstsMv : Nat),
    sysRated vstsMv = true →
    let vsts := vstsMv
    let pr := (getChg m 0).prof
    ¬(!storeJudged m vsts) →
    let e : Mach :=
      if 60000 < vsts || (pr.valid && tapCount m.sto.taps ≠ some pr.cells) then
        let (m, act) := detect m blkStore .storeMismatch 5 10000
        if act then storeFence m .storeMismatch else m
      else
        let tgt := if vsts + 300 < m.path.sysMin then m.path.sysMin else vsts
        let m := { m with path := { m.path with storePresent := true, joining := true, vstsMv := vsts, sysTgt := tgt
                                                sysTgtSet := true } }
        ladderApply (activateStore m)
    exec (.storeAccept vstsMv) ⟨qs, m⟩ = .next ⟨qs, e⟩) ∧
  -- SHIP_INPUT_WAKE (R168)
  (∀ (qs : List Instr) (m₀ : Mach) (input : Nat) (volts : WakeVolts),
    input < 6 →
    (vinRated volts.vinMv && sysRated volts.vstsMv : Bool) = true →
    let m := m₀
    (m.pwr.shipLatch && !m.dev.vpreGood && 3000 < volts.vinMv : Bool) = true →
    let m := leaveShip (modInp m input fun x => { x with vinMv := volts.vinMv }) 4
    let e : Mach :=
      if 8000 ≤ volts.vstsMv then
        { m with path := { m.path with startCkt := true, vstsMv := volts.vstsMv, sysMv := volts.vstsMv } }
      else m
    exec (.shipInputWake input volts) ⟨qs, m₀⟩ = .next ⟨qs, e⟩)

/-- Completion of the charge machine and AUX rows: each of the rows named below, in every state and for all operands that meet its conditions, answers
the next state written out; whatever that expression does not change stands, the queue of waiting commands among it. -/
def Obligations.ChargeEvents : Prop :=
  -- CHG_EVAL (R183)
  (∀ (qs : List Instr) (mc : Mach) (m : Nat) (vMv : Nat) (iMa : Int),
    m < 49 →
    sysRated vMv = true →
    exec (.chgEval m vMv iMa) ⟨qs, mc⟩ = .next ⟨qs, chgEval mc m vMv iMa⟩) ∧
  -- V_CHG_UPDATE (R184)
  (∀ (qs : List Instr) (mc : Mach) (m : Nat) (dMv : Int),
    m < 49 →
    ((getChg mc m).st ≠ .off && holderRuns mc : Bool) = true →
    exec (.vChgUpdate m dMv) ⟨qs, mc⟩ = .next ⟨qs, vChgUpdate mc m dMv⟩) ∧
  -- CHG_TIMER_SECOND (R194)
  (∀ (qs : List Instr) (mc : Mach) (m : Nat) (noFeeder feederIsrcFold : Bool) (iMa : Int) (vMv : Nat),
    m < 49 →
    sysRated vMv = true →
    exec (.chgTimerSecond m noFeeder feederIsrcFold iMa vMv) ⟨qs, mc⟩ =
      .next ⟨qs, chgTimerSecond mc m noFeeder feederIsrcFold iMa vMv⟩) ∧
  -- CHG_TIMER_EXPIRE (R194)
  (∀ (qs : List Instr) (mc : Mach) (m : Nat),
    m < 49 →
    exec (.chgTimerExpire m) ⟨qs, mc⟩ = .next ⟨qs, chgTimerExpire mc m⟩) ∧
  -- CHG_OC (R196)
  (∀ (qs : List Instr) (mc : Mach) (m : Nat) (iMa : Int),
    m < 49 →
    exec (.chgOc m iMa) ⟨qs, mc⟩ = .next ⟨qs, chgOc mc m iMa⟩) ∧
  -- CHG_OC_PERSIST (R196)
  (∀ (qs : List Instr) (m₀ : Mach) (m : Nat) (iMa : Int),
    m < 49 →
    let mc := m₀
    ∀ d : Nat,
    (getChg mc m).ocAt = some d →
    let mc := advanceTo mc d
    exec (.chgOcPersist m iMa) ⟨qs, m₀⟩ = .next ⟨qs, chgOcPersist mc m iMa⟩) ∧
  -- CELL_OV (R197)
  (∀ (qs : List Instr) (mc : Mach) (m cellMv : Nat),
    m < 49 →
    cellMv ≤ 65000 →
    exec (.cellOv m cellMv) ⟨qs, mc⟩ = .next ⟨qs, cellOv mc m cellMv⟩) ∧
  -- CUTOFF (R198)
  (∀ (qs : List Instr) (m₀ : Mach) (cellMv : Nat) (feederBefore feederDuring : Bool) (hold : List Nat),
    let m := m₀
    let cell := cellMv
    let before := feederBefore
    let during := feederDuring
    ¬(feeding m || !m.path.storePresent || (getChg m 0).prof.cut ≤ cell || m.pwr.st = .ship) →
    let m := stopSome m (List.range 48 ++ [54])
    let e : Mach :=
      if before then chgEnter (waitSys m) 0 .check
      else
        let m := powerDownSave m 3 hold
        if during then chgEnter (waitSys m) 0 .check
        else
          let m := note m blkStore .cutoff 6
          enterShip { m with pwr := { m.pwr with cutoff := true } }
    exec (.cutoff cellMv feederBefore feederDuring hold) ⟨qs, m₀⟩ = .next ⟨qs, e⟩) ∧
  -- DSG_OC (R199)
  (∀ (qs : List Instr) (m : Mach) (iMa : Int),
    let i := iMa
    let lim : Int := (getChg m 0).prof.iDsg
    ¬(!m.path.storePresent || !(getChg m 0).prof.valid) →
    let e : Mach :=
      if 2 * lim < -i then
        let (m, act) := detect m blkStore .dsgOc 5 10000
        if act then storeFence (setLive m blkStore .dsgOc 3 false) .dsgOc else m
      else if lim < -i then
        if isLive m blkStore (codeOf .dsgOc) then m
        else setLive (detect m blkStore .dsgOc 3 10000).1 blkStore .dsgOc 3 true
      else setLive m blkStore .dsgOc 3 false
    exec (.dsgOc iMa) ⟨qs, m⟩ = .next ⟨qs, e⟩) ∧
  -- AUX_POLICY_CHANGE (R204)
  (∀ (qs : List Instr) (m : Mach),
    exec .auxPolicyChange ⟨qs, m⟩ = .next ⟨qs, auxEval m⟩) ∧
  -- AUX_HOLD_EXPIRE (R204)
  (∀ (qs : List Instr) (m₀ : Mach),
    let m := m₀
    ∀ d : Nat,
    m.aux.holdAt = some d →
    let m := advanceTo m d
    let e : Mach :=
      if auxPolicy m then { m with aux := { m.aux with holdAt := none } }
      else auxGrant { m with aux := { m.aux with wants := false, holdAt := none } }
    exec .auxHoldExpire ⟨qs, m₀⟩ = .next ⟨qs, e⟩) ∧
  -- CELL_TAP_FAST_LANE (R197)
  (∀ (qs : List Instr) (m : Mach) (taps : List Nat),
    taps.length = 17 →
    taps.all (· ≤ 65000) = true →
    ((getChg m 0).prof.valid && (getBlk m (blkLinkE + 1)).fence.isNone : Bool) = true →
    exec (.cellTapFastLane taps) ⟨qs, m⟩ = .next ⟨qs, cellTapFastLane m taps⟩)

/-- Completion of the Lift rows: each of the rows named below, in every state and for all operands that meet its conditions, answers
the next state written out; whatever that expression does not change stands, the queue of waiting commands among it. -/
def Obligations.LiftEvents : Prop :=
  -- LIFT_CYCLE (R208)
  (∀ (qs : List Instr) (m₀ : Mach) (published : Bool),
    let m := m₀
    ¬(!holderRuns m) →
    let m := match m.lft.cycleAt with
      | some t => advanceTo m t
      | none => m
    let m := donorWatch (bibCheck { m with lft := { m.lft with cycleAt := after m (ms 1) } })
    exec (.liftCycle published) ⟨qs, m₀⟩ =
      .next ⟨qs, if published then liftPublish m else { m with lft := { m.lft with overrun := true } }⟩) ∧
  -- PASS_REQUEST (R216)
  (∀ (qs : List Instr) (m : Mach) (holder mw : Nat),
    holder < 49 →
    (holder = 48 || isBay m holder || (getHold m holder).held : Bool) = true →
    exec (.passRequest holder mw) ⟨qs, m⟩ = .next ⟨qs, passRequest m holder mw⟩) ∧
  -- GRANT_DELIVERY (R208)
  (∀ (qs : List Instr) (m₀ : Mach) (holder : Nat),
    holder < 50 →
    let m := m₀
    let h := holder
    let x := getHold m h
    ¬(!x.deliver) →
    let m := modHold m h fun x => { x with deliver := false, answers := false }
    let e : Mach :=
      if h = 49 then chgApply m 0
      else if h = 48 then auxGrant m
      else if isBay m h then
        if (getBay m h).st = .trickle then
          if (getCv m h).run then setRef m h 1 (trickleRef m h)
          else if 0 < x.grant && !bayHeld m h then requestStart m h
          else m
        else chgApply m (h + 1)
      else if isSource m h then rpAvoid (dcpEval (portGrant m h x.answers) h) h
      else m
    exec (.grantDelivery holder) ⟨qs, m₀⟩ = .next ⟨qs, e⟩) ∧
  -- PASS_EXCESS (R219)
  (∀ (qs : List Instr) (m : Mach) (port mw : Nat),
    port < 48 →
    let p := port
    let h := getHold m p
    let c := getCv m p
    let moving := (getPd m p).pe = .transition || !settled (tget c.ctrl.loops {} 0)
    ¬(!h.held || isBay m p || !c.run || c.reverse || !overGrant h mw || !holderRuns m) →
    ¬(c.ctrl.softStart || moving || c.prot.derateAt.isSome || h.renego) →
    let e : Mach :=
      match maskedBy m (.passExcess p) with
      | some o => consequential m p .passExcess o
      | none => modHold (note m p .passExcess 2) p fun x => { x with meas := some 0 }
    exec (.passExcess port mw) ⟨qs, m⟩ = .next ⟨qs, e⟩) ∧
  -- RECLAIM_HARD_RESET (R218)
  (∀ (qs : List Instr) (m₀ : Mach) (port : Nat),
    port < 48 →
    let m := m₀
    ∀ d : Nat,
    (getHold m port).hardAt = some d →
    let m := advanceTo m d
    exec (.reclaimHardReset port) ⟨qs, m₀⟩ = .next ⟨qs, hardSignal m port⟩) ∧
  -- REST_GRANT_END (R222)
  (∀ (qs : List Instr) (m : Mach) (sLow : Bool),
    ∀ t,
    m.lft.restAt = some t →
    let e : Mach :=
      if sLow then fire m m.lft.restLowAt restAbort
      else
        let m := advanceTo m t
        { m with lft := { m.lft with restAt := none, restLowAt := none }
                 est := { m.est with lastSynth := some m.dev.now, restWaived := false } }
    exec (.restGrantEnd sLow) ⟨qs, m⟩ = .next ⟨qs, e⟩) ∧
  -- EIS_GRANT_END (R223)
  (∀ (qs : List Instr) (mc : Mach) (m : Nat),
    m < 49 →
    exec (.eisGrantEnd m) ⟨qs, mc⟩ = .next ⟨qs, eisGrantEnd mc m⟩)

/-- Completion of the Type-C and moisture rows: each of the rows named below, in every state and for all operands that meet its conditions, answers
the next state written out; whatever that expression does not change stands, the queue of waiting commands among it. -/
def Obligations.TypeCEvents : Prop :=
  -- RD_DETECT (R236)
  (∀ (qs : List Instr) (m : Mach) (port cc : Nat) (ra : Bool),
    (port < 48 && cc < 2 : Bool) = true →
    (!(getPort m port).accessory : Bool) = true →
    exec (.rdDetect port cc ra) ⟨qs, m⟩ = .next ⟨qs, rdDetect m port cc ra⟩) ∧
  -- CC_DEBOUNCE (R236)
  (∀ (qs : List Instr) (m₀ : Mach) (port : Nat),
    port < 48 →
    let m := m₀
    ∀ d : Nat,
    (getPort m port).debounceAt = some d →
    let m := advanceTo m d
    exec (.ccDebounce port) ⟨qs, m₀⟩ = .next ⟨qs, ccDebounce m port⟩) ∧
  -- ATTACHED_SRC (R237)
  (∀ (qs : List Instr) (m : Mach) (port : Nat),
    port < 48 →
    let x := getPort m port
    (x.checkOk && (x.tc = .attachWaitSrc || x.tc = .trySrc || x.tc = .tryWaitSrc) && !m.grd.tsd : Bool) = true →
    exec (.attachedSrc port) ⟨qs, m⟩ = .next ⟨qs, sourceAttach m port⟩) ∧
  -- SOURCE_DETACH (R238)
  (∀ (qs : List Instr) (m : Mach) (port : Nat),
    port < 48 →
    exec (.sourceDetach port) ⟨qs, m⟩ = .next ⟨qs, sourceDetach m port⟩) ∧
  -- SINK_DETACH (R239)
  (∀ (qs : List Instr) (m : Mach) (port vbsMv : Nat) (rpAbsent : Bool),
    port < 48 →
    vbsMv ≤ 60000 →
    exec (.sinkDetach port vbsMv rpAbsent) ⟨qs, m⟩ = .next ⟨qs, sinkDetach m port vbsMv rpAbsent⟩) ∧
  -- SINK_ATTACH (R244)
  (∀ (qs : List Instr) (m : Mach) (port cc rp : Nat),
    (port < 48 && cc < 2 && rp < 3 : Bool) = true →
    ((getPort m port).checkEndAt.isNone) = true →
    exec (.sinkAttach port cc rp) ⟨qs, m⟩ = .next ⟨qs, sinkAttach m port cc rp⟩) ∧
  -- DRP_TOGGLE (R235)
  (∀ (qs : List Instr) (m₀ : Mach) (port : Nat),
    port < 48 →
    let m := m₀
    ∀ d : Nat,
    (getPort m port).toggleAt = some d →
    let m := advanceTo m d
    exec (.drpToggle port) ⟨qs, m₀⟩ = .next ⟨qs, drpToggle m port⟩) ∧
  -- TRY_TIMEOUT (R235)
  (∀ (qs : List Instr) (m₀ : Mach) (port : Nat),
    port < 48 →
    let m := m₀
    ∀ d : Nat,
    (getPort m port).tryAt = some d →
    let m := advanceTo m d
    exec (.tryTimeout port) ⟨qs, m₀⟩ = .next ⟨qs, tryTimeout m port⟩) ∧
  -- ERROR_RECOVERY_END (R235)
  (∀ (qs : List Instr) (m₀ : Mach) (port : Nat),
    port < 48 →
    let m := m₀
    ∀ d : Nat,
    (getPort m port).recoverAt = some d →
    let m := advanceTo m d
    exec (.errorRecoveryEnd port) ⟨qs, m₀⟩ = .next ⟨qs, goUnattached m port⟩) ∧
  -- ACCESSORY_DETECT (R240)
  (∀ (qs : List Instr) (m₀ : Mach) (port : Nat) (present : Bool),
    port < 48 →
    let m := m₀
    let p := port
    ¬(present && !isUnattached (getPort m p)) →
    let m := if present && !(getPort m p).accessory then note m p .accessory 2 else m
    exec (.accessoryDetect port present) ⟨qs, m₀⟩ =
      .next ⟨qs, setLive (modPort m p fun x => { x with accessory := present }) p .accessory 2 present⟩) ∧
  -- VCONN_OC (R242)
  (∀ (qs : List Instr) (m₀ : Mach) (port ma : Nat) (atLimit : Bool),
    port < 48 →
    let m := m₀
    let p := port
    let m := modPort m p fun x => { x with vconnMa := ma }
    ¬(!isSource m p || !(getPort m p).vconn || !(200 < ma || atLimit)) →
    let m := note (modPort m p fun x => { x with vconn := false, vconnOc := true }) p .vconnOc 3
    let m := modPd m p fun x => { x with cable := 0, discAt := none }
    exec (.vconnOc port ma atLimit) ⟨qs, m₀⟩ = .next ⟨qs, if served m p && (getPd m p).contract then eprLeave m p else m⟩) ∧
  -- MOISTURE_CHECK (R244)
  (∀ (qs : List Instr) (m₀ : Mach) (port : Nat),
    port < 48 →
    let m := m₀
    let x := getPort m port
    let may := isUnattached x || x.tc = .moistHold || (x.tc = .bay && bayEmpty m port && !m.ui.washdown)
    (may && x.checkEndAt.isNone : Bool) = true →
    ∀ d : Nat,
    x.checkAt = some d →
    let m := advanceTo m d
    exec (.moistureCheck port) ⟨qs, m₀⟩ = .next ⟨qs, startCheck m port 0⟩) ∧
  -- MOISTURE_CHECK_DONE (R247)
  (∀ (qs : List Instr) (m₀ : Mach) (port : Nat) (pins : List PinMeas),
    port < 48 →
    let m := m₀
    ∀ d : Nat,
    (getPort m port).checkEndAt = some d →
    let m := advanceTo m d
    exec (.moistureCheckDone port pins) ⟨qs, m₀⟩ = .next ⟨qs, moistureCheckDone m port pins⟩) ∧
  -- WASHDOWN_AUTO_EXIT (R251)
  (∀ (qs : List Instr) (m : Mach),
    (m.ui.washdown && washClean m : Bool) = true →
    exec .washdownAutoExit ⟨qs, m⟩ = .next ⟨qs, washLeave (advanceTo m (washDue m)) true⟩) ∧
  -- CC_OVERVOLTAGE (R526)
  (∀ (qs : List Instr) (m₀ : Mach) (port pin mv : Nat),
    (port < 48 && pin < 4 : Bool) = true →
    mv ≤ 60000 →
    let m := m₀
    let p := port
    ¬(mv ≤ 6000 || (getPort m p).pinsOff.contains pin) →
    let m := modPort m p fun x =>
      { x with pinsOff := x.pinsOff ++ [pin], checkEndAt := none, checkOk := false
               checkAt := if x.checkEndAt.isSome then after m (sec 10) else x.checkAt }
    let m := note m p .backdrive 4
    let x := getPort m p
    let e : Mach :=
      match x.tc with
      | .attachedSrc => sourceStop m p 1 4
      | .attachedSnk => sinkStop m p 1 4
      | .bay => modCv (stopRun m p) p fun c => { c with vbg := false }
      | .disabled | .moistHold | .errorRecovery => m
      | _ => goUnattached m p
    exec (.ccOvervoltage port pin mv) ⟨qs, m₀⟩ = .next ⟨qs, e⟩) ∧
  -- CC_PIN_RECONNECT (R526)
  (∀ (qs : List Instr) (m : Mach) (port pin mv : Nat),
    (port < 48 && pin < 4 : Bool) = true →
    mv ≤ 60000 →
    mv < 5500 →
    exec (.ccPinReconnect port pin mv) ⟨qs, m⟩ =
      .next ⟨qs, modPort m port fun x => { x with pinsOff := x.pinsOff.filter fun q => q ≠ pin }⟩)

/-- Completion of the user-interface rows: each of the rows named below, in every state and for all operands that meet its conditions, answers
the next state written out; whatever that expression does not change stands, the queue of waiting commands among it. -/
def Obligations.UserInterfaceEvents : Prop :=
  -- UI_FRAME (R253)
  (∀ (qs : List Instr) (m₀ : Mach) (caps : List Nat),
    caps.length = 48 →
    (caps.all fun c => c ≤ 65535) = true →
    let m := m₀
    (m.dev.tchclk && m.dev.configApplied && m.pwr.st ≠ .standby && m.pwr.st ≠ .ship : Bool) = true →
    let m := toFrame m
    let n := m.ui.frames + 1
    let d := frameDiv m
    let m := { m with ui := { m.ui with frameAt := after m (ms 1), frames := if d ≤ n then 0 else n } }
    ¬(n < d) →
    let m := caps.zipIdx.foldl (fun m x => keyStep m n x.2 x.1) m
    exec (.uiFrame caps) ⟨qs, m₀⟩ = .next ⟨qs, waterCheck (waterCheck m 0) 1⟩) ∧
  -- HOLD_REACHED (R256)
  (∀ (qs : List Instr) (m₀ : Mach) (port : Nat),
    port < 48 →
    let m := m₀
    touchOn m port = true →
    ∀ d : Nat,
    (getKey m port).holdAt = some d →
    let m := advanceTo m d
    let m := modKey (closeWindow m port) port fun k => { k with held := true, holdAt := none }
    exec (.holdReached port) ⟨qs, m₀⟩ = .next ⟨qs, report m port 2 (nowMs m) false⟩) ∧
  -- LONG_HOLD_REACHED (R256)
  (∀ (qs : List Instr) (m₀ : Mach) (port : Nat),
    port < 48 →
    let m := m₀
    touchOn m port = true →
    ∀ d : Nat,
    (getKey m port).longAt = some d →
    let m := advanceTo m d
    exec (.longHoldReached port) ⟨qs, m₀⟩ =
      .next ⟨qs, report (modKey m port fun k => { k with longHeld := true, longAt := none }) port 3 (nowMs m) false⟩) ∧
  -- STUCK (R255)
  (∀ (qs : List Instr) (m₀ : Mach) (port : Nat),
    port < 48 →
    let m := m₀
    touchOn m port = true →
    ∀ d : Nat,
    (getKey m port).stuckAt = some d →
    let m := advanceTo m d
    exec (.stuck port) ⟨qs, m₀⟩ =
      .next ⟨qs, modKey (releaseKey (report m port 6 (nowMs m) false) port) port fun k => { k with seeded := false }⟩) ∧
  -- SERVICE_WINDOW_END (R256)
  (∀ (qs : List Instr) (m₀ : Mach) (port : Nat),
    port < 48 →
    let m := m₀
    ∀ d : Nat,
    (getKey m port).serviceAt = some d →
    let m := advanceTo m d
    exec (.serviceWindowEnd port) ⟨qs, m₀⟩ = .next ⟨qs, closeWindow m port⟩) ∧
  -- BASELINE_RESEED (R255)
  (∀ (qs : List Instr) (m : Mach) (port cap : Nat),
    port < 48 →
    cap ≤ 65535 →
    ((getKey m port).water) = true →
    exec (.baselineReseed port cap) ⟨qs, m⟩ =
      .next ⟨qs, modKey m port fun k => { k with base := cap * 8000, seeded := true, water := false }⟩) ∧
  -- ARM_EXPIRE (R507)
  (∀ (qs : List Instr) (m₀ : Mach),
    let m := m₀
    ∀ d : Nat,
    m.svc.armAt = some d →
    let m := advanceTo m d
    exec .armExpire ⟨qs, m₀⟩ =
      .next ⟨qs, { m with svc := { m.svc with armPort := none, armAt := none, swapAt := none, noPdAt := none, swapTries := 0 } }⟩)

/-- Completion of the PD message rows: each of the rows named below, in every state and for all operands that meet its conditions, answers
the next state written out; whatever that expression does not change stands, the queue of waiting commands among it. -/
def Obligations.PdMessages : Prop :=
  -- PD_SOURCE_CAPABILITIES_RX (R277)
  (∀ (qs : List Instr) (m₀ : Mach) (port : Nat) (objs : List PdObj) (epr eprCapable rev2 : Bool),
    port < 48 →
    let m := m₀
    (attachedTypeC m port && served m port : Bool) = true →
    ¬(m.svc.ptbs.any fun b => b.kind = 5 && b.target = port && 0 < b.remaining) →
    m.mbx.eccPd.contains (tget m.serves 0 port) = false →
    frozen m port = false →
    let p := port
    let m := rxd m p
    ¬(!isSink m p || inTransition (getPd m p) || objs.isEmpty || 260 < 4 * objs.length) →
    let m := modPd m p fun x =>
      { x with partnerCaps := objs, partnerEpr := eprCapable && !rev2, hardCount := 0, rev := if rev2 then 2 else 3 }
    let m := if m.path.bootSink = some p then { m with path := { m.path with bootCapsAt := none } } else m
    let e : Mach := requestOut m p (snkSelect m p objs epr) false
    exec (.pdSourceCapabilitiesRx port objs epr eprCapable rev2) ⟨qs, m₀⟩ = .next ⟨qs, dcpEval (rpAvoid e port) port⟩) ∧
  -- PD_REQUEST_RX (R271)
  (∀ (qs : List Instr) (m₀ : Mach) (port : Nat) (req : PdReq),
    port < 48 →
    let m := m₀
    (attachedTypeC m port && served m port : Bool) = true →
    ¬(m.svc.ptbs.any fun b => b.kind = 5 && b.target = port && 0 < b.remaining) →
    m.mbx.eccPd.contains (tget m.serves 0 port) = false →
    frozen m port = false →
    let p := port
    let r := req
    let m := rxd m p
    let x := getPd m p
    ¬(!isSource m p) →
    let e : Mach :=
      if x.pe = .transition then hardSend m p
      else if x.pe ≠ .negotiate && x.pe ≠ .ready then m
      else
        let m := modPd m p fun x => { x with
          senderAt := none, hardCount := 0, rev := if r.rev2 then 2 else 3, ppsAt := x.ppsAt.map fun _ => m.dev.now + tPPSTimeout }
        let x := getPd m p
        match reqObj x r with
        | none => rejectReq m p
        | some o =>
          if !reqOk x r || (r.epr && !x.epr) || (ptbLow m && 5000 < reqMv o r) then rejectReq m p
          else passRequest (modPd m p fun x => { x with pendReq := some r }) p (reqMw o r)
    exec (.pdRequestRx port req) ⟨qs, m₀⟩ = .next ⟨qs, dcpEval (rpAvoid e port) port⟩) ∧
  -- PD_ACCEPT_RX (R278)
  (∀ (qs : List Instr) (m : Mach) (port : Nat) (sameRole : Bool),
    port < 48 →
    (attachedTypeC m port && served m port : Bool) = true →
    ¬(m.svc.ptbs.any fun b => b.kind = 5 && b.target = port && 0 < b.remaining) →
    m.mbx.eccPd.contains (tget m.serves 0 port) = false →
    frozen m port = false →
    let e : Mach := acceptRoleRx m port sameRole
    exec (.pdAcceptRx port sameRole) ⟨qs, m⟩ = .next ⟨qs, dcpEval (rpAvoid e port) port⟩) ∧
  -- PD_REJECT_RX (R266)
  (∀ (qs : List Instr) (m : Mach) (port : Nat) (wait : Bool),
    port < 48 →
    (attachedTypeC m port && served m port : Bool) = true →
    ¬(m.svc.ptbs.any fun b => b.kind = 5 && b.target = port && 0 < b.remaining) →
    m.mbx.eccPd.contains (tget m.serves 0 port) = false →
    frozen m port = false →
    let e : Mach := rejectWaitRx m port wait
    exec (.pdRejectRx port wait) ⟨qs, m⟩ = .next ⟨qs, dcpEval (rpAvoid e port) port⟩) ∧
  -- PD_PS_RDY_RX (R278)
  (∀ (qs : List Instr) (m₀ : Mach) (port : Nat),
    port < 48 →
    let m := m₀
    (attachedTypeC m port && served m port : Bool) = true →
    ¬(m.svc.ptbs.any fun b => b.kind = 5 && b.target = port && 0 < b.remaining) →
    m.mbx.eccPd.contains (tget m.serves 0 port) = false →
    frozen m port = false →
    let p := port
    let m := rxd m p
    let x := getPd m p
    ¬(x.pe ≠ .snkTransition) →
    ∀ r,
    x.req = some r →
    let o := snkObj x r
    let v := reqMv o r
    let m := modPd m p fun x =>
      { x with contract := true, pe := .snkReady, psTransAt := none, kind := kindOf o, pos := r.pos, opMa := r.ma
               mismatch := r.mismatch, vTarget := v, ilim := r.ma, hardCount := 0
               ppsRepAt := if kindOf o = 2 then after m tPPSRequest else none }
    let m := setRef (setRef m p 2 r.ma) p 3 (if 5000 < v then v * 9 / 10 else 4400)
    let m := if m.path.bootSink = some p && !(getCv m p).run then requestStart m p else m
    let m := if x.snkEpr && x.partnerEpr && !x.epr && !(getPort m p).damp5 then pdTell m p .eprEnter else m
    let e : Mach := stavskaKick (reRequestDue m p) p
    exec (.pdPsRdyRx port) ⟨qs, m₀⟩ = .next ⟨qs, dcpEval (rpAvoid e port) port⟩) ∧
  -- PD_SOFT_RESET_RX (R266)
  (∀ (qs : List Instr) (m : Mach) (port : Nat),
    port < 48 →
    (attachedTypeC m port && served m port : Bool) = true →
    ¬(m.svc.ptbs.any fun b => b.kind = 5 && b.target = port && 0 < b.remaining) →
    m.mbx.eccPd.contains (tget m.serves 0 port) = false →
    frozen m port = false →
    let e : Mach := softResetRx m port
    exec (.pdSoftResetRx port) ⟨qs, m⟩ = .next ⟨qs, dcpEval (rpAvoid e port) port⟩) ∧
  -- PD_HARD_RESET (R281)
  (∀ (qs : List Instr) (m : Mach) (port : Nat) (sent : Bool),
    port < 48 →
    (isSource m port && (getPd m port).pe ≠ .hardReset : Bool) = true →
    exec (.pdHardReset port sent) ⟨qs, m⟩ =
      .next ⟨qs, if sent then hardSend m port else if frozen m port then holdRx m port .hardReset else hardRx m port⟩) ∧
  -- PD_DR_SWAP_RX (R282)
  (∀ (qs : List Instr) (m : Mach) (port : Nat),
    port < 48 →
    (attachedTypeC m port && served m port : Bool) = true →
    ¬(m.svc.ptbs.any fun b => b.kind = 5 && b.target = port && 0 < b.remaining) →
    m.mbx.eccPd.contains (tget m.serves 0 port) = false →
    frozen m port = false →
    let e : Mach := drSwapRx m port
    exec (.pdDrSwapRx port) ⟨qs, m⟩ = .next ⟨qs, dcpEval (rpAvoid e port) port⟩) ∧
  -- PD_EPR_MODE_RX (R276)
  (∀ (qs : List Instr) (m : Mach) (port : Nat) (enter : Bool),
    port < 48 →
    (attachedTypeC m port && served m port : Bool) = true →
    ¬(m.svc.ptbs.any fun b => b.kind = 5 && b.target = port && 0 < b.remaining) →
    m.mbx.eccPd.contains (tget m.serves 0 port) = false →
    frozen m port = false →
    let e : Mach := eprModeRx m port enter
    exec (.pdEprModeRx port enter) ⟨qs, m⟩ = .next ⟨qs, dcpEval (rpAvoid e port) port⟩) ∧
  -- PD_EPR_KEEPALIVE_RX (R280)
  (∀ (qs : List Instr) (m : Mach) (port : Nat),
    port < 48 →
    (attachedTypeC m port && served m port : Bool) = true →
    ¬(m.svc.ptbs.any fun b => b.kind = 5 && b.target = port && 0 < b.remaining) →
    m.mbx.eccPd.contains (tget m.serves 0 port) = false →
    frozen m port = false →
    let e : Mach := keepaliveRx m port
    exec (.pdEprKeepaliveRx port) ⟨qs, m⟩ = .next ⟨qs, dcpEval (rpAvoid e port) port⟩) ∧
  -- PD_GET_CAP_RX (R266)
  (∀ (qs : List Instr) (m : Mach) (port : Nat) (sinkCap epr : Bool),
    port < 48 →
    (attachedTypeC m port && served m port : Bool) = true →
    ¬(m.svc.ptbs.any fun b => b.kind = 5 && b.target = port && 0 < b.remaining) →
    m.mbx.eccPd.contains (tget m.serves 0 port) = false →
    frozen m port = false →
    let e : Mach := getCapRx m port sinkCap
    exec (.pdGetCapRx port sinkCap epr) ⟨qs, m⟩ = .next ⟨qs, dcpEval (rpAvoid e port) port⟩) ∧
  -- PD_INFO_QUERY_RX (R266)
  (∀ (qs : List Instr) (m : Mach) (port : Nat) (q : PdQuery),
    port < 48 →
    (attachedTypeC m port && served m port : Bool) = true →
    ¬(m.svc.ptbs.any fun b => b.kind = 5 && b.target = port && 0 < b.remaining) →
    m.mbx.eccPd.contains (tget m.serves 0 port) = false →
    frozen m port = false →
    let e : Mach := infoQueryRx m port q
    exec (.pdInfoQueryRx port q) ⟨qs, m⟩ = .next ⟨qs, dcpEval (rpAvoid e port) port⟩) ∧
  -- PD_UNSUPPORTED_RX (R266)
  (∀ (qs : List Instr) (m : Mach) (port : Nat),
    port < 48 →
    (attachedTypeC m port && served m port : Bool) = true →
    ¬(m.svc.ptbs.any fun b => b.kind = 5 && b.target = port && 0 < b.remaining) →
    m.mbx.eccPd.contains (tget m.serves 0 port) = false →
    frozen m port = false →
    let e : Mach := unsupportedRx m port
    exec (.pdUnsupportedRx port) ⟨qs, m⟩ = .next ⟨qs, dcpEval (rpAvoid e port) port⟩) ∧
  -- PD_ALERT_RX (R266)
  (∀ (qs : List Instr) (m : Mach) (port bits : Nat),
    port < 48 →
    (attachedTypeC m port && served m port : Bool) = true →
    ¬(m.svc.ptbs.any fun b => b.kind = 5 && b.target = port && 0 < b.remaining) →
    m.mbx.eccPd.contains (tget m.serves 0 port) = false →
    frozen m port = false →
    let e : Mach := alertRx m port bits
    exec (.pdAlertRx port bits) ⟨qs, m⟩ = .next ⟨qs, dcpEval (rpAvoid e port) port⟩) ∧
  -- PD_VENDOR_DEFINED_RX (R266)
  (∀ (qs : List Instr) (m : Mach) (port : Nat) (discoverIdentity : Bool),
    port < 48 →
    (attachedTypeC m port && served m port : Bool) = true →
    ¬(m.svc.ptbs.any fun b => b.kind = 5 && b.target = port && 0 < b.remaining) →
    m.mbx.eccPd.contains (tget m.serves 0 port) = false →
    frozen m port = false →
    let e : Mach := vendorRx m port discoverIdentity
    exec (.pdVendorDefinedRx port discoverIdentity) ⟨qs, m⟩ = .next ⟨qs, dcpEval (rpAvoid e port) port⟩) ∧
  -- PD_CABLE_IDENTITY_RX (R275)
  (∀ (qs : List Instr) (m₀ : Mach) (port ma vmaxMv : Nat) (eprCable : Bool),
    port < 48 →
    let m := m₀
    (attachedTypeC m port && served m port : Bool) = true →
    let p := port
    let vmax := vmaxMv
    let epr := eprCable
    ¬(!isSource m p || !(getPort m p).vconn) →
    let old := (iCab m p, eprCapable m p)
    let c := if epr && 5000 ≤ ma && 50000 ≤ vmax then 3 else if 5000 ≤ ma then 2 else 1
    let m := modPd m p fun x => { x with cable := c, discAt := none }
    ¬((getPd m p).offer.isEmpty || (iCab m p, eprCapable m p) = old) →
    let e : Mach :=
      if inTransition (getPd m p) || (getPd m p).pendReq.isSome then modPd m p fun x => { x with capsAt := some m.dev.now }
      else sendCaps m p none
    exec (.pdCableIdentityRx port ma vmaxMv eprCable) ⟨qs, m₀⟩ = .next ⟨qs, dcpEval (rpAvoid e port) port⟩) ∧
  -- PD_BIST_RX (R266)
  (∀ (qs : List Instr) (m : Mach) (port mode vbusMv : Nat),
    port < 48 →
    (attachedTypeC m port && served m port : Bool) = true →
    ¬(m.svc.ptbs.any fun b => b.kind = 5 && b.target = port && 0 < b.remaining) →
    m.mbx.eccPd.contains (tget m.serves 0 port) = false →
    frozen m port = false →
    let e : Mach := bistRx m port mode vbusMv
    exec (.pdBistRx port mode vbusMv) ⟨qs, m⟩ = .next ⟨qs, dcpEval (rpAvoid e port) port⟩) ∧
  -- PD_SINK_CAPABILITIES_RX (R266)
  (∀ (qs : List Instr) (m : Mach) (port : Nat) (objs : List PdObj),
    port < 48 →
    (attachedTypeC m port && served m port : Bool) = true →
    ¬(m.svc.ptbs.any fun b => b.kind = 5 && b.target = port && 0 < b.remaining) →
    m.mbx.eccPd.contains (tget m.serves 0 port) = false →
    frozen m port = false →
    let e : Mach := sinkCapsRx m port objs
    exec (.pdSinkCapabilitiesRx port objs) ⟨qs, m⟩ = .next ⟨qs, dcpEval (rpAvoid e port) port⟩) ∧
  -- CABLE_RESET_RX (R264)
  (∀ (qs : List Instr) (m : Mach) (port : Nat),
    port < 48 →
    exec (.cableResetRx port) ⟨qs, m⟩ = .next ⟨qs, modPd m port fun x => { x with msgIdTx := 0, msgIdRx := none }⟩)

/-- Completion of the PD transmission, transition and capability timers: each of the rows named below, in every state and for all operands that meet its conditions, answers
the next state written out; whatever that expression does not change stands, the queue of waiting commands among it. -/
def Obligations.PdTransmissionTimers : Prop :=
  -- PD_RETRANSMIT (R264)
  (∀ (qs : List Instr) (m₀ : Mach) (port : Nat),
    port < 48 →
    let m := m₀
    let x := getPd m port
    x.retries < nRetryCount x →
    ∀ d : Nat,
    x.txAt = some d →
    let m := advanceTo m d
    exec (.pdRetransmit port) ⟨qs, m₀⟩ =
      .next ⟨qs, modPd m port fun x => { x with retries := x.retries + 1, txAt := after m tReceive }⟩) ∧
  -- PD_TX_FAIL (R265)
  (∀ (qs : List Instr) (m : Mach) (port : Nat),
    port < 48 →
    (attachedTypeC m port && served m port : Bool) = true →
    let x := getPd m port
    (x.txAt.isSome && nRetryCount x ≤ x.retries : Bool) = true →
    let e : Mach := pdTimeout m port fun m => txFail m port
    exec (.pdTxFail port) ⟨qs, m⟩ = .next ⟨qs, dcpEval (rpAvoid e port) port⟩) ∧
  -- SENDER_RESPONSE_TIMEOUT (R265)
  (∀ (qs : List Instr) (m₀ : Mach) (port : Nat),
    port < 48 →
    let m := m₀
    (attachedTypeC m port && served m port : Bool) = true →
    ∀ d : Nat,
    (getPd m port).senderAt = some d →
    let m := advanceTo m d
    let e : Mach :=
      pdTimeout (modPd m port fun x => { x with senderAt := none }) port fun m =>
        if (getPd m port).drPending then drRefused m port else hardSend m port
    exec (.senderResponseTimeout port) ⟨qs, m₀⟩ = .next ⟨qs, dcpEval (rpAvoid e port) port⟩) ∧
  -- PS_TRANSITION_TIMEOUT (R278)
  (∀ (qs : List Instr) (m₀ : Mach) (port : Nat),
    port < 48 →
    let m := m₀
    (attachedTypeC m port && served m port : Bool) = true →
    isSink m port = true →
    ∀ d : Nat,
    (getPd m port).psTransAt = some d →
    let m := advanceTo m d
    let e : Mach := pdTimeout (modPd m port fun x => { x with psTransAt := none }) port fun m => hardSend m port
    exec (.psTransitionTimeout port) ⟨qs, m₀⟩ = .next ⟨qs, dcpEval (rpAvoid e port) port⟩) ∧
  -- SRC_TRANSITION_START (R274)
  (∀ (qs : List Instr) (m₀ : Mach) (port : Nat),
    port < 48 →
    let m := m₀
    (attachedTypeC m port && served m port : Bool) = true →
    isSource m port = true →
    ∀ d : Nat,
    (getPd m port).transAt = some d →
    let m := advanceTo m d
    let p := port
    let x := getPd m p
    ∀ r,
    x.req = some r →
    let o := (reqObj x r).getD .zero
    let v := reqMv o r
    let lim := contractLimit m p o r
    let same := x.vTarget = v
    let m := setRef (setRef m p 1 lim) p 0 v
    let m := modPd m p fun x => { x with transAt := none, vTarget := v, ilim := lim }
    let e : Mach := if same then psRdy m p else m
    exec (.srcTransitionStart port) ⟨qs, m₀⟩ = .next ⟨qs, dcpEval (rpAvoid e port) port⟩) ∧
  -- TRANSITION_SETTLED (R274)
  (∀ (qs : List Instr) (m : Mach) (port vcsMv : Nat),
    port < 48 →
    vcsMv ≤ 60000 →
    let x := getPd m port
    let l := tget (getCv m port).ctrl.loops {} 0
    (isSource m port && x.pe = .transition && x.transAt.isNone && l.ref = fx x.vTarget && settled l
        && 97 * x.vTarget ≤ 100 * vcsMv && 100 * vcsMv ≤ 103 * x.vTarget : Bool) = true →
    exec (.transitionSettled port vcsMv) ⟨qs, m⟩ = .next ⟨qs, dcpEval (rpAvoid (psRdy m port) port) port⟩) ∧
  -- SEND_SOURCE_CAP (R268)
  (∀ (qs : List Instr) (m₀ : Mach) (port : Nat),
    port < 48 →
    let m := m₀
    (attachedTypeC m port && served m port : Bool) = true →
    let x := getPd m port
    (isSource m port && !inTransition x && (x.pe = .startup || x.pe = .negotiate || x.pe = .ready) : Bool) = true →
    ∀ d : Nat,
    x.capsAt = some d →
    let m := advanceTo m d
    let e : Mach :=
      if nCapsCount ≤ x.capsTries && !x.contract then modPd m port fun x => { x with pe := .noPd, capsAt := none }
      else
        let on := vconnOn m port
        let m := modPort m port fun y => { y with vconn := on }
        sendCaps (modPd m port fun x => { x with capsTries := x.capsTries + 1 }) port none
    exec (.sendSourceCap port) ⟨qs, m₀⟩ = .next ⟨qs, dcpEval (rpAvoid e port) port⟩) ∧
  -- NO_RESPONSE_TIMEOUT (R268)
  (∀ (qs : List Instr) (m₀ : Mach) (port : Nat),
    port < 48 →
    let m := m₀
    (attachedTypeC m port && served m port : Bool) = true →
    ∀ d : Nat,
    (getPd m port).noRespAt = some d →
    let m := advanceTo m d
    let e : Mach := pdTimeout (modPd m port fun x => { x with noRespAt := none }) port fun m => hardSend m port
    exec (.noResponseTimeout port) ⟨qs, m₀⟩ = .next ⟨qs, dcpEval (rpAvoid e port) port⟩) ∧
  -- SINK_EPR_KEEPALIVE (R279)
  (∀ (qs : List Instr) (m₀ : Mach) (port : Nat),
    port < 48 →
    let m := m₀
    (attachedTypeC m port && served m port : Bool) = true →
    (isSink m port && (getPd m port).epr : Bool) = true →
    ∀ d : Nat,
    (getPd m port).keepAliveAt = some d →
    let m := advanceTo m d
    let e : Mach := pdTell m port .keepAlive
    exec (.sinkEprKeepalive port) ⟨qs, m₀⟩ = .next ⟨qs, dcpEval (rpAvoid e port) port⟩) ∧
  -- PPS_REQUEST_REPEAT (R279)
  (∀ (qs : List Instr) (m₀ : Mach) (port : Nat),
    port < 48 →
    let m := m₀
    (attachedTypeC m port && served m port : Bool) = true →
    (isSink m port && (getPd m port).kind = 2 : Bool) = true →
    ∀ d : Nat,
    (getPd m port).ppsRepAt = some d →
    let m := advanceTo m d
    let m := modPd m port fun x => { x with ppsRepAt := after m tPPSRequest }
    let e : Mach :=
      match (getPd m port).req with
      | some r => requestOut m port r true
      | none => m
    exec (.ppsRequestRepeat port) ⟨qs, m₀⟩ = .next ⟨qs, dcpEval (rpAvoid e port) port⟩)

/-- Completion of the PD keep-alive, recovery, Hard Reset and migration rows: each of the rows named below, in every state and for all operands that meet its conditions, answers
the next state written out; whatever that expression does not change stands, the queue of waiting commands among it. -/
def Obligations.PdRecoveryEvents : Prop :=
  -- SOURCE_EPR_KEEPALIVE_TIMEOUT (R280)
  (∀ (qs : List Instr) (m₀ : Mach) (port : Nat),
    port < 48 →
    let m := m₀
    (attachedTypeC m port && served m port : Bool) = true →
    (isSource m port && (getPd m port).epr : Bool) = true →
    ∀ d : Nat,
    (getPd m port).srcKeepAt = some d →
    let m := advanceTo m d
    let e : Mach := pdTimeout (modPd m port fun x => { x with srcKeepAt := none }) port fun m => hardSend m port
    exec (.sourceEprKeepaliveTimeout port) ⟨qs, m₀⟩ = .next ⟨qs, dcpEval (rpAvoid e port) port⟩) ∧
  -- PPS_TIMEOUT (R280)
  (∀ (qs : List Instr) (m₀ : Mach) (port : Nat),
    port < 48 →
    let m := m₀
    (attachedTypeC m port && served m port : Bool) = true →
    (isSource m port && (getPd m port).contract : Bool) = true →
    ∀ d : Nat,
    (getPd m port).ppsAt = some d →
    let m := advanceTo m d
    let e : Mach := pdTimeout (modPd m port fun x => { x with ppsAt := none }) port fun m => hardSend m port
    exec (.ppsTimeout port) ⟨qs, m₀⟩ = .next ⟨qs, dcpEval (rpAvoid e port) port⟩) ∧
  -- DISCOVER_IDENTITY_RETRY (R275)
  (∀ (qs : List Instr) (m₀ : Mach) (port : Nat),
    port < 48 →
    let m := m₀
    (attachedTypeC m port && served m port : Bool) = true →
    ∀ d : Nat,
    (getPd m port).discAt = some d →
    let m := advanceTo m d
    let e : Mach := discover (modPd m port fun x => { x with discAt := none }) port
    exec (.discoverIdentityRetry port) ⟨qs, m₀⟩ = .next ⟨qs, dcpEval (rpAvoid e port) port⟩) ∧
  -- HARD_RESET_STOP (R281)
  (∀ (qs : List Instr) (m₀ : Mach) (port : Nat),
    port < 48 →
    let m := m₀
    ∀ d : Nat,
    (getPd m port).hrStopAt = some d →
    let m := advanceTo m d
    let m := modPort (stopRun m port) port fun x => { x with vconn := false, dcp := false, rp := 0 }
    exec (.hardResetStop port) ⟨qs, m₀⟩ =
      .next ⟨qs, modPd m port fun x => { x with hrStopAt := none, recoverAt := after m tSrcRecover }⟩) ∧
  -- SRC_RECOVER (R281)
  (∀ (qs : List Instr) (m₀ : Mach) (port : Nat),
    port < 48 →
    let m := m₀
    ∀ d : Nat,
    (getPd m port).recoverAt = some d →
    let m := advanceTo m d
    let m := modPd m port fun x => { x with recoverAt := none }
    let e : Mach :=
      if m.path.sysLow || m.path.restartWait then
        { m with path := { m.path with lowRestart := m.path.lowRestart.filter (fun q => q ≠ port) ++ [port] } }
      else
        let m := match (getPd m port).rstSeq with
          | some q => modPd (closeEntry m q 0 0) port fun x => { x with rstSeq := none }
          | none => m
        let on := vconnOn m port
        requestStart (modPd (modPort m port fun x => { x with vconn := on }) port fun x => { x with pe := .startup }) port
    exec (.srcRecover port) ⟨qs, m₀⟩ = .next ⟨qs, e⟩) ∧
  -- PPS_UNDERVOLTAGE (R273)
  (∀ (qs : List Instr) (m : Mach) (port vcsMv : Nat),
    port < 48 →
    vcsMv ≤ 60000 →
    let x := getPd m port
    (isSource m port && x.contract && x.kind = 2 && (getCv m port).ctrl.sel = 1 && vcsMv < 3300 && served m port : Bool) = true →
    exec (.ppsUndervoltage port vcsMv) ⟨qs, m⟩ = .next ⟨qs, hardSend m port⟩) ∧
  -- PD_MIGRATION (R290)
  (∀ (qs : List Instr) (m : Mach) (port : Nat),
    port < 48 →
    let p := port
    let src := tget m.serves 0 p
    ∀ k,
    (getPd m p).migTo = some k →
    ¬(!atBoundary m p) →
    let e : Mach :=
      if !coreOk m k || 12 ≤ (corePorts m k).length then migrationLeft m p
      else thaw (migrationDone (takeOver m p k) src) p
    exec (.pdMigration port) ⟨qs, m⟩ = .next ⟨qs, e⟩) ∧
  -- MIGRATION_ABANDON (R290)
  (∀ (qs : List Instr) (m₀ : Mach) (port : Nat),
    port < 48 →
    let m := m₀
    ∀ d : Nat,
    (getPd m port).migAt = some d →
    let m := advanceTo m d
    exec (.migrationAbandon port) ⟨qs, m₀⟩ = .next ⟨qs, migrationLeft m port⟩) ∧
  -- PD_CORE_FENCE (R291)
  (∀ (qs : List Instr) (m : Mach) (core : Nat),
    core < 8 →
    let e : Mach :=
      if ((getBlk m (0x70 + core)).fence).isSome then movePorts m core
      else
        let (m, act) := detect m (0x70 + core) .exception 5 (ms 10)
        if !act then m
        else
          let m := if m.upd.kind = 2 && m.upd.st = .probation && m.upd.coresDone.getLast? = some core then
              { m with upd := { m.upd with step := 9 } } else m
          coreFence m core (codeOf .exception)
    exec (.pdCoreFence core) ⟨qs, m⟩ = .next ⟨qs, e⟩) ∧
  -- SINK_HARD_RESET (R278)
  (∀ (qs : List Instr) (m : Mach) (port : Nat),
    port < 48 →
    isSink m port = true →
    exec (.sinkHardReset port) ⟨qs, m⟩ =
      .next ⟨qs, if frozen m port then holdRx m port .sinkHardReset else sinkHardRx m port⟩) ∧
  -- SINK_VBUS_RESTORED (R278)
  (∀ (qs : List Instr) (m : Mach) (port vbsMv : Nat),
    port < 48 →
    vbsMv ≤ 60000 →
    (isSink m port && (getPd m port).snkHrAt.isSome : Bool) = true →
    let e : Mach :=
      if within vbsMv 4750 5500 then sinkRestored m port vbsMv
      else fire m (getPd m port).snkHrAt fun m => sinkRestored m port vbsMv
    exec (.sinkVbusRestored port vbsMv) ⟨qs, m⟩ = .next ⟨qs, e⟩) ∧
  -- SINK_RP_CHANGE (R283)
  (∀ (qs : List Instr) (m₀ : Mach) (port : Nat) (txOk : Bool),
    port < 48 →
    let m := m₀
    isSink m port = true →
    let p := port
    let ok := txOk
    let w := (getPd m p).waiting
    let m := modPort m p fun y => { y with partnerRp := if ok then 2 else 1 }
    let m := modPd m p fun x => { x with txOk := ok, waiting := if ok then none else x.waiting }
    ¬(!ok) →
    let e : Mach :=
      match w with
        | some (.request r) => requestOut m p r true
        | some .drSwap => drSwapOut m p (getPd m p).drToUfp
        | _ => m
    exec (.sinkRpChange port txOk) ⟨qs, m₀⟩ = .next ⟨qs, e⟩)

/-- Completion of the bay rows: each of the rows named below, in every state and for all operands that meet its conditions, answers
the next state written out; whatever that expression does not change stands, the queue of waiting commands among it. -/
def Obligations.BayEvents : Prop :=
  -- BAY_ID_READ (R301)
  (∀ (qs : List Instr) (m : Mach) (port cc1Mv : Nat),
    port < 48 →
    cc1Mv ≤ 5500 →
    let st := (getBay m port).st
    (isBay m port && m.dev.configApplied && st ≠ .link && st ≠ .verify && st ≠ .trickle && st ≠ .charging : Bool) = true →
    exec (.bayIdRead port cc1Mv) ⟨qs, m⟩ = .next ⟨qs, bayIdRead m port cc1Mv⟩) ∧
  -- PACK_INSERT (R301)
  (∀ (qs : List Instr) (m₀ : Mach) (port : Nat),
    port < 48 →
    let m := m₀
    ∀ d : Nat,
    (getBay m port).insertAt = some d →
    let m := advanceTo m d
    let e : Mach :=
      bayAttempt (modBay m port fun b =>
        { b with insertAt := none, insertedAt := m.dev.now, inserts := wrap32 (b.inserts + 1), attempts := 0, failed := 0
                 verdict := 0, linkErr := 0, keyIdx := 0xFF, authMs := 0 }) port
    exec (.packInsert port) ⟨qs, m₀⟩ = .next ⟨qs, e⟩) ∧
  -- PACK_REMOVAL (R315)
  (∀ (qs : List Instr) (m₀ : Mach) (port detector vbsMv iMa : Nat),
    (port < 48 && detector < 3 : Bool) = true →
    vbsMv ≤ 60000 →
    let m := m₀
    isBay m port = true →
    let p := port
    let det := detector
    let vbs := vbsMv
    let i := iMa
    let x := getChg m (p + 1)
    let hit : Bool := if det = 0 then true
      else if det = 1 then (getCv m p).run && (getCv m p).vbg && chgPermits x && x.vChg + 300 < vbs && 10 * i < x.iNow
      else vbs < 2000
    ¬(!packPresent m p || !hit) →
    let m := modBay m p fun b => { b with lateId := if det = 0 then b.lateId else wrap32 (b.lateId + 1)
                                          idMv := if det = 0 then 2500 else b.idMv }
    exec (.packRemoval port detector vbsMv iMa) ⟨qs, m₀⟩ = .next ⟨qs, journal (bayGone m p) .cmd p⟩) ∧
  -- BAY_LINK_REPLY (R304)
  (∀ (qs : List Instr) (m : Mach) (port type : Nat) (payload : List Nat) (crcOk : Bool),
    port < 48 →
    (isBay m port && (getBay m port).reqType ≠ 0 : Bool) = true →
    exec (.bayLinkReply port type payload crcOk) ⟨qs, m⟩ =
      .next ⟨qs, bayLinkReply m port type (payload.map (BitVec.ofNat 8)) crcOk⟩) ∧
  -- BAY_REPLY_TIMEOUT (R305)
  (∀ (qs : List Instr) (m₀ : Mach) (port : Nat),
    port < 48 →
    let m := m₀
    ∀ d : Nat,
    (getBay m port).replyAt = some d →
    let m := advanceTo m d
    exec (.bayReplyTimeout port) ⟨qs, m₀⟩ = .next ⟨qs, linkFail m port⟩) ∧
  -- AUTH_VERDICT (R308)
  (∀ (qs : List Instr) (m₀ : Mach) (port : Nat),
    port < 48 →
    let m := m₀
    ∀ d : Nat,
    (getBay m port).verdictAt = some d →
    let m := advanceTo m d
    exec (.authVerdict port) ⟨qs, m₀⟩ = .next ⟨qs, authVerdict m port⟩) ∧
  -- AUTH_RETRY (R309)
  (∀ (qs : List Instr) (m₀ : Mach) (port : Nat),
    port < 48 →
    let m := m₀
    ∀ d : Nat,
    (getBay m port).retryAt = some d →
    let m := advanceTo m d
    exec (.authRetry port) ⟨qs, m₀⟩ = .next ⟨qs, bayAttempt m port⟩) ∧
  -- BAY_STATUS_POLL (R306)
  (∀ (qs : List Instr) (m₀ : Mach) (port : Nat),
    port < 48 →
    let m := m₀
    ∀ d : Nat,
    (getBay m port).pollAt = some d →
    let m := advanceTo m d
    let m := modBay m port fun b => { b with pollAt := if b.st = .charging then after m (sec 1) else none }
    exec (.bayStatusPoll port) ⟨qs, m₀⟩ =
      .next ⟨qs, if (getBay m port).st = .charging && (getBay m port).reqType = 0 then bayAsk m port 4 else m⟩) ∧
  -- TRICKLE_RETRY (R311)
  (∀ (qs : List Instr) (m₀ : Mach) (port : Nat),
    port < 48 →
    let m := m₀
    ∀ d : Nat,
    (getBay m port).trickleTryAt = some d →
    let m := advanceTo m d
    let m := modBay m port fun b => { b with trickleTryAt := after m (sec 10) }
    exec (.trickleRetry port) ⟨qs, m₀⟩ =
      .next ⟨qs, if (getBay m port).reqType = 0 && (getBay m port).verdictAt.isNone then bayAttempt m port else m⟩) ∧
  -- TRICKLE_EXPIRE (R311)
  (∀ (qs : List Instr) (m₀ : Mach) (port : Nat),
    port < 48 →
    let m := m₀
    ∀ d : Nat,
    (getBay m port).trickleAt = some d →
    let m := advanceTo m d
    exec (.trickleExpire port) ⟨qs, m₀⟩ =
      .next ⟨qs, bayReject (modBay m port fun b => { b with verdict := 2, failed := b.failed + 1, verdictAt := none }) port⟩) ∧
  -- BAY_START (R312)
  (∀ (qs : List Instr) (m : Mach) (port vcsMv vbsMv : Nat),
    port < 48 →
    (vcsMv ≤ 60000 && vbsMv ≤ 60000 : Bool) = true →
    (isBay m port && (getBay m port).startAt.isSome && (getCv m port).run && !(getCv m port).vbg : Bool) = true →
    exec (.bayStart port vcsMv vbsMv) ⟨qs, m⟩ = .next ⟨qs, bayStart m port vcsMv vbsMv⟩) ∧
  -- BAY_DONE_READ (R206)
  (∀ (qs : List Instr) (m₀ : Mach) (port vbsMv : Nat),
    port < 48 →
    vbsMv ≤ 60000 →
    let m := m₀
    (isBay m port && (getChg m (port + 1)).st = .done : Bool) = true →
    ∀ d : Nat,
    some (doneDue m port) = some d →
    let m := advanceTo m d
    let m := modBay m port fun b => { b with doneAt := after m (sec 60) }
    let m := modChg m (port + 1) fun c => { c with vMv := vbsMv }
    let cell : Int := vbsMv * 1000 / max 1 (getChg m (port + 1)).prof.cells
    exec (.bayDoneRead port vbsMv) ⟨qs, m₀⟩ =
      .next ⟨qs, forAll m (machCtxs m (port + 1)) fun m x => modCtx m x fun c => { c with doneV := (cell :: c.doneV).take 11 }⟩) ∧
  -- PROOFING_PAUSE (R339)
  (∀ (qs : List Instr) (m : Mach) (port : Nat),
    port < 48 →
    let want := (getChg m (port + 1)).pauseReq || (machCtxs m (port + 1)).any fun x =>
      (m.est.pauseSigma : Rat) < 100 * (getCtx m x).sigma || m.est.pauseAgeH * 3600000 ≤ (getCtx m x).anchorAge
    (isBay m port && want && pauseBase m port : Bool) = true →
    exec (.proofingPause port) ⟨qs, m⟩ = .next ⟨qs, proofingPause m port⟩) ∧
  -- PROOFING_PAUSE_END (R339)
  (∀ (qs : List Instr) (m₀ : Mach) (port : Nat),
    port < 48 →
    let m := m₀
    ∀ d : Nat,
    (getBay m port).pauseAt = some d →
    let m := advanceTo m d
    exec (.proofingPauseEnd port) ⟨qs, m₀⟩ = .next ⟨qs, proofingPauseEnd m port⟩) ∧
  -- KEY_REVOKE_REAUTH (R316)
  (∀ (qs : List Instr) (m₀ : Mach) (port : Nat),
    port < 48 →
    let m := m₀
    ∀ d : Nat,
    (getBay m port).revokeAt = some d →
    let m := advanceTo m d
    exec (.keyRevokeReauth port) ⟨qs, m₀⟩ =
      .next ⟨qs, bayAgain (modBay m port fun b => { b with revokeAt := none, revoked := true }) port⟩)

/-- Completion of the estimator rows: each of the rows named below, in every state and for all operands that meet its conditions, answers
the next state written out; whatever that expression does not change stands, the queue of waiting commands among it. -/
def Obligations.EstimatorEvents : Prop :=
  -- SOC_COUNT (R324)
  (∀ (qs : List Instr) (m : Mach) (obs : List CtxObs),
    (obs.all fun o => o.ctx < 272) = true →
    (m.dev.adcclk && m.pwr.st ≠ .standby : Bool) = true →
    exec (.socCount obs) ⟨qs, m⟩ = .next ⟨qs, socCount m obs⟩) ∧
  -- NO_ANCHOR (R336)
  (∀ (qs : List Instr) (m : Mach) (ctx : Nat),
    ctx < 272 →
    ((getCtx m ctx).active && m.est.noAnchorH * 3600000 ≤ (getCtx m ctx).anchorAge : Bool) = true →
    exec (.noAnchor ctx) ⟨qs, m⟩ = .next ⟨qs, modCtx m ctx fun c => { c with noAnchor := true }⟩) ∧
  -- EKF_STEP (R325)
  (∀ (qs : List Instr) (m : Mach) (obs : List EkfObs),
    (obs.all fun o => o.ctx < 272) = true →
    (m.dev.estclk && m.pwr.st ≠ .standby : Bool) = true →
    exec (.ekfStep obs) ⟨qs, m⟩ = .next ⟨qs, obs.foldl ekfStep m⟩) ∧
  -- FILTER_RESET (R327)
  (∀ (qs : List Instr) (m₀ : Mach) (ctx : Nat),
    ctx < 272 →
    let m := m₀
    ((getCtx m ctx).active && 50 ≤ (getCtx m ctx).nisRun : Bool) = true →
    let m := modCtx (filterInit m ctx) ctx fun c => { c with lastFull := none, lastRest := none }
    let m := { m with upd := { m.upd with resets := if m.upd.resets.contains ctx then m.upd.resets else m.upd.resets ++ [ctx] } }
    exec (.filterReset ctx) ⟨qs, m₀⟩ = .next ⟨qs, note m blkEst .filterReset 2⟩) ∧
  -- STALE (R327)
  (∀ (qs : List Instr) (m : Mach) (ctx : Nat),
    ctx < 272 →
    let c := getCtx m ctx
    let lim := if m.pwr.st = .quiet then sec 10 else sec 1
    (c.active && !c.stale : Bool) = true →
    exec (.stale ctx) ⟨qs, m⟩ = .next ⟨qs, modCtx (advanceTo m (c.stepAt + lim)) ctx fun c => { c with stale := true }⟩) ∧
  -- REST_REQUEST (R340)
  (∀ (qs : List Instr) (m : Mach),
    let w := restWanted m
    exec .restRequest ⟨qs, m⟩ =
      .next ⟨qs, { m with est := { m.est with restReq := w, restWaived := m.est.restWaived && w } }⟩) ∧
  -- RELAX_FIT (R338)
  (∀ (qs : List Instr) (m : Mach) (ctx : Nat),
    ctx < 272 →
    ∀ w,
    (getCtx m ctx).fit = some w →
    let n := if ctxStore ctx then 110 else 80
    ((getCtx m ctx).active && !m.est.halted && n ≤ w.pts.length : Bool) = true →
    exec (.relaxFit ctx) ⟨qs, m⟩ = .next ⟨qs, fitAnchor m ctx { w with pts := w.pts.take n }⟩) ∧
  -- EIS_RUN (R341)
  (∀ (qs : List Instr) (mc : Mach) (m : Nat),
    m < 49 →
    exec (.eisRun m) ⟨qs, mc⟩ = .next ⟨qs, eisRun mc m⟩) ∧
  -- EIS_FREQUENCY_DONE (R342)
  (∀ (qs : List Instr) (mc : Mach) (m : Nat) (meas : List EisMeas) (ampMa dropPermille : Nat),
    (m < 49 && meas.all fun o => o.ctx < 272 : Bool) = true →
    let e : Mach :=
      match mc.est.eis.find? fun r => r.mach = m with
      | none => mc
      | some r => eisFrequencyDone mc r meas ampMa dropPermille
    exec (.eisFrequencyDone m meas ampMa dropPermille) ⟨qs, mc⟩ = .next ⟨qs, e⟩) ∧
  -- EIS_ABORT (R343)
  (∀ (qs : List Instr) (mc : Mach) (m : Nat),
    m < 49 →
    ((getChg mc m).st ≠ .cc || !(mc.lft.eis.any fun g => g.mach = m) || (machCtxs mc m).isEmpty : Bool) = true →
    exec (.eisAbort m) ⟨qs, mc⟩ = .next ⟨qs, chgApply (eisAbort mc m) m⟩) ∧
  -- EIS_DUE (R344)
  (∀ (qs : List Instr) (m : Mach) (ctx : Nat),
    ctx < 272 →
    ((getCtx m ctx).active && m.est.eisDays ≠ 0 && eisOld m ctx && !eisPending m (ctxMach m ctx) : Bool) = true →
    exec (.eisDue ctx) ⟨qs, m⟩ =
      .next ⟨qs, { m with est := { m.est with eisQueue := m.est.eisQueue ++ [(ctxMach m ctx, 0)] } }⟩)

/-- Completion of the thermal rows: each of the rows named below, in every state and for all operands that meet its conditions, answers
the next state written out; whatever that expression does not change stands, the queue of waiting commands among it. -/
def Obligations.ThermalEvents : Prop :=
  -- THM_SAMPLE (R361)
  (∀ (qs : List Instr) (m : Mach) (sensor : Nat) (t : Int),
    sensor < 94 →
    (measuring m && sensUsed m sensor : Bool) = true →
    exec (.thmSample sensor t) ⟨qs, m⟩ = .next ⟨qs, windowRead (thmRead m sensor t) sensor t⟩) ∧
  -- LANE_CHANGE (R359)
  (∀ (qs : List Instr) (m : Mach) (sensor : Nat),
    sensor < 94 →
    let x := getSens m sensor
    ((!x.fast && x.valid && nearEdge (thmClass m sensor) x (x.t + ptbValue m 4 sensor) (thmClass m sensor).fastBand : Bool) = true →
      exec (.laneChange sensor) ⟨qs, m⟩ = .next ⟨qs, modSens m sensor fun x => { x with fast := true }⟩) ∧
    ((x.fast && 1000 ≤ x.far : Bool) = true →
      exec (.laneChange sensor) ⟨qs, m⟩ = .next ⟨qs, modSens m sensor fun x => { x with fast := false }⟩)) ∧
  -- HOVER (R362)
  (∀ (qs : List Instr) (m : Mach) (sensor level : Nat),
    (sensor < 94 && level < 3 : Bool) = true →
    8 ≤ recentChanges m sensor level →
    exec (.hover sensor level) ⟨qs, m⟩ =
      .next ⟨qs, setLive (note { m with thm := { m.thm with hoverSeen := true } } blkThm .hover 2) blkThm .hover 2 true⟩) ∧
  -- THM_CAP_LIFT (R369)
  (∀ (qs : List Instr) (m : Mach) (scope : Nat),
    scope < 69 →
    exec (.thmCapLift scope) ⟨qs, m⟩ = .next ⟨qs, thmCapLift m scope⟩) ∧
  -- PULSE_SKIP_ENTRY (R367)
  (∀ (qs : List Instr) (m : Mach) (conv ma : Nat),
    conv < 55 →
    (maySkip m conv && groupAt m conv 2 && 10 * ma < irateTotal m conv : Bool) = true →
    exec (.pulseSkipEntry conv ma) ⟨qs, m⟩ =
      .next ⟨qs, modCv m conv fun c => { c with prot := { c.prot with pulseSkip := true } }⟩) ∧
  -- PULSE_SKIP_EXIT (R367)
  (∀ (qs : List Instr) (m : Mach) (conv ma : Nat),
    conv < 55 →
    ((getCv m conv).prot.pulseSkip && 15 * irateTotal m conv < 100 * ma : Bool) = true →
    exec (.pulseSkipExit conv ma) ⟨qs, m⟩ =
      .next ⟨qs, modCv m conv fun c => { c with prot := { c.prot with pulseSkip := false } }⟩) ∧
  -- TSD (R370)
  (∀ (qs : List Instr) (m : Mach) (sensor : Nat),
    sensor < 24 →
    (!m.grd.tsd : Bool) = true →
    exec (.tsd sensor) ⟨qs, m⟩ = .next ⟨qs, tsdAct m⟩) ∧
  -- TSD_RELEASE (R371)
  (∀ (qs : List Instr) (m : Mach),
    m.grd.tsd = true →
    exec .tsdRelease ⟨qs, m⟩ = .next ⟨qs, tsdRelease m⟩) ∧
  -- TSD_RESTART (R371)
  (∀ (qs : List Instr) (m₀ : Mach),
    let m := m₀
    ∀ d : Nat,
    m.grd.restartAt = some d →
    let m := advanceTo m d
    exec .tsdRestart ⟨qs, m₀⟩ = .next ⟨qs, tsdRestart m⟩)

/-- Completion of the Guard limit, Bib and hold rows: each of the rows named below, in every state and for all operands that meet its conditions, answers
the next state written out; whatever that expression does not change stands, the queue of waiting commands among it. -/
def Obligations.GuardEvents : Prop :=
  -- HW_OV (R393)
  (∀ (qs : List Instr) (m : Mach) (conv mv1 mv2 : Nat),
    conv < 55 →
    ((getCv m conv).run && hwCeil m conv < mv1 && hwCeil m conv < mv2 : Bool) = true →
    exec (.hwOv conv mv1 mv2) ⟨qs, m⟩ = .next ⟨qs, fault m conv .hwOv 5⟩) ∧
  -- SYS_CRIT (R393)
  (∀ (qs : List Instr) (m : Mach) (sysMv : Nat),
    sysRated sysMv = true →
    exec (.sysCrit sysMv) ⟨qs, m⟩ = .next ⟨qs, sysCrit m sysMv⟩) ∧
  -- SYS_CRIT_RECOVER (R393)
  (∀ (qs : List Instr) (m : Mach) (sysMv : Nat),
    sysRated sysMv = true →
    (m.grd.sysCritHi && !m.grd.tsd && sysMv < 59000 : Bool) = true →
    exec (.sysCritRecover sysMv) ⟨qs, m⟩ = .next ⟨qs, sysCritRecover m sysMv⟩) ∧
  -- SYS_UV1 (R391)
  (∀ (qs : List Instr) (m : Mach) (sysMv : Nat),
    sysRated sysMv = true →
    sysMv < m.path.sysFold →
    exec (.sysUv1 sysMv) ⟨qs, m⟩ =
      .next ⟨qs, (detectDep { m with path := { m.path with sysMv := sysMv } } .sysUv1 blkStore .sysUv1 2 0).1⟩) ∧
  -- WINDOW_END (R392)
  (∀ (qs : List Instr) (m₀ : Mach) (origin : Nat),
    isBlock origin = true →
    let m := m₀
    ∀ w,
    m.grd.windows.find? fun w => w.origin = origin = some w →
    let m := advanceTo m w.endAt
    let m := { m with grd := { m.grd with windows := m.grd.windows.erase w } }
    exec (.windowEnd origin) ⟨qs, m₀⟩ =
      .next ⟨qs, forAll m (windowPorts w) fun m p => rearmPd (modProt m p fun x => { x with uvRun := 0 }) p⟩) ∧
  -- CONTROL_PLANE_WRITE (R394)
  (∀ (qs : List Instr) (m : Mach) (proc : Nat) (w : CpWrite),
    (proc < 2 && cpIndexOk w : Bool) = true →
    exec (.controlPlaneWrite proc w) ⟨qs, m⟩ =
      .next ⟨qs, if m.grd.owner = proc + 1 then cpApply m w else note m (procBlk proc) .authReject 1⟩) ∧
  -- FAILOVER (R397)
  (∀ (qs : List Instr) (m : Mach) (cause : FailCause),
    let c := cause
    ∀ h,
    holder m = some h →
    let quick : Bool := match m.grd.lastFailover with
      | some t => m.dev.now < t + sec 1
      | none => false
    let e : Mach :=
      if quick then escReset m
      else
        let m := note m (procBlk h) (failCause c) 5
        let m := markFence m (procBlk h) (codeOf (failCause c))
        let m := match m.grd.handover with
          | some q => if q = 0 then m else closeEntry m q (statusCode .notInState) 2
          | none => m
        let m := updFailover m h
        let m := modProc m h fun x => { x with sync := false }
        let m := dropBib m
        { m with grd := { m.grd with handover := none, failingProc := some h, haltAckBy := after m 20000 } }
    exec (.failover cause) ⟨qs, m⟩ = .next ⟨qs, e⟩) ∧
  -- HALT_ACK (R397)
  (∀ (qs : List Instr) (m₀ : Mach),
    let m := m₀
    ∀ h,
    m.grd.failingProc = some h →
    let m := modProc m h fun x => { x with halted := true, pprAt := after m (ms 100) }
    exec .haltAck ⟨qs, m₀⟩ = .next ⟨qs, moveBib m h⟩) ∧
  -- HALT_TIMEOUT (R397)
  (∀ (qs : List Instr) (m₀ : Mach),
    let m := m₀
    ∀ h,
    m.grd.failingProc = some h →
    ∀ d : Nat,
    m.grd.haltAckBy = some d →
    let m := advanceTo m d
    let m := modBlk m (procBlk h) fun w => blkRecord w (codeOf .haltTimeout) 5 (nowMs m) m.dev.aonTick true
    exec .haltTimeout ⟨qs, m₀⟩ = .next ⟨qs, moveBib (pprDo m h) h⟩) ∧
  -- HANDOVER_OWNER_MOVE (R396)
  (∀ (qs : List Instr) (m : Mach),
    exec .handoverOwnerMove ⟨qs, m⟩ = .next ⟨qs, handoverMove m⟩) ∧
  -- SYNC_SET (R542)
  (∀ (qs : List Instr) (m₀ : Mach) (proc : Nat),
    proc < 2 →
    let m := m₀
    let a := proc
    let x := getProc m a
    ¬(!x.running || x.halted || m.grd.owner = a + 1 || (getBlk m (procBlk a)).fence.isSome || !m.dev.mclk || m.grd.escHalt) →
    let m := modProc m a fun x => { x with sync := true }
    let e : Mach :=
      if m.grd.hold && m.grd.failingProc.isNone then takeBib m a
      else if m.upd.kind = 1 && m.upd.st = .applying && m.upd.step = 2 && x.image = 1 then
        { m with upd := { m.upd with step := 3, timerAt := none }, grd := { m.grd with handover := some 0 } }
      else m
    exec (.syncSet proc) ⟨qs, m₀⟩ = .next ⟨qs, e⟩) ∧
  -- HOLD_TIME_EXPIRE (R400)
  (∀ (qs : List Instr) (m₀ : Mach),
    let m := m₀
    ∀ d : Nat,
    m.grd.holdAt = some d →
    let m := advanceTo m d
    m.grd.hold = true →
    exec .holdTimeExpire ⟨qs, m₀⟩ = .next ⟨qs, holdTimeExpire m⟩) ∧
  -- HOLD_PARK_STEP (R400)
  (∀ (qs : List Instr) (m₀ : Mach),
    let m := m₀
    ∀ d : Nat,
    m.grd.parkAt = some d →
    let m := advanceTo m d
    exec .holdParkStep ⟨qs, m₀⟩ = .next ⟨qs, holdParkStep m (m.grd.parkNext.getD 48)⟩)

/-- Completion of the watchdog and power-state rows: each of the rows named below, in every state and for all operands that meet its conditions, answers
the next state written out; whatever that expression does not change stands, the queue of waiting commands among it. -/
def Obligations.WatchdogAndPowerStateEvents : Prop :=
  -- WDH_EXPIRY (R416)
  (∀ (qs : List Instr) (m₀ : Mach),
    let m := m₀
    let w := m.wdh
    ¬(w.st = .off || w.waiting || !wdhUp m) →
    let m := advance m ((w.close - w.count) * 1000 - w.presc)
    let m := { m with wdh := { m.wdh with expired := true } }
    exec .wdhExpiry ⟨qs, m₀⟩ = .next ⟨qs, if w.st = .running then hostLost m .wdhExpired else wdhPulse m⟩) ∧
  -- HOSTRST_PULSE_END (R416)
  (∀ (qs : List Instr) (m₀ : Mach),
    let m := m₀
    ∀ d : Nat,
    m.dev.hostRstUntil = some d →
    let m := advanceTo m d
    exec .hostrstPulseEnd ⟨qs, m₀⟩ = .next ⟨qs, { m with dev := { m.dev with hostRstUntil := none } }⟩) ∧
  -- WDS_CHECKIN (R420)
  (∀ (qs : List Instr) (m : Mach) (proc : Nat) (supervisor : Bool) (word : Nat),
    (proc < 2 && word < 2 ^ 32 : Bool) = true →
    exec (.wdsCheckin proc supervisor word) ⟨qs, m⟩ = .next ⟨qs, wdsCheckin m proc supervisor word⟩) ∧
  -- WDS_PERIOD_END (R422)
  (∀ (qs : List Instr) (m₀ : Mach),
    let m := m₀
    ∀ d : Nat,
    m.wds.periodAt = some d →
    let m := advanceTo m d
    exec .wdsPeriodEnd ⟨qs, m₀⟩ = .next ⟨qs, wdsPeriodEnd m⟩) ∧
  -- WDS_ENABLE (R419)
  (∀ (qs : List Instr) (m : Mach),
    (!m.wds.enabled && holderRuns m : Bool) = true →
    exec .wdsEnable ⟨qs, m⟩ = .next ⟨qs, wdsRestart { m with wds := { m.wds with enabled := true } }⟩) ∧
  -- WD_TOTAL_RAISE (R426)
  (∀ (qs : List Instr) (m : Mach),
    (ctrRead m.nvm 0).1 < m.wds.wdTarget →
    ((m.nvm.queue ++ m.nvm.cur.toList).any fun w =>
      w.kind = NvmKind.counter && w.ctx = some 0 && m.wds.wdTarget ≤ w.page) = false →
    exec .wdTotalRaise ⟨qs, m⟩ = .next ⟨qs, nvmRaise m 0 m.wds.wdTarget⟩) ∧
  -- QUIET_AUTO (R487)
  (∀ (qs : List Instr) (m : Mach),
    m.pwr.st = .run →
    m.pwr.quietAfterS ≠ 0 →
    m.dev.configApplied = true →
    holderRuns m = true →
    anyAttached m = false →
    (∀ p < 48, ((!isBay m p || bayEmpty m p || (getChg m (p + 1)).st = .done) && !(getKey m p).pressed : Bool) = true) →
    exec .quietAuto ⟨qs, m⟩ = .next ⟨qs, enterQuiet m⟩) ∧
  -- QUIET_EXIT (R488)
  (∀ (qs : List Instr) (m : Mach),
    m.pwr.st = .quiet →
    exec .quietExit ⟨qs, m⟩ = .next ⟨qs, leaveLow m 0⟩) ∧
  -- STANDBY_WAKE (R488)
  (∀ (qs : List Instr) (m : Mach) (source : Nat),
    source < 7 →
    let en := source = 0 || source = 6 || bit m.pwr.wakeEn (source - 1)
    (m.pwr.st = .standby && en : Bool) = true →
    exec (.standbyWake source) ⟨qs, m⟩ = .next ⟨qs, leaveStandby m source⟩) ∧
  -- WAKE_TIMER (R489)
  (∀ (qs : List Instr) (m₀ : Mach),
    let m := m₀
    m.pwr.st = .standby →
    ∀ d : Nat,
    m.pwr.wakeAt = some d →
    let m := advanceTo m d
    exec .wakeTimer ⟨qs, m₀⟩ = .next ⟨qs, leaveStandby m 5⟩) ∧
  -- STANDBY_COUNT_SAMPLE (R488)
  (∀ (qs : List Instr) (m : Mach) (storeMa : Int),
    m.pwr.st = .standby →
    exec (.standbyCountSample storeMa) ⟨qs, m⟩ = .next ⟨qs, standbySample m storeMa⟩)

/-- Completion of the live update rows: each of the rows named below, in every state and for all operands that meet its conditions, answers
the next state written out; whatever that expression does not change stands, the queue of waiting commands among it. -/
def Obligations.UpdateEvents : Prop :=
  -- UPD_VERIFY_DONE (R494)
  (∀ (qs : List Instr) (m : Mach),
    let u := m.upd
    ¬(u.st ≠ .verifying) →
    let v := verdictFor m u.kind (regionOf m u.kind (stagedBank m u.kind)).bytes
    let e : Mach :=
      if v ≠ 1 then updFail m v
      else
        let m := modRegion m u.kind (stagedBank m u.kind) fun r =>
          { r with version := pU r.bytes 8 4, arb := pU r.bytes 12 4, layout := pU r.bytes 20 2 }
        let m := { m with upd := { m.upd with st := .applying, verdict := 1, step := 1 } }
        if u.kind = 1 then
          match holder m with
          | none => updFail m 9
          | some h =>
            let m := pprStaged m (1 - h)
            { m with upd := { m.upd with step := 2, timerAt := after m (sec 2) } }
        else if u.kind = 2 then { m with upd := { m.upd with coresLeft := targetCores u.target } }
        else m
    exec .updVerifyDone ⟨qs, m⟩ = .next ⟨qs, e⟩) ∧
  -- UPD_SYNC_TIMEOUT (R498)
  (∀ (qs : List Instr) (m₀ : Mach),
    let m := m₀
    (m.upd.kind = 1 && m.upd.st = .applying && m.upd.step = 2 : Bool) = true →
    ∀ d : Nat,
    m.upd.timerAt = some d →
    let m := advanceTo m d
    exec .updSyncTimeout ⟨qs, m₀⟩ = .next ⟨qs, updSyncTimeout m⟩) ∧
  -- UPD_PROBATION_END (R498)
  (∀ (qs : List Instr) (m₀ : Mach),
    let m := m₀
    (m.upd.kind = 1 && m.upd.st = .probation && m.upd.step = 4 : Bool) = true →
    ∀ d : Nat,
    m.upd.timerAt = some d →
    let m := advanceTo m d
    exec .updProbationEnd ⟨qs, m₀⟩ = .next ⟨qs, updProbationEnd m⟩) ∧
  -- UPD_POINTER_WRITE (R495)
  (∀ (qs : List Instr) (m : Mach),
    pointerDue m = true →
    exec .updPointerWrite ⟨qs, m⟩ = .next ⟨qs, pointerWrite m⟩) ∧
  -- PD_UPD_CORE_STEP (R499)
  (∀ (qs : List Instr) (m : Mach),
    let u := m.upd
    ¬(u.kind ≠ 2) →
    let e : Mach :=
      if u.step = 9 && (u.st = .applying || u.st = .probation) then
        (if (u.coresDone ++ u.coresLeft).any fun k => dieDown m (k / 4) then m else pdUpdBack m)
      else if u.st ≠ .applying || u.step ≠ 1 then m
      else match u.coresLeft with
        | [] => m
        | k :: l =>
          if !canMove m k || dieDown m (k / 4) || (getBlk m (0x70 + k)).fence.isSome then m
          else
            let b := stagedBank m 2
            let m := reloadCore m k b (regionOf m 2 b).version
            { m with upd := { m.upd with st := .probation, step := 4, coresLeft := l, coresDone := u.coresDone ++ [k]
                                         timerAt := after m (sec 10) } }
    exec .pdUpdCoreStep ⟨qs, m⟩ = .next ⟨qs, e⟩) ∧
  -- PD_UPD_PROBATION_END (R499)
  (∀ (qs : List Instr) (m₀ : Mach),
    let m := m₀
    (m.upd.kind = 2 && m.upd.st = .probation && m.upd.step = 4 : Bool) = true →
    ∀ d : Nat,
    m.upd.timerAt = some d →
    let m := advanceTo m d
    exec .pdUpdProbationEnd ⟨qs, m₀⟩ = .next ⟨qs, pdUpdProbationEnd m⟩) ∧
  -- EST_UCODE_SWAP (R500)
  (∀ (qs : List Instr) (m₀ : Mach),
    let m := m₀
    (m.upd.kind = 3 && m.upd.st = .applying && m.upd.step = 1 : Bool) = true →
    let m := estSwap m
    exec .estUcodeSwap ⟨qs, m₀⟩ =
      .next ⟨qs, { m with upd := { m.upd with st := .probation, step := 2, resets := [], timerAt := after m (sec 60) } }⟩) ∧
  -- EST_UCODE_PROBATION_END (R500)
  (∀ (qs : List Instr) (m : Mach),
    (m.upd.kind = 3 && m.upd.st = .probation : Bool) = true →
    let e : Mach :=
      if 8 < m.upd.resets.length then updFail (estSwap m) 10
      else fire m m.upd.timerAt fun m => { m with upd := { m.upd with st := .applying, step := 6, timerAt := none } }
    exec .estUcodeProbationEnd ⟨qs, m⟩ = .next ⟨qs, e⟩) ∧
  -- LIMITS_PREPARE (R501)
  (∀ (qs : List Instr) (m : Mach),
    let u := m.upd
    ¬(u.kind ≠ 4 || u.st ≠ .applying || !holderRuns m || !(u.step = 1 || (u.step = 2 && u.former ≠ m.grd.owner))) →
    let t := limitsOf ((regionOf m 4 (stagedBank m 4)).bytes.drop 192)
    let e : Mach :=
      if limitsOk t && limitsFit m t then
        { m with grd := { m.grd with shadow := some t }, upd := { m.upd with step := 2, former := m.grd.owner } }
      else updFail { m with grd := { m.grd with shadow := none } } 11
    exec .limitsPrepare ⟨qs, m⟩ = .next ⟨qs, e⟩) ∧
  -- LIMITS_COMMIT (R501)
  (∀ (qs : List Instr) (m : Mach),
    (m.upd.kind = 4 && m.upd.st = .applying && m.upd.step = 2 && holderRuns m : Bool) = true →
    ∀ t,
    m.grd.shadow = some t →
    let e : Mach :=
      if m.upd.former ≠ m.grd.owner then { m with grd := { m.grd with shadow := none }, upd := { m.upd with step := 1 } }
      else { m with grd := { m.grd with limits := t, shadow := none }, upd := { m.upd with step := 3 } }
    exec .limitsCommit ⟨qs, m⟩ = .next ⟨qs, e⟩) ∧
  -- TMON_MASK_EXPIRE (R502)
  (∀ (qs : List Instr) (m₀ : Mach) (group : Nat),
    group < 16 →
    let m := m₀
    ∀ d : Nat,
    (getTmon m group).maskUntil = some d →
    let m := advanceTo m d
    exec (.tmonMaskExpire group) ⟨qs, m₀⟩ = .next ⟨qs, modTmon m group fun t => { t with maskUntil := none }⟩)

/-- Completion of the service link, perturbation and boundary-scan rows: each of the rows named below, in every state and for all operands that meet its conditions, answers
the next state written out; whatever that expression does not change stands, the queue of waiting commands among it. -/
def Obligations.ServiceLinkEvents : Prop :=
  -- STAVSKA_LINK_START (R508)
  (∀ (qs : List Instr) (m : Mach) (port : Nat),
    port < 48 →
    linkReady m port = true →
    exec (.stavskaLinkStart port) ⟨qs, m⟩ = .next ⟨qs, linkStart m port⟩) ∧
  -- STAVSKA_SWAP_RETRY (R508)
  (∀ (qs : List Instr) (m₀ : Mach) (port : Nat),
    port < 48 →
    let m := m₀
    m.svc.armPort = some port →
    ∀ d : Nat,
    m.svc.swapAt = some d →
    let m := advanceTo m d
    exec (.stavskaSwapRetry port) ⟨qs, m₀⟩ = .next ⟨qs, stavskaKick { m with svc := { m.svc with swapAt := none } } port⟩) ∧
  -- STAVSKA_NO_PD (R508)
  (∀ (qs : List Instr) (m₀ : Mach) (port : Nat),
    port < 48 →
    let m := m₀
    m.svc.armPort = some port →
    ∀ d : Nat,
    m.svc.noPdAt = some d →
    let m := advanceTo m d
    exec (.stavskaNoPd port) ⟨qs, m₀⟩ =
      .next ⟨qs, { m with svc := { m.svc with noPdAt := none, lastFail := if (getPd m port).contract then m.svc.lastFail else 1 } }⟩) ∧
  -- USB_SET_CONFIGURATION (R509)
  (∀ (qs : List Instr) (m : Mach),
    m.svc.link = 2 →
    exec .usbSetConfiguration ⟨qs, m⟩ =
      .next ⟨qs, { m with svc := { m.svc with link := 3, configured := true, enumAt := none } }⟩) ∧
  -- ENUM_TIMEOUT (R509)
  (∀ (qs : List Instr) (m₀ : Mach),
    let m := m₀
    m.svc.link = 2 →
    ∀ d : Nat,
    m.svc.enumAt = some d →
    let m := advanceTo m d
    exec .enumTimeout ⟨qs, m₀⟩ = .next ⟨qs, stavskaEnd m 3⟩) ∧
  -- STAVSKA_FRAME (R510)
  (∀ (qs : List Instr) (m : Mach) (bytes : List Nat),
    (bytes.all fun b => b < 256) = true →
    m.svc.link = 3 →
    exec (.stavskaFrame bytes) ⟨qs, m⟩ = .next ⟨qs, stavskaFrame m (bytes.map (BitVec.ofNat 8))⟩) ∧
  -- STAVSKA_FRAME_TIMEOUT (R510)
  (∀ (qs : List Instr) (m₀ : Mach),
    let m := m₀
    ∀ d : Nat,
    m.svc.frameAt = some d →
    let m := advanceTo m d
    exec .stavskaFrameTimeout ⟨qs, m₀⟩ = .next ⟨qs, { m with svc := { m.svc with frameAt := none, frameBuf := [] } }⟩) ∧
  -- STAVSKA_IDLE (R514)
  (∀ (qs : List Instr) (m₀ : Mach),
    let m := m₀
    m.svc.link ≠ 0 →
    ∀ d : Nat,
    m.svc.idleAt = some d →
    let m := advanceTo m d
    exec .stavskaIdle ⟨qs, m₀⟩ = .next ⟨qs, stavskaEnd m 7⟩) ∧
  -- STAVSKA_LINK_END (R514)
  (∀ (qs : List Instr) (m : Mach) (reason : Nat),
    (4 ≤ reason && reason ≤ 9 : Bool) = true →
    exec (.stavskaLinkEnd reason) ⟨qs, m⟩ = .next ⟨qs, stavskaEnd m reason⟩) ∧
  -- NONCE_EXPIRE (R513)
  (∀ (qs : List Instr) (m₀ : Mach),
    let m := m₀
    ∀ d : Nat,
    m.svc.nonceAt = some d →
    let m := advanceTo m d
    exec .nonceExpire ⟨qs, m₀⟩ = .next ⟨qs, { m with svc := { m.svc with nonce := none, nonceAt := none } }⟩) ∧
  -- AUTH_LOCKOUT_END (R513)
  (∀ (qs : List Instr) (m₀ : Mach),
    let m := m₀
    ∀ d : Nat,
    m.svc.lockoutAt = some d →
    let m := advanceTo m d
    exec .authLockoutEnd ⟨qs, m₀⟩ = .next ⟨qs, { m with svc := { m.svc with lockoutAt := none } }⟩) ∧
  -- PTB_UNLOCK_EXPIRE (R519)
  (∀ (qs : List Instr) (m₀ : Mach),
    let m := m₀
    ∀ d : Nat,
    m.svc.unlockAt = some d →
    let m := advanceTo m d
    exec .ptbUnlockExpire ⟨qs, m₀⟩ = .next ⟨qs, { m with svc := { m.svc with unlockAt := none } }⟩) ∧
  -- PTB_TTL_EXPIRE (R522)
  (∀ (qs : List Instr) (m : Mach) (id : Nat),
    id < 255 →
    ∀ b, (m.svc.ptbs.find? fun b => b.id = id) = some b →
    exec (.ptbTtlExpire id) ⟨qs, m⟩ = .next ⟨qs, ptbEnd (advanceTo m b.endAt) id⟩) ∧
  -- JTAG_INSTRUCTION (R61)
  (∀ (qs : List Instr) (m : Mach) (opcode : Nat),
    opcode < 256 →
    m.dev.vioGood = true →
    exec (.jtagInstruction opcode) ⟨qs, m⟩ = .next ⟨qs, jtagInstruction m opcode⟩) ∧
  -- TAP_RESET (R516)
  (∀ (qs : List Instr) (m : Mach),
    exec .tapReset ⟨qs, m⟩ = .next ⟨qs, setTap m 0x01⟩)
end

