-- ==== Sys2Proof/Laws/State.lean ====
section
/-! SUPPORT. Sys2Proof/Laws/State.lean: reading after writing the tables of the machine: one lemma per field per update, each true
by rfl, and for each table the entry written and the others. -/
namespace Sys2Proof
namespace Machine

/-! ### Tables of fixed size -/

theorem tget_of_lt {α : Type} {n : Nat} (v : Vector α n) (d : α) {i : Nat} (h : i < n) : tget v d i = v[i] := dif_pos h

theorem tget_of_ge {α : Type} {n : Nat} (v : Vector α n) (d : α) {i : Nat} (h : n ≤ i) : tget v d i = d :=
  dif_neg (Nat.not_lt.mpr h)

@[simp] theorem tget_tupd_same {α : Type} {n : Nat} (v : Vector α n) (d : α) (f : α → α) {i : Nat} (h : i < n) :
    tget (tupd v i f) d i = f (tget v d i) := by
  simp [tget, tupd, h]

@[simp] theorem tget_tupd_ne {α : Type} {n : Nat} (v : Vector α n) (d : α) (f : α → α) {i j : Nat} (h : i ≠ j) :
    tget (tupd v i f) d j = tget v d j := by
  unfold tget tupd
  split
  · split
    · exact Vector.getElem_set_ne _ _ h
    · rfl
  · rfl

theorem tget_tupd {α : Type} {n : Nat} (v : Vector α n) (d : α) (f : α → α) (i j : Nat) :
    tget (tupd v i f) d j = if i = j ∧ i < n then f (tget v d j) else tget v d j := by
  by_cases e : i = j
  · subst e
    by_cases h : i < n
    · simp [h]
    · simp [h, tupd]
  · simp [e]

@[simp] theorem tupd_of_ge {α : Type} {n : Nat} (v : Vector α n) (f : α → α) {i : Nat} (h : n ≤ i) : tupd v i f = v :=
  dif_neg (Nat.not_lt.mpr h)

@[simp] theorem tget_tmap {α : Type} {n : Nat} (v : Vector α n) (d : α) (f : Nat → α → α) {i : Nat} (h : i < n) :
    tget (tmap v f) d i = f i (tget v d i) := by
  simp [tget, tmap, h]

/-! ### modCv -/

@[simp] theorem modCv_dev (m : Mach) (k : Nat) (f : Conv → Conv) : (modCv m k f).dev = m.dev := rfl
@[simp] theorem modCv_host (m : Mach) (k : Nat) (f : Conv → Conv) : (modCv m k f).host = m.host := rfl
@[simp] theorem modCv_mbx (m : Mach) (k : Nat) (f : Conv → Conv) : (modCv m k f).mbx = m.mbx := rfl
@[simp] theorem modCv_blk (m : Mach) (k : Nat) (f : Conv → Conv) : (modCv m k f).blk = m.blk := rfl
@[simp] theorem modCv_grd (m : Mach) (k : Nat) (f : Conv → Conv) : (modCv m k f).grd = m.grd := rfl
@[simp] theorem modCv_wdh (m : Mach) (k : Nat) (f : Conv → Conv) : (modCv m k f).wdh = m.wdh := rfl
@[simp] theorem modCv_wds (m : Mach) (k : Nat) (f : Conv → Conv) : (modCv m k f).wds = m.wds := rfl
@[simp] theorem modCv_nvm (m : Mach) (k : Nat) (f : Conv → Conv) : (modCv m k f).nvm = m.nvm := rfl
@[simp] theorem modCv_pwr (m : Mach) (k : Nat) (f : Conv → Conv) : (modCv m k f).pwr = m.pwr := rfl
@[simp] theorem modCv_upd (m : Mach) (k : Nat) (f : Conv → Conv) : (modCv m k f).upd = m.upd := rfl
@[simp] theorem modCv_svc (m : Mach) (k : Nat) (f : Conv → Conv) : (modCv m k f).svc = m.svc := rfl
@[simp] theorem modCv_spares (m : Mach) (k : Nat) (f : Conv → Conv) : (modCv m k f).spares = m.spares := rfl
@[simp] theorem modCv_adc (m : Mach) (k : Nat) (f : Conv → Conv) : (modCv m k f).adc = m.adc := rfl
@[simp] theorem modCv_tmon (m : Mach) (k : Nat) (f : Conv → Conv) : (modCv m k f).tmon = m.tmon := rfl
@[simp] theorem modCv_eng (m : Mach) (k : Nat) (f : Conv → Conv) : (modCv m k f).eng = m.eng := rfl
@[simp] theorem modCv_path (m : Mach) (k : Nat) (f : Conv → Conv) : (modCv m k f).path = m.path := rfl
@[simp] theorem modCv_inp (m : Mach) (k : Nat) (f : Conv → Conv) : (modCv m k f).inp = m.inp := rfl
@[simp] theorem modCv_sto (m : Mach) (k : Nat) (f : Conv → Conv) : (modCv m k f).sto = m.sto := rfl
@[simp] theorem modCv_chg (m : Mach) (k : Nat) (f : Conv → Conv) : (modCv m k f).chg = m.chg := rfl
@[simp] theorem modCv_aux (m : Mach) (k : Nat) (f : Conv → Conv) : (modCv m k f).aux = m.aux := rfl
@[simp] theorem modCv_lft (m : Mach) (k : Nat) (f : Conv → Conv) : (modCv m k f).lft = m.lft := rfl
@[simp] theorem modCv_prt (m : Mach) (k : Nat) (f : Conv → Conv) : (modCv m k f).prt = m.prt := rfl
@[simp] theorem modCv_ui (m : Mach) (k : Nat) (f : Conv → Conv) : (modCv m k f).ui = m.ui := rfl
@[simp] theorem modCv_pd (m : Mach) (k : Nat) (f : Conv → Conv) : (modCv m k f).pd = m.pd := rfl
@[simp] theorem modCv_core (m : Mach) (k : Nat) (f : Conv → Conv) : (modCv m k f).core = m.core := rfl
@[simp] theorem modCv_serves (m : Mach) (k : Nat) (f : Conv → Conv) : (modCv m k f).serves = m.serves := rfl
@[simp] theorem modCv_bay (m : Mach) (k : Nat) (f : Conv → Conv) : (modCv m k f).bay = m.bay := rfl
@[simp] theorem modCv_keys (m : Mach) (k : Nat) (f : Conv → Conv) : (modCv m k f).keys = m.keys := rfl
@[simp] theorem modCv_recs (m : Mach) (k : Nat) (f : Conv → Conv) : (modCv m k f).recs = m.recs := rfl
@[simp] theorem modCv_ctx (m : Mach) (k : Nat) (f : Conv → Conv) : (modCv m k f).ctx = m.ctx := rfl
@[simp] theorem modCv_est (m : Mach) (k : Nat) (f : Conv → Conv) : (modCv m k f).est = m.est := rfl
@[simp] theorem modCv_thm (m : Mach) (k : Nat) (f : Conv → Conv) : (modCv m k f).thm = m.thm := rfl

@[simp] theorem getCv_modCv_same (m : Mach) (f : Conv → Conv) {k : Nat} (h : k < 55) :
    getCv (modCv m k f) k = f (getCv m k) := tget_tupd_same _ _ f h

@[simp] theorem getCv_modCv_ne (m : Mach) (f : Conv → Conv) {k j' : Nat} (h : k ≠ j') :
    getCv (modCv m k f) j' = getCv m j' := tget_tupd_ne _ _ f h

@[simp] theorem getBlk_modCv (m : Mach) (q k' : Nat) (f : Conv → Conv) : getBlk (modCv m k' f) q = getBlk m q := rfl
@[simp] theorem getPort_modCv (m : Mach) (q k' : Nat) (f : Conv → Conv) : getPort (modCv m k' f) q = getPort m q := rfl
@[simp] theorem getPd_modCv (m : Mach) (q k' : Nat) (f : Conv → Conv) : getPd (modCv m k' f) q = getPd m q := rfl
@[simp] theorem getBay_modCv (m : Mach) (q k' : Nat) (f : Conv → Conv) : getBay (modCv m k' f) q = getBay m q := rfl
@[simp] theorem getInp_modCv (m : Mach) (q k' : Nat) (f : Conv → Conv) : getInp (modCv m k' f) q = getInp m q := rfl
@[simp] theorem getChg_modCv (m : Mach) (q k' : Nat) (f : Conv → Conv) : getChg (modCv m k' f) q = getChg m q := rfl
@[simp] theorem getHold_modCv (m : Mach) (q k' : Nat) (f : Conv → Conv) : getHold (modCv m k' f) q = getHold m q := rfl
@[simp] theorem getCtx_modCv (m : Mach) (q k' : Nat) (f : Conv → Conv) : getCtx (modCv m k' f) q = getCtx m q := rfl
@[simp] theorem getTmon_modCv (m : Mach) (q k' : Nat) (f : Conv → Conv) : getTmon (modCv m k' f) q = getTmon m q := rfl
@[simp] theorem getSlot_modCv (m : Mach) (q k' : Nat) (f : Conv → Conv) : getSlot (modCv m k' f) q = getSlot m q := rfl
@[simp] theorem getCore_modCv (m : Mach) (q k' : Nat) (f : Conv → Conv) : getCore (modCv m k' f) q = getCore m q := rfl
@[simp] theorem getProc_modCv (m : Mach) (q k' : Nat) (f : Conv → Conv) : getProc (modCv m k' f) q = getProc m q := rfl
@[simp] theorem getSens_modCv (m : Mach) (q k' : Nat) (f : Conv → Conv) : getSens (modCv m k' f) q = getSens m q := rfl
@[simp] theorem getKey_modCv (m : Mach) (q k' : Nat) (f : Conv → Conv) : getKey (modCv m k' f) q = getKey m q := rfl

/-! ### modBlk -/

@[simp] theorem modBlk_dev (m : Mach) (b : Nat) (f : Blk → Blk) : (modBlk m b f).dev = m.dev := rfl
@[simp] theorem modBlk_host (m : Mach) (b : Nat) (f : Blk → Blk) : (modBlk m b f).host = m.host := rfl
@[simp] theorem modBlk_mbx (m : Mach) (b : Nat) (f : Blk → Blk) : (modBlk m b f).mbx = m.mbx := rfl
@[simp] theorem modBlk_grd (m : Mach) (b : Nat) (f : Blk → Blk) : (modBlk m b f).grd = m.grd := rfl
@[simp] theorem modBlk_wdh (m : Mach) (b : Nat) (f : Blk → Blk) : (modBlk m b f).wdh = m.wdh := rfl
@[simp] theorem modBlk_wds (m : Mach) (b : Nat) (f : Blk → Blk) : (modBlk m b f).wds = m.wds := rfl
@[simp] theorem modBlk_nvm (m : Mach) (b : Nat) (f : Blk → Blk) : (modBlk m b f).nvm = m.nvm := rfl
@[simp] theorem modBlk_pwr (m : Mach) (b : Nat) (f : Blk → Blk) : (modBlk m b f).pwr = m.pwr := rfl
@[simp] theorem modBlk_upd (m : Mach) (b : Nat) (f : Blk → Blk) : (modBlk m b f).upd = m.upd := rfl
@[simp] theorem modBlk_svc (m : Mach) (b : Nat) (f : Blk → Blk) : (modBlk m b f).svc = m.svc := rfl
@[simp] theorem modBlk_cnv (m : Mach) (b : Nat) (f : Blk → Blk) : (modBlk m b f).cnv = m.cnv := rfl
@[simp] theorem modBlk_spares (m : Mach) (b : Nat) (f : Blk → Blk) : (modBlk m b f).spares = m.spares := rfl
@[simp] theorem modBlk_adc (m : Mach) (b : Nat) (f : Blk → Blk) : (modBlk m b f).adc = m.adc := rfl
@[simp] theorem modBlk_tmon (m : Mach) (b : Nat) (f : Blk → Blk) : (modBlk m b f).tmon = m.tmon := rfl
@[simp] theorem modBlk_eng (m : Mach) (b : Nat) (f : Blk → Blk) : (modBlk m b f).eng = m.eng := rfl
@[simp] theorem modBlk_path (m : Mach) (b : Nat) (f : Blk → Blk) : (modBlk m b f).path = m.path := rfl
@[simp] theorem modBlk_inp (m : Mach) (b : Nat) (f : Blk → Blk) : (modBlk m b f).inp = m.inp := rfl
@[simp] theorem modBlk_sto (m : Mach) (b : Nat) (f : Blk → Blk) : (modBlk m b f).sto = m.sto := rfl
@[simp] theorem modBlk_chg (m : Mach) (b : Nat) (f : Blk → Blk) : (modBlk m b f).chg = m.chg := rfl
@[simp] theorem modBlk_aux (m : Mach) (b : Nat) (f : Blk → Blk) : (modBlk m b f).aux = m.aux := rfl
@[simp] theorem modBlk_lft (m : Mach) (b : Nat) (f : Blk → Blk) : (modBlk m b f).lft = m.lft := rfl
@[simp] theorem modBlk_prt (m : Mach) (b : Nat) (f : Blk → Blk) : (modBlk m b f).prt = m.prt := rfl
@[simp] theorem modBlk_ui (m : Mach) (b : Nat) (f : Blk → Blk) : (modBlk m b f).ui = m.ui := rfl
@[simp] theorem modBlk_pd (m : Mach) (b : Nat) (f : Blk → Blk) : (modBlk m b f).pd = m.pd := rfl
@[simp] theorem modBlk_core (m : Mach) (b : Nat) (f : Blk → Blk) : (modBlk m b f).core = m.core := rfl
@[simp] theorem modBlk_serves (m : Mach) (b : Nat) (f : Blk → Blk) : (modBlk m b f).serves = m.serves := rfl
@[simp] theorem modBlk_bay (m : Mach) (b : Nat) (f : Blk → Blk) : (modBlk m b f).bay = m.bay := rfl
@[simp] theorem modBlk_keys (m : Mach) (b : Nat) (f : Blk → Blk) : (modBlk m b f).keys = m.keys := rfl
@[simp] theorem modBlk_recs (m : Mach) (b : Nat) (f : Blk → Blk) : (modBlk m b f).recs = m.recs := rfl
@[simp] theorem modBlk_ctx (m : Mach) (b : Nat) (f : Blk → Blk) : (modBlk m b f).ctx = m.ctx := rfl
@[simp] theorem modBlk_est (m : Mach) (b : Nat) (f : Blk → Blk) : (modBlk m b f).est = m.est := rfl
@[simp] theorem modBlk_thm (m : Mach) (b : Nat) (f : Blk → Blk) : (modBlk m b f).thm = m.thm := rfl

@[simp] theorem getBlk_modBlk_same (m : Mach) (f : Blk → Blk) {b : Nat} (h : b < 139) :
    getBlk (modBlk m b f) b = f (getBlk m b) := tget_tupd_same _ _ f h

@[simp] theorem getBlk_modBlk_ne (m : Mach) (f : Blk → Blk) {b j' : Nat} (h : b ≠ j') :
    getBlk (modBlk m b f) j' = getBlk m j' := tget_tupd_ne _ _ f h

@[simp] theorem getCv_modBlk (m : Mach) (q b' : Nat) (f : Blk → Blk) : getCv (modBlk m b' f) q = getCv m q := rfl
@[simp] theorem getPort_modBlk (m : Mach) (q b' : Nat) (f : Blk → Blk) : getPort (modBlk m b' f) q = getPort m q := rfl
@[simp] theorem getPd_modBlk (m : Mach) (q b' : Nat) (f : Blk → Blk) : getPd (modBlk m b' f) q = getPd m q := rfl
@[simp] theorem getBay_modBlk (m : Mach) (q b' : Nat) (f : Blk → Blk) : getBay (modBlk m b' f) q = getBay m q := rfl
@[simp] theorem getInp_modBlk (m : Mach) (q b' : Nat) (f : Blk → Blk) : getInp (modBlk m b' f) q = getInp m q := rfl
@[simp] theorem getChg_modBlk (m : Mach) (q b' : Nat) (f : Blk → Blk) : getChg (modBlk m b' f) q = getChg m q := rfl
@[simp] theorem getHold_modBlk (m : Mach) (q b' : Nat) (f : Blk → Blk) : getHold (modBlk m b' f) q = getHold m q := rfl
@[simp] theorem getCtx_modBlk (m : Mach) (q b' : Nat) (f : Blk → Blk) : getCtx (modBlk m b' f) q = getCtx m q := rfl
@[simp] theorem getTmon_modBlk (m : Mach) (q b' : Nat) (f : Blk → Blk) : getTmon (modBlk m b' f) q = getTmon m q := rfl
@[simp] theorem getSlot_modBlk (m : Mach) (q b' : Nat) (f : Blk → Blk) : getSlot (modBlk m b' f) q = getSlot m q := rfl
@[simp] theorem getCore_modBlk (m : Mach) (q b' : Nat) (f : Blk → Blk) : getCore (modBlk m b' f) q = getCore m q := rfl
@[simp] theorem getProc_modBlk (m : Mach) (q b' : Nat) (f : Blk → Blk) : getProc (modBlk m b' f) q = getProc m q := rfl
@[simp] theorem getSens_modBlk (m : Mach) (q b' : Nat) (f : Blk → Blk) : getSens (modBlk m b' f) q = getSens m q := rfl
@[simp] theorem getKey_modBlk (m : Mach) (q b' : Nat) (f : Blk → Blk) : getKey (modBlk m b' f) q = getKey m q := rfl

/-! ### modPort -/

@[simp] theorem modPort_dev (m : Mach) (p : Nat) (f : Port → Port) : (modPort m p f).dev = m.dev := rfl
@[simp] theorem modPort_host (m : Mach) (p : Nat) (f : Port → Port) : (modPort m p f).host = m.host := rfl
@[simp] theorem modPort_mbx (m : Mach) (p : Nat) (f : Port → Port) : (modPort m p f).mbx = m.mbx := rfl
@[simp] theorem modPort_blk (m : Mach) (p : Nat) (f : Port → Port) : (modPort m p f).blk = m.blk := rfl
@[simp] theorem modPort_grd (m : Mach) (p : Nat) (f : Port → Port) : (modPort m p f).grd = m.grd := rfl
@[simp] theorem modPort_wdh (m : Mach) (p : Nat) (f : Port → Port) : (modPort m p f).wdh = m.wdh := rfl
@[simp] theorem modPort_wds (m : Mach) (p : Nat) (f : Port → Port) : (modPort m p f).wds = m.wds := rfl
@[simp] theorem modPort_nvm (m : Mach) (p : Nat) (f : Port → Port) : (modPort m p f).nvm = m.nvm := rfl
@[simp] theorem modPort_pwr (m : Mach) (p : Nat) (f : Port → Port) : (modPort m p f).pwr = m.pwr := rfl
@[simp] theorem modPort_upd (m : Mach) (p : Nat) (f : Port → Port) : (modPort m p f).upd = m.upd := rfl
@[simp] theorem modPort_svc (m : Mach) (p : Nat) (f : Port → Port) : (modPort m p f).svc = m.svc := rfl
@[simp] theorem modPort_cnv (m : Mach) (p : Nat) (f : Port → Port) : (modPort m p f).cnv = m.cnv := rfl
@[simp] theorem modPort_spares (m : Mach) (p : Nat) (f : Port → Port) : (modPort m p f).spares = m.spares := rfl
@[simp] theorem modPort_adc (m : Mach) (p : Nat) (f : Port → Port) : (modPort m p f).adc = m.adc := rfl
@[simp] theorem modPort_tmon (m : Mach) (p : Nat) (f : Port → Port) : (modPort m p f).tmon = m.tmon := rfl
@[simp] theorem modPort_eng (m : Mach) (p : Nat) (f : Port → Port) : (modPort m p f).eng = m.eng := rfl
@[simp] theorem modPort_path (m : Mach) (p : Nat) (f : Port → Port) : (modPort m p f).path = m.path := rfl
@[simp] theorem modPort_inp (m : Mach) (p : Nat) (f : Port → Port) : (modPort m p f).inp = m.inp := rfl
@[simp] theorem modPort_sto (m : Mach) (p : Nat) (f : Port → Port) : (modPort m p f).sto = m.sto := rfl
@[simp] theorem modPort_chg (m : Mach) (p : Nat) (f : Port → Port) : (modPort m p f).chg = m.chg := rfl
@[simp] theorem modPort_aux (m : Mach) (p : Nat) (f : Port → Port) : (modPort m p f).aux = m.aux := rfl
@[simp] theorem modPort_lft (m : Mach) (p : Nat) (f : Port → Port) : (modPort m p f).lft = m.lft := rfl
@[simp] theorem modPort_ui (m : Mach) (p : Nat) (f : Port → Port) : (modPort m p f).ui = m.ui := rfl
@[simp] theorem modPort_pd (m : Mach) (p : Nat) (f : Port → Port) : (modPort m p f).pd = m.pd := rfl
@[simp] theorem modPort_core (m : Mach) (p : Nat) (f : Port → Port) : (modPort m p f).core = m.core := rfl
@[simp] theorem modPort_serves (m : Mach) (p : Nat) (f : Port → Port) : (modPort m p f).serves = m.serves := rfl
@[simp] theorem modPort_bay (m : Mach) (p : Nat) (f : Port → Port) : (modPort m p f).bay = m.bay := rfl
@[simp] theorem modPort_keys (m : Mach) (p : Nat) (f : Port → Port) : (modPort m p f).keys = m.keys := rfl
@[simp] theorem modPort_recs (m : Mach) (p : Nat) (f : Port → Port) : (modPort m p f).recs = m.recs := rfl
@[simp] theorem modPort_ctx (m : Mach) (p : Nat) (f : Port → Port) : (modPort m p f).ctx = m.ctx := rfl
@[simp] theorem modPort_est (m : Mach) (p : Nat) (f : Port → Port) : (modPort m p f).est = m.est := rfl
@[simp] theorem modPort_thm (m : Mach) (p : Nat) (f : Port → Port) : (modPort m p f).thm = m.thm := rfl

@[simp] theorem getPort_modPort_same (m : Mach) (f : Port → Port) {p : Nat} (h : p < 48) :
    getPort (modPort m p f) p = f (getPort m p) := tget_tupd_same _ _ f h

@[simp] theorem getPort_modPort_ne (m : Mach) (f : Port → Port) {p j' : Nat} (h : p ≠ j') :
    getPort (modPort m p f) j' = getPort m j' := tget_tupd_ne _ _ f h

@[simp] theorem getCv_modPort (m : Mach) (q p' : Nat) (f : Port → Port) : getCv (modPort m p' f) q = getCv m q := rfl
@[simp] theorem getBlk_modPort (m : Mach) (q p' : Nat) (f : Port → Port) : getBlk (modPort m p' f) q = getBlk m q := rfl
@[simp] theorem getPd_modPort (m : Mach) (q p' : Nat) (f : Port → Port) : getPd (modPort m p' f) q = getPd m q := rfl
@[simp] theorem getBay_modPort (m : Mach) (q p' : Nat) (f : Port → Port) : getBay (modPort m p' f) q = getBay m q := rfl
@[simp] theorem getInp_modPort (m : Mach) (q p' : Nat) (f : Port → Port) : getInp (modPort m p' f) q = getInp m q := rfl
@[simp] theorem getChg_modPort (m : Mach) (q p' : Nat) (f : Port → Port) : getChg (modPort m p' f) q = getChg m q := rfl
@[simp] theorem getHold_modPort (m : Mach) (q p' : Nat) (f : Port → Port) : getHold (modPort m p' f) q = getHold m q := rfl
@[simp] theorem getCtx_modPort (m : Mach) (q p' : Nat) (f : Port → Port) : getCtx (modPort m p' f) q = getCtx m q := rfl
@[simp] theorem getTmon_modPort (m : Mach) (q p' : Nat) (f : Port → Port) : getTmon (modPort m p' f) q = getTmon m q := rfl
@[simp] theorem getSlot_modPort (m : Mach) (q p' : Nat) (f : Port → Port) : getSlot (modPort m p' f) q = getSlot m q := rfl
@[simp] theorem getCore_modPort (m : Mach) (q p' : Nat) (f : Port → Port) : getCore (modPort m p' f) q = getCore m q := rfl
@[simp] theorem getProc_modPort (m : Mach) (q p' : Nat) (f : Port → Port) : getProc (modPort m p' f) q = getProc m q := rfl
@[simp] theorem getSens_modPort (m : Mach) (q p' : Nat) (f : Port → Port) : getSens (modPort m p' f) q = getSens m q := rfl
@[simp] theorem getKey_modPort (m : Mach) (q p' : Nat) (f : Port → Port) : getKey (modPort m p' f) q = getKey m q := rfl

/-! ### modPd -/

@[simp] theorem modPd_dev (m : Mach) (p : Nat) (f : Sess → Sess) : (modPd m p f).dev = m.dev := rfl
@[simp] theorem modPd_host (m : Mach) (p : Nat) (f : Sess → Sess) : (modPd m p f).host = m.host := rfl
@[simp] theorem modPd_mbx (m : Mach) (p : Nat) (f : Sess → Sess) : (modPd m p f).mbx = m.mbx := rfl
@[simp] theorem modPd_blk (m : Mach) (p : Nat) (f : Sess → Sess) : (modPd m p f).blk = m.blk := rfl
@[simp] theorem modPd_grd (m : Mach) (p : Nat) (f : Sess → Sess) : (modPd m p f).grd = m.grd := rfl
@[simp] theorem modPd_wdh (m : Mach) (p : Nat) (f : Sess → Sess) : (modPd m p f).wdh = m.wdh := rfl
@[simp] theorem modPd_wds (m : Mach) (p : Nat) (f : Sess → Sess) : (modPd m p f).wds = m.wds := rfl
@[simp] theorem modPd_nvm (m : Mach) (p : Nat) (f : Sess → Sess) : (modPd m p f).nvm = m.nvm := rfl
@[simp] theorem modPd_pwr (m : Mach) (p : Nat) (f : Sess → Sess) : (modPd m p f).pwr = m.pwr := rfl
@[simp] theorem modPd_upd (m : Mach) (p : Nat) (f : Sess → Sess) : (modPd m p f).upd = m.upd := rfl
@[simp] theorem modPd_svc (m : Mach) (p : Nat) (f : Sess → Sess) : (modPd m p f).svc = m.svc := rfl
@[simp] theorem modPd_cnv (m : Mach) (p : Nat) (f : Sess → Sess) : (modPd m p f).cnv = m.cnv := rfl
@[simp] theorem modPd_spares (m : Mach) (p : Nat) (f : Sess → Sess) : (modPd m p f).spares = m.spares := rfl
@[simp] theorem modPd_adc (m : Mach) (p : Nat) (f : Sess → Sess) : (modPd m p f).adc = m.adc := rfl
@[simp] theorem modPd_tmon (m : Mach) (p : Nat) (f : Sess → Sess) : (modPd m p f).tmon = m.tmon := rfl
@[simp] theorem modPd_eng (m : Mach) (p : Nat) (f : Sess → Sess) : (modPd m p f).eng = m.eng := rfl
@[simp] theorem modPd_path (m : Mach) (p : Nat) (f : Sess → Sess) : (modPd m p f).path = m.path := rfl
@[simp] theorem modPd_inp (m : Mach) (p : Nat) (f : Sess → Sess) : (modPd m p f).inp = m.inp := rfl
@[simp] theorem modPd_sto (m : Mach) (p : Nat) (f : Sess → Sess) : (modPd m p f).sto = m.sto := rfl
@[simp] theorem modPd_chg (m : Mach) (p : Nat) (f : Sess → Sess) : (modPd m p f).chg = m.chg := rfl
@[simp] theorem modPd_aux (m : Mach) (p : Nat) (f : Sess → Sess) : (modPd m p f).aux = m.aux := rfl
@[simp] theorem modPd_lft (m : Mach) (p : Nat) (f : Sess → Sess) : (modPd m p f).lft = m.lft := rfl
@[simp] theorem modPd_prt (m : Mach) (p : Nat) (f : Sess → Sess) : (modPd m p f).prt = m.prt := rfl
@[simp] theorem modPd_ui (m : Mach) (p : Nat) (f : Sess → Sess) : (modPd m p f).ui = m.ui := rfl
@[simp] theorem modPd_core (m : Mach) (p : Nat) (f : Sess → Sess) : (modPd m p f).core = m.core := rfl
@[simp] theorem modPd_serves (m : Mach) (p : Nat) (f : Sess → Sess) : (modPd m p f).serves = m.serves := rfl
@[simp] theorem modPd_bay (m : Mach) (p : Nat) (f : Sess → Sess) : (modPd m p f).bay = m.bay := rfl
@[simp] theorem modPd_keys (m : Mach) (p : Nat) (f : Sess → Sess) : (modPd m p f).keys = m.keys := rfl
@[simp] theorem modPd_recs (m : Mach) (p : Nat) (f : Sess → Sess) : (modPd m p f).recs = m.recs := rfl
@[simp] theorem modPd_ctx (m : Mach) (p : Nat) (f : Sess → Sess) : (modPd m p f).ctx = m.ctx := rfl
@[simp] theorem modPd_est (m : Mach) (p : Nat) (f : Sess → Sess) : (modPd m p f).est = m.est := rfl
@[simp] theorem modPd_thm (m : Mach) (p : Nat) (f : Sess → Sess) : (modPd m p f).thm = m.thm := rfl

@[simp] theorem getPd_modPd_same (m : Mach) (f : Sess → Sess) {p : Nat} (h : p < 48) :
    getPd (modPd m p f) p = f (getPd m p) := tget_tupd_same _ _ f h

@[simp] theorem getPd_modPd_ne (m : Mach) (f : Sess → Sess) {p j' : Nat} (h : p ≠ j') :
    getPd (modPd m p f) j' = getPd m j' := tget_tupd_ne _ _ f h

@[simp] theorem getCv_modPd (m : Mach) (q p' : Nat) (f : Sess → Sess) : getCv (modPd m p' f) q = getCv m q := rfl
@[simp] theorem getBlk_modPd (m : Mach) (q p' : Nat) (f : Sess → Sess) : getBlk (modPd m p' f) q = getBlk m q := rfl
@[simp] theorem getPort_modPd (m : Mach) (q p' : Nat) (f : Sess → Sess) : getPort (modPd m p' f) q = getPort m q := rfl
@[simp] theorem getBay_modPd (m : Mach) (q p' : Nat) (f : Sess → Sess) : getBay (modPd m p' f) q = getBay m q := rfl
@[simp] theorem getInp_modPd (m : Mach) (q p' : Nat) (f : Sess → Sess) : getInp (modPd m p' f) q = getInp m q := rfl
@[simp] theorem getChg_modPd (m : Mach) (q p' : Nat) (f : Sess → Sess) : getChg (modPd m p' f) q = getChg m q := rfl
@[simp] theorem getHold_modPd (m : Mach) (q p' : Nat) (f : Sess → Sess) : getHold (modPd m p' f) q = getHold m q := rfl
@[simp] theorem getCtx_modPd (m : Mach) (q p' : Nat) (f : Sess → Sess) : getCtx (modPd m p' f) q = getCtx m q := rfl
@[simp] theorem getTmon_modPd (m : Mach) (q p' : Nat) (f : Sess → Sess) : getTmon (modPd m p' f) q = getTmon m q := rfl
@[simp] theorem getSlot_modPd (m : Mach) (q p' : Nat) (f : Sess → Sess) : getSlot (modPd m p' f) q = getSlot m q := rfl
@[simp] theorem getCore_modPd (m : Mach) (q p' : Nat) (f : Sess → Sess) : getCore (modPd m p' f) q = getCore m q := rfl
@[simp] theorem getProc_modPd (m : Mach) (q p' : Nat) (f : Sess → Sess) : getProc (modPd m p' f) q = getProc m q := rfl
@[simp] theorem getSens_modPd (m : Mach) (q p' : Nat) (f : Sess → Sess) : getSens (modPd m p' f) q = getSens m q := rfl
@[simp] theorem getKey_modPd (m : Mach) (q p' : Nat) (f : Sess → Sess) : getKey (modPd m p' f) q = getKey m q := rfl

/-! ### modBay -/

@[simp] theorem modBay_dev (m : Mach) (p : Nat) (f : Bay → Bay) : (modBay m p f).dev = m.dev := rfl
@[simp] theorem modBay_host (m : Mach) (p : Nat) (f : Bay → Bay) : (modBay m p f).host = m.host := rfl
@[simp] theorem modBay_mbx (m : Mach) (p : Nat) (f : Bay → Bay) : (modBay m p f).mbx = m.mbx := rfl
@[simp] theorem modBay_blk (m : Mach) (p : Nat) (f : Bay → Bay) : (modBay m p f).blk = m.blk := rfl
@[simp] theorem modBay_grd (m : Mach) (p : Nat) (f : Bay → Bay) : (modBay m p f).grd = m.grd := rfl
@[simp] theorem modBay_wdh (m : Mach) (p : Nat) (f : Bay → Bay) : (modBay m p f).wdh = m.wdh := rfl
@[simp] theorem modBay_wds (m : Mach) (p : Nat) (f : Bay → Bay) : (modBay m p f).wds = m.wds := rfl
@[simp] theorem modBay_nvm (m : Mach) (p : Nat) (f : Bay → Bay) : (modBay m p f).nvm = m.nvm := rfl
@[simp] theorem modBay_pwr (m : Mach) (p : Nat) (f : Bay → Bay) : (modBay m p f).pwr = m.pwr := rfl
@[simp] theorem modBay_upd (m : Mach) (p : Nat) (f : Bay → Bay) : (modBay m p f).upd = m.upd := rfl
@[simp] theorem modBay_svc (m : Mach) (p : Nat) (f : Bay → Bay) : (modBay m p f).svc = m.svc := rfl
@[simp] theorem modBay_cnv (m : Mach) (p : Nat) (f : Bay → Bay) : (modBay m p f).cnv = m.cnv := rfl
@[simp] theorem modBay_spares (m : Mach) (p : Nat) (f : Bay → Bay) : (modBay m p f).spares = m.spares := rfl
@[simp] theorem modBay_adc (m : Mach) (p : Nat) (f : Bay → Bay) : (modBay m p f).adc = m.adc := rfl
@[simp] theorem modBay_tmon (m : Mach) (p : Nat) (f : Bay → Bay) : (modBay m p f).tmon = m.tmon := rfl
@[simp] theorem modBay_eng (m : Mach) (p : Nat) (f : Bay → Bay) : (modBay m p f).eng = m.eng := rfl
@[simp] theorem modBay_path (m : Mach) (p : Nat) (f : Bay → Bay) : (modBay m p f).path = m.path := rfl
@[simp] theorem modBay_inp (m : Mach) (p : Nat) (f : Bay → Bay) : (modBay m p f).inp = m.inp := rfl
@[simp] theorem modBay_sto (m : Mach) (p : Nat) (f : Bay → Bay) : (modBay m p f).sto = m.sto := rfl
@[simp] theorem modBay_chg (m : Mach) (p : Nat) (f : Bay → Bay) : (modBay m p f).chg = m.chg := rfl
@[simp] theorem modBay_aux (m : Mach) (p : Nat) (f : Bay → Bay) : (modBay m p f).aux = m.aux := rfl
@[simp] theorem modBay_lft (m : Mach) (p : Nat) (f : Bay → Bay) : (modBay m p f).lft = m.lft := rfl
@[simp] theorem modBay_prt (m : Mach) (p : Nat) (f : Bay → Bay) : (modBay m p f).prt = m.prt := rfl
@[simp] theorem modBay_ui (m : Mach) (p : Nat) (f : Bay → Bay) : (modBay m p f).ui = m.ui := rfl
@[simp] theorem modBay_pd (m : Mach) (p : Nat) (f : Bay → Bay) : (modBay m p f).pd = m.pd := rfl
@[simp] theorem modBay_core (m : Mach) (p : Nat) (f : Bay → Bay) : (modBay m p f).core = m.core := rfl
@[simp] theorem modBay_serves (m : Mach) (p : Nat) (f : Bay → Bay) : (modBay m p f).serves = m.serves := rfl
@[simp] theorem modBay_keys (m : Mach) (p : Nat) (f : Bay → Bay) : (modBay m p f).keys = m.keys := rfl
@[simp] theorem modBay_recs (m : Mach) (p : Nat) (f : Bay → Bay) : (modBay m p f).recs = m.recs := rfl
@[simp] theorem modBay_ctx (m : Mach) (p : Nat) (f : Bay → Bay) : (modBay m p f).ctx = m.ctx := rfl
@[simp] theorem modBay_est (m : Mach) (p : Nat) (f : Bay → Bay) : (modBay m p f).est = m.est := rfl
@[simp] theorem modBay_thm (m : Mach) (p : Nat) (f : Bay → Bay) : (modBay m p f).thm = m.thm := rfl

@[simp] theorem getBay_modBay_same (m : Mach) (f : Bay → Bay) {p : Nat} (h : p < 48) :
    getBay (modBay m p f) p = f (getBay m p) := tget_tupd_same _ _ f h

@[simp] theorem getBay_modBay_ne (m : Mach) (f : Bay → Bay) {p j' : Nat} (h : p ≠ j') :
    getBay (modBay m p f) j' = getBay m j' := tget_tupd_ne _ _ f h

@[simp] theorem getCv_modBay (m : Mach) (q p' : Nat) (f : Bay → Bay) : getCv (modBay m p' f) q = getCv m q := rfl
@[simp] theorem getBlk_modBay (m : Mach) (q p' : Nat) (f : Bay → Bay) : getBlk (modBay m p' f) q = getBlk m q := rfl
@[simp] theorem getPort_modBay (m : Mach) (q p' : Nat) (f : Bay → Bay) : getPort (modBay m p' f) q = getPort m q := rfl
@[simp] theorem getPd_modBay (m : Mach) (q p' : Nat) (f : Bay → Bay) : getPd (modBay m p' f) q = getPd m q := rfl
@[simp] theorem getInp_modBay (m : Mach) (q p' : Nat) (f : Bay → Bay) : getInp (modBay m p' f) q = getInp m q := rfl
@[simp] theorem getChg_modBay (m : Mach) (q p' : Nat) (f : Bay → Bay) : getChg (modBay m p' f) q = getChg m q := rfl
@[simp] theorem getHold_modBay (m : Mach) (q p' : Nat) (f : Bay → Bay) : getHold (modBay m p' f) q = getHold m q := rfl
@[simp] theorem getCtx_modBay (m : Mach) (q p' : Nat) (f : Bay → Bay) : getCtx (modBay m p' f) q = getCtx m q := rfl
@[simp] theorem getTmon_modBay (m : Mach) (q p' : Nat) (f : Bay → Bay) : getTmon (modBay m p' f) q = getTmon m q := rfl
@[simp] theorem getSlot_modBay (m : Mach) (q p' : Nat) (f : Bay → Bay) : getSlot (modBay m p' f) q = getSlot m q := rfl
@[simp] theorem getCore_modBay (m : Mach) (q p' : Nat) (f : Bay → Bay) : getCore (modBay m p' f) q = getCore m q := rfl
@[simp] theorem getProc_modBay (m : Mach) (q p' : Nat) (f : Bay → Bay) : getProc (modBay m p' f) q = getProc m q := rfl
@[simp] theorem getSens_modBay (m : Mach) (q p' : Nat) (f : Bay → Bay) : getSens (modBay m p' f) q = getSens m q := rfl
@[simp] theorem getKey_modBay (m : Mach) (q p' : Nat) (f : Bay → Bay) : getKey (modBay m p' f) q = getKey m q := rfl

/-! ### modInp -/

@[simp] theorem modInp_dev (m : Mach) (i : Nat) (f : Input → Input) : (modInp m i f).dev = m.dev := rfl
@[simp] theorem modInp_host (m : Mach) (i : Nat) (f : Input → Input) : (modInp m i f).host = m.host := rfl
@[simp] theorem modInp_mbx (m : Mach) (i : Nat) (f : Input → Input) : (modInp m i f).mbx = m.mbx := rfl
@[simp] theorem modInp_blk (m : Mach) (i : Nat) (f : Input → Input) : (modInp m i f).blk = m.blk := rfl
@[simp] theorem modInp_grd (m : Mach) (i : Nat) (f : Input → Input) : (modInp m i f).grd = m.grd := rfl
@[simp] theorem modInp_wdh (m : Mach) (i : Nat) (f : Input → Input) : (modInp m i f).wdh = m.wdh := rfl
@[simp] theorem modInp_wds (m : Mach) (i : Nat) (f : Input → Input) : (modInp m i f).wds = m.wds := rfl
@[simp] theorem modInp_nvm (m : Mach) (i : Nat) (f : Input → Input) : (modInp m i f).nvm = m.nvm := rfl
@[simp] theorem modInp_pwr (m : Mach) (i : Nat) (f : Input → Input) : (modInp m i f).pwr = m.pwr := rfl
@[simp] theorem modInp_upd (m : Mach) (i : Nat) (f : Input → Input) : (modInp m i f).upd = m.upd := rfl
@[simp] theorem modInp_svc (m : Mach) (i : Nat) (f : Input → Input) : (modInp m i f).svc = m.svc := rfl
@[simp] theorem modInp_cnv (m : Mach) (i : Nat) (f : Input → Input) : (modInp m i f).cnv = m.cnv := rfl
@[simp] theorem modInp_spares (m : Mach) (i : Nat) (f : Input → Input) : (modInp m i f).spares = m.spares := rfl
@[simp] theorem modInp_adc (m : Mach) (i : Nat) (f : Input → Input) : (modInp m i f).adc = m.adc := rfl
@[simp] theorem modInp_tmon (m : Mach) (i : Nat) (f : Input → Input) : (modInp m i f).tmon = m.tmon := rfl
@[simp] theorem modInp_eng (m : Mach) (i : Nat) (f : Input → Input) : (modInp m i f).eng = m.eng := rfl
@[simp] theorem modInp_path (m : Mach) (i : Nat) (f : Input → Input) : (modInp m i f).path = m.path := rfl
@[simp] theorem modInp_sto (m : Mach) (i : Nat) (f : Input → Input) : (modInp m i f).sto = m.sto := rfl
@[simp] theorem modInp_chg (m : Mach) (i : Nat) (f : Input → Input) : (modInp m i f).chg = m.chg := rfl
@[simp] theorem modInp_aux (m : Mach) (i : Nat) (f : Input → Input) : (modInp m i f).aux = m.aux := rfl
@[simp] theorem modInp_lft (m : Mach) (i : Nat) (f : Input → Input) : (modInp m i f).lft = m.lft := rfl
@[simp] theorem modInp_prt (m : Mach) (i : Nat) (f : Input → Input) : (modInp m i f).prt = m.prt := rfl
@[simp] theorem modInp_ui (m : Mach) (i : Nat) (f : Input → Input) : (modInp m i f).ui = m.ui := rfl
@[simp] theorem modInp_pd (m : Mach) (i : Nat) (f : Input → Input) : (modInp m i f).pd = m.pd := rfl
@[simp] theorem modInp_core (m : Mach) (i : Nat) (f : Input → Input) : (modInp m i f).core = m.core := rfl
@[simp] theorem modInp_serves (m : Mach) (i : Nat) (f : Input → Input) : (modInp m i f).serves = m.serves := rfl
@[simp] theorem modInp_bay (m : Mach) (i : Nat) (f : Input → Input) : (modInp m i f).bay = m.bay := rfl
@[simp] theorem modInp_keys (m : Mach) (i : Nat) (f : Input → Input) : (modInp m i f).keys = m.keys := rfl
@[simp] theorem modInp_recs (m : Mach) (i : Nat) (f : Input → Input) : (modInp m i f).recs = m.recs := rfl
@[simp] theorem modInp_ctx (m : Mach) (i : Nat) (f : Input → Input) : (modInp m i f).ctx = m.ctx := rfl
@[simp] theorem modInp_est (m : Mach) (i : Nat) (f : Input → Input) : (modInp m i f).est = m.est := rfl
@[simp] theorem modInp_thm (m : Mach) (i : Nat) (f : Input → Input) : (modInp m i f).thm = m.thm := rfl

@[simp] theorem getInp_modInp_same (m : Mach) (f : Input → Input) {i : Nat} (h : i < 6) :
    getInp (modInp m i f) i = f (getInp m i) := tget_tupd_same _ _ f h

@[simp] theorem getInp_modInp_ne (m : Mach) (f : Input → Input) {i j' : Nat} (h : i ≠ j') :
    getInp (modInp m i f) j' = getInp m j' := tget_tupd_ne _ _ f h

@[simp] theorem getCv_modInp (m : Mach) (q i' : Nat) (f : Input → Input) : getCv (modInp m i' f) q = getCv m q := rfl
@[simp] theorem getBlk_modInp (m : Mach) (q i' : Nat) (f : Input → Input) : getBlk (modInp m i' f) q = getBlk m q := rfl
@[simp] theorem getPort_modInp (m : Mach) (q i' : Nat) (f : Input → Input) : getPort (modInp m i' f) q = getPort m q := rfl
@[simp] theorem getPd_modInp (m : Mach) (q i' : Nat) (f : Input → Input) : getPd (modInp m i' f) q = getPd m q := rfl
@[simp] theorem getBay_modInp (m : Mach) (q i' : Nat) (f : Input → Input) : getBay (modInp m i' f) q = getBay m q := rfl
@[simp] theorem getChg_modInp (m : Mach) (q i' : Nat) (f : Input → Input) : getChg (modInp m i' f) q = getChg m q := rfl
@[simp] theorem getHold_modInp (m : Mach) (q i' : Nat) (f : Input → Input) : getHold (modInp m i' f) q = getHold m q := rfl
@[simp] theorem getCtx_modInp (m : Mach) (q i' : Nat) (f : Input → Input) : getCtx (modInp m i' f) q = getCtx m q := rfl
@[simp] theorem getTmon_modInp (m : Mach) (q i' : Nat) (f : Input → Input) : getTmon (modInp m i' f) q = getTmon m q := rfl
@[simp] theorem getSlot_modInp (m : Mach) (q i' : Nat) (f : Input → Input) : getSlot (modInp m i' f) q = getSlot m q := rfl
@[simp] theorem getCore_modInp (m : Mach) (q i' : Nat) (f : Input → Input) : getCore (modInp m i' f) q = getCore m q := rfl
@[simp] theorem getProc_modInp (m : Mach) (q i' : Nat) (f : Input → Input) : getProc (modInp m i' f) q = getProc m q := rfl
@[simp] theorem getSens_modInp (m : Mach) (q i' : Nat) (f : Input → Input) : getSens (modInp m i' f) q = getSens m q := rfl
@[simp] theorem getKey_modInp (m : Mach) (q i' : Nat) (f : Input → Input) : getKey (modInp m i' f) q = getKey m q := rfl

/-! ### modChg -/

@[simp] theorem modChg_dev (m : Mach) (c : Nat) (f : ChgM → ChgM) : (modChg m c f).dev = m.dev := rfl
@[simp] theorem modChg_host (m : Mach) (c : Nat) (f : ChgM → ChgM) : (modChg m c f).host = m.host := rfl
@[simp] theorem modChg_mbx (m : Mach) (c : Nat) (f : ChgM → ChgM) : (modChg m c f).mbx = m.mbx := rfl
@[simp] theorem modChg_blk (m : Mach) (c : Nat) (f : ChgM → ChgM) : (modChg m c f).blk = m.blk := rfl
@[simp] theorem modChg_grd (m : Mach) (c : Nat) (f : ChgM → ChgM) : (modChg m c f).grd = m.grd := rfl
@[simp] theorem modChg_wdh (m : Mach) (c : Nat) (f : ChgM → ChgM) : (modChg m c f).wdh = m.wdh := rfl
@[simp] theorem modChg_wds (m : Mach) (c : Nat) (f : ChgM → ChgM) : (modChg m c f).wds = m.wds := rfl
@[simp] theorem modChg_nvm (m : Mach) (c : Nat) (f : ChgM → ChgM) : (modChg m c f).nvm = m.nvm := rfl
@[simp] theorem modChg_pwr (m : Mach) (c : Nat) (f : ChgM → ChgM) : (modChg m c f).pwr = m.pwr := rfl
@[simp] theorem modChg_upd (m : Mach) (c : Nat) (f : ChgM → ChgM) : (modChg m c f).upd = m.upd := rfl
@[simp] theorem modChg_svc (m : Mach) (c : Nat) (f : ChgM → ChgM) : (modChg m c f).svc = m.svc := rfl
@[simp] theorem modChg_cnv (m : Mach) (c : Nat) (f : ChgM → ChgM) : (modChg m c f).cnv = m.cnv := rfl
@[simp] theorem modChg_spares (m : Mach) (c : Nat) (f : ChgM → ChgM) : (modChg m c f).spares = m.spares := rfl
@[simp] theorem modChg_adc (m : Mach) (c : Nat) (f : ChgM → ChgM) : (modChg m c f).adc = m.adc := rfl
@[simp] theorem modChg_tmon (m : Mach) (c : Nat) (f : ChgM → ChgM) : (modChg m c f).tmon = m.tmon := rfl
@[simp] theorem modChg_eng (m : Mach) (c : Nat) (f : ChgM → ChgM) : (modChg m c f).eng = m.eng := rfl
@[simp] theorem modChg_path (m : Mach) (c : Nat) (f : ChgM → ChgM) : (modChg m c f).path = m.path := rfl
@[simp] theorem modChg_inp (m : Mach) (c : Nat) (f : ChgM → ChgM) : (modChg m c f).inp = m.inp := rfl
@[simp] theorem modChg_sto (m : Mach) (c : Nat) (f : ChgM → ChgM) : (modChg m c f).sto = m.sto := rfl
@[simp] theorem modChg_aux (m : Mach) (c : Nat) (f : ChgM → ChgM) : (modChg m c f).aux = m.aux := rfl
@[simp] theorem modChg_lft (m : Mach) (c : Nat) (f : ChgM → ChgM) : (modChg m c f).lft = m.lft := rfl
@[simp] theorem modChg_prt (m : Mach) (c : Nat) (f : ChgM → ChgM) : (modChg m c f).prt = m.prt := rfl
@[simp] theorem modChg_ui (m : Mach) (c : Nat) (f : ChgM → ChgM) : (modChg m c f).ui = m.ui := rfl
@[simp] theorem modChg_pd (m : Mach) (c : Nat) (f : ChgM → ChgM) : (modChg m c f).pd = m.pd := rfl
@[simp] theorem modChg_core (m : Mach) (c : Nat) (f : ChgM → ChgM) : (modChg m c f).core = m.core := rfl
@[simp] theorem modChg_serves (m : Mach) (c : Nat) (f : ChgM → ChgM) : (modChg m c f).serves = m.serves := rfl
@[simp] theorem modChg_bay (m : Mach) (c : Nat) (f : ChgM → ChgM) : (modChg m c f).bay = m.bay := rfl
@[simp] theorem modChg_keys (m : Mach) (c : Nat) (f : ChgM → ChgM) : (modChg m c f).keys = m.keys := rfl
@[simp] theorem modChg_recs (m : Mach) (c : Nat) (f : ChgM → ChgM) : (modChg m c f).recs = m.recs := rfl
@[simp] theorem modChg_ctx (m : Mach) (c : Nat) (f : ChgM → ChgM) : (modChg m c f).ctx = m.ctx := rfl
@[simp] theorem modChg_est (m : Mach) (c : Nat) (f : ChgM → ChgM) : (modChg m c f).est = m.est := rfl
@[simp] theorem modChg_thm (m : Mach) (c : Nat) (f : ChgM → ChgM) : (modChg m c f).thm = m.thm := rfl

@[simp] theorem getChg_modChg_same (m : Mach) (f : ChgM → ChgM) {c : Nat} (h : c < 49) :
    getChg (modChg m c f) c = f (getChg m c) := tget_tupd_same _ _ f h

@[simp] theorem getChg_modChg_ne (m : Mach) (f : ChgM → ChgM) {c j' : Nat} (h : c ≠ j') :
    getChg (modChg m c f) j' = getChg m j' := tget_tupd_ne _ _ f h

@[simp] theorem getCv_modChg (m : Mach) (q c' : Nat) (f : ChgM → ChgM) : getCv (modChg m c' f) q = getCv m q := rfl
@[simp] theorem getBlk_modChg (m : Mach) (q c' : Nat) (f : ChgM → ChgM) : getBlk (modChg m c' f) q = getBlk m q := rfl
@[simp] theorem getPort_modChg (m : Mach) (q c' : Nat) (f : ChgM → ChgM) : getPort (modChg m c' f) q = getPort m q := rfl
@[simp] theorem getPd_modChg (m : Mach) (q c' : Nat) (f : ChgM → ChgM) : getPd (modChg m c' f) q = getPd m q := rfl
@[simp] theorem getBay_modChg (m : Mach) (q c' : Nat) (f : ChgM → ChgM) : getBay (modChg m c' f) q = getBay m q := rfl
@[simp] theorem getInp_modChg (m : Mach) (q c' : Nat) (f : ChgM → ChgM) : getInp (modChg m c' f) q = getInp m q := rfl
@[simp] theorem getHold_modChg (m : Mach) (q c' : Nat) (f : ChgM → ChgM) : getHold (modChg m c' f) q = getHold m q := rfl
@[simp] theorem getCtx_modChg (m : Mach) (q c' : Nat) (f : ChgM → ChgM) : getCtx (modChg m c' f) q = getCtx m q := rfl
@[simp] theorem getTmon_modChg (m : Mach) (q c' : Nat) (f : ChgM → ChgM) : getTmon (modChg m c' f) q = getTmon m q := rfl
@[simp] theorem getSlot_modChg (m : Mach) (q c' : Nat) (f : ChgM → ChgM) : getSlot (modChg m c' f) q = getSlot m q := rfl
@[simp] theorem getCore_modChg (m : Mach) (q c' : Nat) (f : ChgM → ChgM) : getCore (modChg m c' f) q = getCore m q := rfl
@[simp] theorem getProc_modChg (m : Mach) (q c' : Nat) (f : ChgM → ChgM) : getProc (modChg m c' f) q = getProc m q := rfl
@[simp] theorem getSens_modChg (m : Mach) (q c' : Nat) (f : ChgM → ChgM) : getSens (modChg m c' f) q = getSens m q := rfl
@[simp] theorem getKey_modChg (m : Mach) (q c' : Nat) (f : ChgM → ChgM) : getKey (modChg m c' f) q = getKey m q := rfl

/-! ### modHold -/

@[simp] theorem modHold_dev (m : Mach) (n : Nat) (f : Holder → Holder) : (modHold m n f).dev = m.dev := rfl
@[simp] theorem modHold_host (m : Mach) (n : Nat) (f : Holder → Holder) : (modHold m n f).host = m.host := rfl
@[simp] theorem modHold_mbx (m : Mach) (n : Nat) (f : Holder → Holder) : (modHold m n f).mbx = m.mbx := rfl
@[simp] theorem modHold_blk (m : Mach) (n : Nat) (f : Holder → Holder) : (modHold m n f).blk = m.blk := rfl
@[simp] theorem modHold_grd (m : Mach) (n : Nat) (f : Holder → Holder) : (modHold m n f).grd = m.grd := rfl
@[simp] theorem modHold_wdh (m : Mach) (n : Nat) (f : Holder → Holder) : (modHold m n f).wdh = m.wdh := rfl
@[simp] theorem modHold_wds (m : Mach) (n : Nat) (f : Holder → Holder) : (modHold m n f).wds = m.wds := rfl
@[simp] theorem modHold_nvm (m : Mach) (n : Nat) (f : Holder → Holder) : (modHold m n f).nvm = m.nvm := rfl
@[simp] theorem modHold_pwr (m : Mach) (n : Nat) (f : Holder → Holder) : (modHold m n f).pwr = m.pwr := rfl
@[simp] theorem modHold_upd (m : Mach) (n : Nat) (f : Holder → Holder) : (modHold m n f).upd = m.upd := rfl
@[simp] theorem modHold_svc (m : Mach) (n : Nat) (f : Holder → Holder) : (modHold m n f).svc = m.svc := rfl
@[simp] theorem modHold_cnv (m : Mach) (n : Nat) (f : Holder → Holder) : (modHold m n f).cnv = m.cnv := rfl
@[simp] theorem modHold_spares (m : Mach) (n : Nat) (f : Holder → Holder) : (modHold m n f).spares = m.spares := rfl
@[simp] theorem modHold_adc (m : Mach) (n : Nat) (f : Holder → Holder) : (modHold m n f).adc = m.adc := rfl
@[simp] theorem modHold_tmon (m : Mach) (n : Nat) (f : Holder → Holder) : (modHold m n f).tmon = m.tmon := rfl
@[simp] theorem modHold_eng (m : Mach) (n : Nat) (f : Holder → Holder) : (modHold m n f).eng = m.eng := rfl
@[simp] theorem modHold_path (m : Mach) (n : Nat) (f : Holder → Holder) : (modHold m n f).path = m.path := rfl
@[simp] theorem modHold_inp (m : Mach) (n : Nat) (f : Holder → Holder) : (modHold m n f).inp = m.inp := rfl
@[simp] theorem modHold_sto (m : Mach) (n : Nat) (f : Holder → Holder) : (modHold m n f).sto = m.sto := rfl
@[simp] theorem modHold_chg (m : Mach) (n : Nat) (f : Holder → Holder) : (modHold m n f).chg = m.chg := rfl
@[simp] theorem modHold_aux (m : Mach) (n : Nat) (f : Holder → Holder) : (modHold m n f).aux = m.aux := rfl
@[simp] theorem modHold_prt (m : Mach) (n : Nat) (f : Holder → Holder) : (modHold m n f).prt = m.prt := rfl
@[simp] theorem modHold_ui (m : Mach) (n : Nat) (f : Holder → Holder) : (modHold m n f).ui = m.ui := rfl
@[simp] theorem modHold_pd (m : Mach) (n : Nat) (f : Holder → Holder) : (modHold m n f).pd = m.pd := rfl
@[simp] theorem modHold_core (m : Mach) (n : Nat) (f : Holder → Holder) : (modHold m n f).core = m.core := rfl
@[simp] theorem modHold_serves (m : Mach) (n : Nat) (f : Holder → Holder) : (modHold m n f).serves = m.serves := rfl
@[simp] theorem modHold_bay (m : Mach) (n : Nat) (f : Holder → Holder) : (modHold m n f).bay = m.bay := rfl
@[simp] theorem modHold_keys (m : Mach) (n : Nat) (f : Holder → Holder) : (modHold m n f).keys = m.keys := rfl
@[simp] theorem modHold_recs (m : Mach) (n : Nat) (f : Holder → Holder) : (modHold m n f).recs = m.recs := rfl
@[simp] theorem modHold_ctx (m : Mach) (n : Nat) (f : Holder → Holder) : (modHold m n f).ctx = m.ctx := rfl
@[simp] theorem modHold_est (m : Mach) (n : Nat) (f : Holder → Holder) : (modHold m n f).est = m.est := rfl
@[simp] theorem modHold_thm (m : Mach) (n : Nat) (f : Holder → Holder) : (modHold m n f).thm = m.thm := rfl
@[simp] theorem modHold_lft_ovhMw (m : Mach) (n : Nat) (f : Holder → Holder) : (modHold m n f).lft.ovhMw = m.lft.ovhMw := rfl
@[simp] theorem modHold_lft_resMw (m : Mach) (n : Nat) (f : Holder → Holder) : (modHold m n f).lft.resMw = m.lft.resMw := rfl
@[simp] theorem modHold_lft_effIn (m : Mach) (n : Nat) (f : Holder → Holder) : (modHold m n f).lft.effIn = m.lft.effIn := rfl
@[simp] theorem modHold_lft_effOut (m : Mach) (n : Nat) (f : Holder → Holder) : (modHold m n f).lft.effOut = m.lft.effOut := rfl
@[simp] theorem modHold_lft_bridgeMinS (m : Mach) (n : Nat) (f : Holder → Holder) : (modHold m n f).lft.bridgeMinS = m.lft.bridgeMinS := rfl
@[simp] theorem modHold_lft_reclaimHardMs (m : Mach) (n : Nat) (f : Holder → Holder) : (modHold m n f).lft.reclaimHardMs = m.lft.reclaimHardMs := rfl
@[simp] theorem modHold_lft_floorMw (m : Mach) (n : Nat) (f : Holder → Holder) : (modHold m n f).lft.floorMw = m.lft.floorMw := rfl
@[simp] theorem modHold_lft_restoreS (m : Mach) (n : Nat) (f : Holder → Holder) : (modHold m n f).lft.restoreS = m.lft.restoreS := rfl
@[simp] theorem modHold_lft_socRes (m : Mach) (n : Nat) (f : Holder → Holder) : (modHold m n f).lft.socRes = m.lft.socRes := rfl
@[simp] theorem modHold_lft_socTaper (m : Mach) (n : Nat) (f : Holder → Holder) : (modHold m n f).lft.socTaper = m.lft.socTaper := rfl
@[simp] theorem modHold_lft_restMargin (m : Mach) (n : Nat) (f : Holder → Holder) : (modHold m n f).lft.restMargin = m.lft.restMargin := rfl
@[simp] theorem modHold_lft_cuts (m : Mach) (n : Nat) (f : Holder → Holder) : (modHold m n f).lft.cuts = m.lft.cuts := rfl
@[simp] theorem modHold_lft_classSet (m : Mach) (n : Nat) (f : Holder → Holder) : (modHold m n f).lft.classSet = m.lft.classSet := rfl
@[simp] theorem modHold_lft_capIn (m : Mach) (n : Nat) (f : Holder → Holder) : (modHold m n f).lft.capIn = m.lft.capIn := rfl
@[simp] theorem modHold_lft_capDonor (m : Mach) (n : Nat) (f : Holder → Holder) : (modHold m n f).lft.capDonor = m.lft.capDonor := rfl
@[simp] theorem modHold_lft_aSt (m : Mach) (n : Nat) (f : Holder → Holder) : (modHold m n f).lft.aSt = m.lft.aSt := rfl
@[simp] theorem modHold_lft_s (m : Mach) (n : Nat) (f : Holder → Holder) : (modHold m n f).lft.s = m.lft.s := rfl
@[simp] theorem modHold_lft_cost (m : Mach) (n : Nat) (f : Holder → Holder) : (modHold m n f).lft.cost = m.lft.cost := rfl
@[simp] theorem modHold_lft_dMax (m : Mach) (n : Nat) (f : Holder → Holder) : (modHold m n f).lft.dMax = m.lft.dMax := rfl
@[simp] theorem modHold_lft_eAvail (m : Mach) (n : Nat) (f : Holder → Holder) : (modHold m n f).lft.eAvail = m.lft.eAvail := rfl
@[simp] theorem modHold_lft_chargeGrant (m : Mach) (n : Nat) (f : Holder → Holder) : (modHold m n f).lft.chargeGrant = m.lft.chargeGrant := rfl
@[simp] theorem modHold_lft_cycle (m : Mach) (n : Nat) (f : Holder → Holder) : (modHold m n f).lft.cycle = m.lft.cycle := rfl
@[simp] theorem modHold_lft_reclaimed (m : Mach) (n : Nat) (f : Holder → Holder) : (modHold m n f).lft.reclaimed = m.lft.reclaimed := rfl
@[simp] theorem modHold_lft_step (m : Mach) (n : Nat) (f : Holder → Holder) : (modHold m n f).lft.step = m.lft.step := rfl
@[simp] theorem modHold_lft_stale (m : Mach) (n : Nat) (f : Holder → Holder) : (modHold m n f).lft.stale = m.lft.stale := rfl
@[simp] theorem modHold_lft_overrun (m : Mach) (n : Nat) (f : Holder → Holder) : (modHold m n f).lft.overrun = m.lft.overrun := rfl
@[simp] theorem modHold_lft_restAt (m : Mach) (n : Nat) (f : Holder → Holder) : (modHold m n f).lft.restAt = m.lft.restAt := rfl
@[simp] theorem modHold_lft_restLowAt (m : Mach) (n : Nat) (f : Holder → Holder) : (modHold m n f).lft.restLowAt = m.lft.restLowAt := rfl
@[simp] theorem modHold_lft_eis (m : Mach) (n : Nat) (f : Holder → Holder) : (modHold m n f).lft.eis = m.lft.eis := rfl
@[simp] theorem modHold_lft_lastReclaim (m : Mach) (n : Nat) (f : Holder → Holder) : (modHold m n f).lft.lastReclaim = m.lft.lastReclaim := rfl
@[simp] theorem modHold_lft_head (m : Mach) (n : Nat) (f : Holder → Holder) : (modHold m n f).lft.head = m.lft.head := rfl
@[simp] theorem modHold_lft_arrivals (m : Mach) (n : Nat) (f : Holder → Holder) : (modHold m n f).lft.arrivals = m.lft.arrivals := rfl
@[simp] theorem modHold_lft_cycleAt (m : Mach) (n : Nat) (f : Holder → Holder) : (modHold m n f).lft.cycleAt = m.lft.cycleAt := rfl
@[simp] theorem modHold_lft_lastAllow (m : Mach) (n : Nat) (f : Holder → Holder) : (modHold m n f).lft.lastAllow = m.lft.lastAllow := rfl

@[simp] theorem getHold_modHold_same (m : Mach) (f : Holder → Holder) {n : Nat} (h : n < 50) :
    getHold (modHold m n f) n = f (getHold m n) := tget_tupd_same _ _ f h

@[simp] theorem getHold_modHold_ne (m : Mach) (f : Holder → Holder) {n j' : Nat} (h : n ≠ j') :
    getHold (modHold m n f) j' = getHold m j' := tget_tupd_ne _ _ f h

@[simp] theorem getCv_modHold (m : Mach) (q n' : Nat) (f : Holder → Holder) : getCv (modHold m n' f) q = getCv m q := rfl
@[simp] theorem getBlk_modHold (m : Mach) (q n' : Nat) (f : Holder → Holder) : getBlk (modHold m n' f) q = getBlk m q := rfl
@[simp] theorem getPort_modHold (m : Mach) (q n' : Nat) (f : Holder → Holder) : getPort (modHold m n' f) q = getPort m q := rfl
@[simp] theorem getPd_modHold (m : Mach) (q n' : Nat) (f : Holder → Holder) : getPd (modHold m n' f) q = getPd m q := rfl
@[simp] theorem getBay_modHold (m : Mach) (q n' : Nat) (f : Holder → Holder) : getBay (modHold m n' f) q = getBay m q := rfl
@[simp] theorem getInp_modHold (m : Mach) (q n' : Nat) (f : Holder → Holder) : getInp (modHold m n' f) q = getInp m q := rfl
@[simp] theorem getChg_modHold (m : Mach) (q n' : Nat) (f : Holder → Holder) : getChg (modHold m n' f) q = getChg m q := rfl
@[simp] theorem getCtx_modHold (m : Mach) (q n' : Nat) (f : Holder → Holder) : getCtx (modHold m n' f) q = getCtx m q := rfl
@[simp] theorem getTmon_modHold (m : Mach) (q n' : Nat) (f : Holder → Holder) : getTmon (modHold m n' f) q = getTmon m q := rfl
@[simp] theorem getSlot_modHold (m : Mach) (q n' : Nat) (f : Holder → Holder) : getSlot (modHold m n' f) q = getSlot m q := rfl
@[simp] theorem getCore_modHold (m : Mach) (q n' : Nat) (f : Holder → Holder) : getCore (modHold m n' f) q = getCore m q := rfl
@[simp] theorem getProc_modHold (m : Mach) (q n' : Nat) (f : Holder → Holder) : getProc (modHold m n' f) q = getProc m q := rfl
@[simp] theorem getSens_modHold (m : Mach) (q n' : Nat) (f : Holder → Holder) : getSens (modHold m n' f) q = getSens m q := rfl
@[simp] theorem getKey_modHold (m : Mach) (q n' : Nat) (f : Holder → Holder) : getKey (modHold m n' f) q = getKey m q := rfl

/-! ### modCtx -/

@[simp] theorem modCtx_dev (m : Mach) (x : Nat) (f : Ctx → Ctx) : (modCtx m x f).dev = m.dev := rfl
@[simp] theorem modCtx_host (m : Mach) (x : Nat) (f : Ctx → Ctx) : (modCtx m x f).host = m.host := rfl
@[simp] theorem modCtx_mbx (m : Mach) (x : Nat) (f : Ctx → Ctx) : (modCtx m x f).mbx = m.mbx := rfl
@[simp] theorem modCtx_blk (m : Mach) (x : Nat) (f : Ctx → Ctx) : (modCtx m x f).blk = m.blk := rfl
@[simp] theorem modCtx_grd (m : Mach) (x : Nat) (f : Ctx → Ctx) : (modCtx m x f).grd = m.grd := rfl
@[simp] theorem modCtx_wdh (m : Mach) (x : Nat) (f : Ctx → Ctx) : (modCtx m x f).wdh = m.wdh := rfl
@[simp] theorem modCtx_wds (m : Mach) (x : Nat) (f : Ctx → Ctx) : (modCtx m x f).wds = m.wds := rfl
@[simp] theorem modCtx_nvm (m : Mach) (x : Nat) (f : Ctx → Ctx) : (modCtx m x f).nvm = m.nvm := rfl
@[simp] theorem modCtx_pwr (m : Mach) (x : Nat) (f : Ctx → Ctx) : (modCtx m x f).pwr = m.pwr := rfl
@[simp] theorem modCtx_upd (m : Mach) (x : Nat) (f : Ctx → Ctx) : (modCtx m x f).upd = m.upd := rfl
@[simp] theorem modCtx_svc (m : Mach) (x : Nat) (f : Ctx → Ctx) : (modCtx m x f).svc = m.svc := rfl
@[simp] theorem modCtx_cnv (m : Mach) (x : Nat) (f : Ctx → Ctx) : (modCtx m x f).cnv = m.cnv := rfl
@[simp] theorem modCtx_spares (m : Mach) (x : Nat) (f : Ctx → Ctx) : (modCtx m x f).spares = m.spares := rfl
@[simp] theorem modCtx_adc (m : Mach) (x : Nat) (f : Ctx → Ctx) : (modCtx m x f).adc = m.adc := rfl
@[simp] theorem modCtx_tmon (m : Mach) (x : Nat) (f : Ctx → Ctx) : (modCtx m x f).tmon = m.tmon := rfl
@[simp] theorem modCtx_eng (m : Mach) (x : Nat) (f : Ctx → Ctx) : (modCtx m x f).eng = m.eng := rfl
@[simp] theorem modCtx_path (m : Mach) (x : Nat) (f : Ctx → Ctx) : (modCtx m x f).path = m.path := rfl
@[simp] theorem modCtx_inp (m : Mach) (x : Nat) (f : Ctx → Ctx) : (modCtx m x f).inp = m.inp := rfl
@[simp] theorem modCtx_sto (m : Mach) (x : Nat) (f : Ctx → Ctx) : (modCtx m x f).sto = m.sto := rfl
@[simp] theorem modCtx_chg (m : Mach) (x : Nat) (f : Ctx → Ctx) : (modCtx m x f).chg = m.chg := rfl
@[simp] theorem modCtx_aux (m : Mach) (x : Nat) (f : Ctx → Ctx) : (modCtx m x f).aux = m.aux := rfl
@[simp] theorem modCtx_lft (m : Mach) (x : Nat) (f : Ctx → Ctx) : (modCtx m x f).lft = m.lft := rfl
@[simp] theorem modCtx_prt (m : Mach) (x : Nat) (f : Ctx → Ctx) : (modCtx m x f).prt = m.prt := rfl
@[simp] theorem modCtx_ui (m : Mach) (x : Nat) (f : Ctx → Ctx) : (modCtx m x f).ui = m.ui := rfl
@[simp] theorem modCtx_pd (m : Mach) (x : Nat) (f : Ctx → Ctx) : (modCtx m x f).pd = m.pd := rfl
@[simp] theorem modCtx_core (m : Mach) (x : Nat) (f : Ctx → Ctx) : (modCtx m x f).core = m.core := rfl
@[simp] theorem modCtx_serves (m : Mach) (x : Nat) (f : Ctx → Ctx) : (modCtx m x f).serves = m.serves := rfl
@[simp] theorem modCtx_bay (m : Mach) (x : Nat) (f : Ctx → Ctx) : (modCtx m x f).bay = m.bay := rfl
@[simp] theorem modCtx_keys (m : Mach) (x : Nat) (f : Ctx → Ctx) : (modCtx m x f).keys = m.keys := rfl
@[simp] theorem modCtx_recs (m : Mach) (x : Nat) (f : Ctx → Ctx) : (modCtx m x f).recs = m.recs := rfl
@[simp] theorem modCtx_est (m : Mach) (x : Nat) (f : Ctx → Ctx) : (modCtx m x f).est = m.est := rfl
@[simp] theorem modCtx_thm (m : Mach) (x : Nat) (f : Ctx → Ctx) : (modCtx m x f).thm = m.thm := rfl

@[simp] theorem getCtx_modCtx_same (m : Mach) (f : Ctx → Ctx) {x : Nat} (h : x < 272) :
    getCtx (modCtx m x f) x = f (getCtx m x) := tget_tupd_same _ _ f h

@[simp] theorem getCtx_modCtx_ne (m : Mach) (f : Ctx → Ctx) {x j' : Nat} (h : x ≠ j') :
    getCtx (modCtx m x f) j' = getCtx m j' := tget_tupd_ne _ _ f h

@[simp] theorem getCv_modCtx (m : Mach) (q x' : Nat) (f : Ctx → Ctx) : getCv (modCtx m x' f) q = getCv m q := rfl
@[simp] theorem getBlk_modCtx (m : Mach) (q x' : Nat) (f : Ctx → Ctx) : getBlk (modCtx m x' f) q = getBlk m q := rfl
@[simp] theorem getPort_modCtx (m : Mach) (q x' : Nat) (f : Ctx → Ctx) : getPort (modCtx m x' f) q = getPort m q := rfl
@[simp] theorem getPd_modCtx (m : Mach) (q x' : Nat) (f : Ctx → Ctx) : getPd (modCtx m x' f) q = getPd m q := rfl
@[simp] theorem getBay_modCtx (m : Mach) (q x' : Nat) (f : Ctx → Ctx) : getBay (modCtx m x' f) q = getBay m q := rfl
@[simp] theorem getInp_modCtx (m : Mach) (q x' : Nat) (f : Ctx → Ctx) : getInp (modCtx m x' f) q = getInp m q := rfl
@[simp] theorem getChg_modCtx (m : Mach) (q x' : Nat) (f : Ctx → Ctx) : getChg (modCtx m x' f) q = getChg m q := rfl
@[simp] theorem getHold_modCtx (m : Mach) (q x' : Nat) (f : Ctx → Ctx) : getHold (modCtx m x' f) q = getHold m q := rfl
@[simp] theorem getTmon_modCtx (m : Mach) (q x' : Nat) (f : Ctx → Ctx) : getTmon (modCtx m x' f) q = getTmon m q := rfl
@[simp] theorem getSlot_modCtx (m : Mach) (q x' : Nat) (f : Ctx → Ctx) : getSlot (modCtx m x' f) q = getSlot m q := rfl
@[simp] theorem getCore_modCtx (m : Mach) (q x' : Nat) (f : Ctx → Ctx) : getCore (modCtx m x' f) q = getCore m q := rfl
@[simp] theorem getProc_modCtx (m : Mach) (q x' : Nat) (f : Ctx → Ctx) : getProc (modCtx m x' f) q = getProc m q := rfl
@[simp] theorem getSens_modCtx (m : Mach) (q x' : Nat) (f : Ctx → Ctx) : getSens (modCtx m x' f) q = getSens m q := rfl
@[simp] theorem getKey_modCtx (m : Mach) (q x' : Nat) (f : Ctx → Ctx) : getKey (modCtx m x' f) q = getKey m q := rfl

/-! ### modTmon -/

@[simp] theorem modTmon_dev (m : Mach) (j : Nat) (f : Tmon → Tmon) : (modTmon m j f).dev = m.dev := rfl
@[simp] theorem modTmon_host (m : Mach) (j : Nat) (f : Tmon → Tmon) : (modTmon m j f).host = m.host := rfl
@[simp] theorem modTmon_mbx (m : Mach) (j : Nat) (f : Tmon → Tmon) : (modTmon m j f).mbx = m.mbx := rfl
@[simp] theorem modTmon_blk (m : Mach) (j : Nat) (f : Tmon → Tmon) : (modTmon m j f).blk = m.blk := rfl
@[simp] theorem modTmon_grd (m : Mach) (j : Nat) (f : Tmon → Tmon) : (modTmon m j f).grd = m.grd := rfl
@[simp] theorem modTmon_wdh (m : Mach) (j : Nat) (f : Tmon → Tmon) : (modTmon m j f).wdh = m.wdh := rfl
@[simp] theorem modTmon_wds (m : Mach) (j : Nat) (f : Tmon → Tmon) : (modTmon m j f).wds = m.wds := rfl
@[simp] theorem modTmon_nvm (m : Mach) (j : Nat) (f : Tmon → Tmon) : (modTmon m j f).nvm = m.nvm := rfl
@[simp] theorem modTmon_pwr (m : Mach) (j : Nat) (f : Tmon → Tmon) : (modTmon m j f).pwr = m.pwr := rfl
@[simp] theorem modTmon_upd (m : Mach) (j : Nat) (f : Tmon → Tmon) : (modTmon m j f).upd = m.upd := rfl
@[simp] theorem modTmon_svc (m : Mach) (j : Nat) (f : Tmon → Tmon) : (modTmon m j f).svc = m.svc := rfl
@[simp] theorem modTmon_cnv (m : Mach) (j : Nat) (f : Tmon → Tmon) : (modTmon m j f).cnv = m.cnv := rfl
@[simp] theorem modTmon_spares (m : Mach) (j : Nat) (f : Tmon → Tmon) : (modTmon m j f).spares = m.spares := rfl
@[simp] theorem modTmon_adc (m : Mach) (j : Nat) (f : Tmon → Tmon) : (modTmon m j f).adc = m.adc := rfl
@[simp] theorem modTmon_eng (m : Mach) (j : Nat) (f : Tmon → Tmon) : (modTmon m j f).eng = m.eng := rfl
@[simp] theorem modTmon_path (m : Mach) (j : Nat) (f : Tmon → Tmon) : (modTmon m j f).path = m.path := rfl
@[simp] theorem modTmon_inp (m : Mach) (j : Nat) (f : Tmon → Tmon) : (modTmon m j f).inp = m.inp := rfl
@[simp] theorem modTmon_sto (m : Mach) (j : Nat) (f : Tmon → Tmon) : (modTmon m j f).sto = m.sto := rfl
@[simp] theorem modTmon_chg (m : Mach) (j : Nat) (f : Tmon → Tmon) : (modTmon m j f).chg = m.chg := rfl
@[simp] theorem modTmon_aux (m : Mach) (j : Nat) (f : Tmon → Tmon) : (modTmon m j f).aux = m.aux := rfl
@[simp] theorem modTmon_lft (m : Mach) (j : Nat) (f : Tmon → Tmon) : (modTmon m j f).lft = m.lft := rfl
@[simp] theorem modTmon_prt (m : Mach) (j : Nat) (f : Tmon → Tmon) : (modTmon m j f).prt = m.prt := rfl
@[simp] theorem modTmon_ui (m : Mach) (j : Nat) (f : Tmon → Tmon) : (modTmon m j f).ui = m.ui := rfl
@[simp] theorem modTmon_pd (m : Mach) (j : Nat) (f : Tmon → Tmon) : (modTmon m j f).pd = m.pd := rfl
@[simp] theorem modTmon_core (m : Mach) (j : Nat) (f : Tmon → Tmon) : (modTmon m j f).core = m.core := rfl
@[simp] theorem modTmon_serves (m : Mach) (j : Nat) (f : Tmon → Tmon) : (modTmon m j f).serves = m.serves := rfl
@[simp] theorem modTmon_bay (m : Mach) (j : Nat) (f : Tmon → Tmon) : (modTmon m j f).bay = m.bay := rfl
@[simp] theorem modTmon_keys (m : Mach) (j : Nat) (f : Tmon → Tmon) : (modTmon m j f).keys = m.keys := rfl
@[simp] theorem modTmon_recs (m : Mach) (j : Nat) (f : Tmon → Tmon) : (modTmon m j f).recs = m.recs := rfl
@[simp] theorem modTmon_ctx (m : Mach) (j : Nat) (f : Tmon → Tmon) : (modTmon m j f).ctx = m.ctx := rfl
@[simp] theorem modTmon_est (m : Mach) (j : Nat) (f : Tmon → Tmon) : (modTmon m j f).est = m.est := rfl
@[simp] theorem modTmon_thm (m : Mach) (j : Nat) (f : Tmon → Tmon) : (modTmon m j f).thm = m.thm := rfl

@[simp] theorem getTmon_modTmon_same (m : Mach) (f : Tmon → Tmon) {j : Nat} (h : j < 16) :
    getTmon (modTmon m j f) j = f (getTmon m j) := tget_tupd_same _ _ f h

@[simp] theorem getTmon_modTmon_ne (m : Mach) (f : Tmon → Tmon) {j j' : Nat} (h : j ≠ j') :
    getTmon (modTmon m j f) j' = getTmon m j' := tget_tupd_ne _ _ f h

@[simp] theorem getCv_modTmon (m : Mach) (q j' : Nat) (f : Tmon → Tmon) : getCv (modTmon m j' f) q = getCv m q := rfl
@[simp] theorem getBlk_modTmon (m : Mach) (q j' : Nat) (f : Tmon → Tmon) : getBlk (modTmon m j' f) q = getBlk m q := rfl
@[simp] theorem getPort_modTmon (m : Mach) (q j' : Nat) (f : Tmon → Tmon) : getPort (modTmon m j' f) q = getPort m q := rfl
@[simp] theorem getPd_modTmon (m : Mach) (q j' : Nat) (f : Tmon → Tmon) : getPd (modTmon m j' f) q = getPd m q := rfl
@[simp] theorem getBay_modTmon (m : Mach) (q j' : Nat) (f : Tmon → Tmon) : getBay (modTmon m j' f) q = getBay m q := rfl
@[simp] theorem getInp_modTmon (m : Mach) (q j' : Nat) (f : Tmon → Tmon) : getInp (modTmon m j' f) q = getInp m q := rfl
@[simp] theorem getChg_modTmon (m : Mach) (q j' : Nat) (f : Tmon → Tmon) : getChg (modTmon m j' f) q = getChg m q := rfl
@[simp] theorem getHold_modTmon (m : Mach) (q j' : Nat) (f : Tmon → Tmon) : getHold (modTmon m j' f) q = getHold m q := rfl
@[simp] theorem getCtx_modTmon (m : Mach) (q j' : Nat) (f : Tmon → Tmon) : getCtx (modTmon m j' f) q = getCtx m q := rfl
@[simp] theorem getSlot_modTmon (m : Mach) (q j' : Nat) (f : Tmon → Tmon) : getSlot (modTmon m j' f) q = getSlot m q := rfl
@[simp] theorem getCore_modTmon (m : Mach) (q j' : Nat) (f : Tmon → Tmon) : getCore (modTmon m j' f) q = getCore m q := rfl
@[simp] theorem getProc_modTmon (m : Mach) (q j' : Nat) (f : Tmon → Tmon) : getProc (modTmon m j' f) q = getProc m q := rfl
@[simp] theorem getSens_modTmon (m : Mach) (q j' : Nat) (f : Tmon → Tmon) : getSens (modTmon m j' f) q = getSens m q := rfl
@[simp] theorem getKey_modTmon (m : Mach) (q j' : Nat) (f : Tmon → Tmon) : getKey (modTmon m j' f) q = getKey m q := rfl

/-! ### modSlot -/

@[simp] theorem modSlot_dev (m : Mach) (s : Nat) (f : Slot → Slot) : (modSlot m s f).dev = m.dev := rfl
@[simp] theorem modSlot_host (m : Mach) (s : Nat) (f : Slot → Slot) : (modSlot m s f).host = m.host := rfl
@[simp] theorem modSlot_blk (m : Mach) (s : Nat) (f : Slot → Slot) : (modSlot m s f).blk = m.blk := rfl
@[simp] theorem modSlot_grd (m : Mach) (s : Nat) (f : Slot → Slot) : (modSlot m s f).grd = m.grd := rfl
@[simp] theorem modSlot_wdh (m : Mach) (s : Nat) (f : Slot → Slot) : (modSlot m s f).wdh = m.wdh := rfl
@[simp] theorem modSlot_wds (m : Mach) (s : Nat) (f : Slot → Slot) : (modSlot m s f).wds = m.wds := rfl
@[simp] theorem modSlot_nvm (m : Mach) (s : Nat) (f : Slot → Slot) : (modSlot m s f).nvm = m.nvm := rfl
@[simp] theorem modSlot_pwr (m : Mach) (s : Nat) (f : Slot → Slot) : (modSlot m s f).pwr = m.pwr := rfl
@[simp] theorem modSlot_upd (m : Mach) (s : Nat) (f : Slot → Slot) : (modSlot m s f).upd = m.upd := rfl
@[simp] theorem modSlot_svc (m : Mach) (s : Nat) (f : Slot → Slot) : (modSlot m s f).svc = m.svc := rfl
@[simp] theorem modSlot_cnv (m : Mach) (s : Nat) (f : Slot → Slot) : (modSlot m s f).cnv = m.cnv := rfl
@[simp] theorem modSlot_spares (m : Mach) (s : Nat) (f : Slot → Slot) : (modSlot m s f).spares = m.spares := rfl
@[simp] theorem modSlot_adc (m : Mach) (s : Nat) (f : Slot → Slot) : (modSlot m s f).adc = m.adc := rfl
@[simp] theorem modSlot_tmon (m : Mach) (s : Nat) (f : Slot → Slot) : (modSlot m s f).tmon = m.tmon := rfl
@[simp] theorem modSlot_eng (m : Mach) (s : Nat) (f : Slot → Slot) : (modSlot m s f).eng = m.eng := rfl
@[simp] theorem modSlot_path (m : Mach) (s : Nat) (f : Slot → Slot) : (modSlot m s f).path = m.path := rfl
@[simp] theorem modSlot_inp (m : Mach) (s : Nat) (f : Slot → Slot) : (modSlot m s f).inp = m.inp := rfl
@[simp] theorem modSlot_sto (m : Mach) (s : Nat) (f : Slot → Slot) : (modSlot m s f).sto = m.sto := rfl
@[simp] theorem modSlot_chg (m : Mach) (s : Nat) (f : Slot → Slot) : (modSlot m s f).chg = m.chg := rfl
@[simp] theorem modSlot_aux (m : Mach) (s : Nat) (f : Slot → Slot) : (modSlot m s f).aux = m.aux := rfl
@[simp] theorem modSlot_lft (m : Mach) (s : Nat) (f : Slot → Slot) : (modSlot m s f).lft = m.lft := rfl
@[simp] theorem modSlot_prt (m : Mach) (s : Nat) (f : Slot → Slot) : (modSlot m s f).prt = m.prt := rfl
@[simp] theorem modSlot_ui (m : Mach) (s : Nat) (f : Slot → Slot) : (modSlot m s f).ui = m.ui := rfl
@[simp] theorem modSlot_pd (m : Mach) (s : Nat) (f : Slot → Slot) : (modSlot m s f).pd = m.pd := rfl
@[simp] theorem modSlot_core (m : Mach) (s : Nat) (f : Slot → Slot) : (modSlot m s f).core = m.core := rfl
@[simp] theorem modSlot_serves (m : Mach) (s : Nat) (f : Slot → Slot) : (modSlot m s f).serves = m.serves := rfl
@[simp] theorem modSlot_bay (m : Mach) (s : Nat) (f : Slot → Slot) : (modSlot m s f).bay = m.bay := rfl
@[simp] theorem modSlot_keys (m : Mach) (s : Nat) (f : Slot → Slot) : (modSlot m s f).keys = m.keys := rfl
@[simp] theorem modSlot_recs (m : Mach) (s : Nat) (f : Slot → Slot) : (modSlot m s f).recs = m.recs := rfl
@[simp] theorem modSlot_ctx (m : Mach) (s : Nat) (f : Slot → Slot) : (modSlot m s f).ctx = m.ctx := rfl
@[simp] theorem modSlot_est (m : Mach) (s : Nat) (f : Slot → Slot) : (modSlot m s f).est = m.est := rfl
@[simp] theorem modSlot_thm (m : Mach) (s : Nat) (f : Slot → Slot) : (modSlot m s f).thm = m.thm := rfl
@[simp] theorem modSlot_mbx_mem (m : Mach) (s : Nat) (f : Slot → Slot) : (modSlot m s f).mbx.mem = m.mbx.mem := rfl
@[simp] theorem modSlot_mbx_order (m : Mach) (s : Nat) (f : Slot → Slot) : (modSlot m s f).mbx.order = m.mbx.order := rfl
@[simp] theorem modSlot_mbx_accepted (m : Mach) (s : Nat) (f : Slot → Slot) : (modSlot m s f).mbx.accepted = m.mbx.accepted := rfl
@[simp] theorem modSlot_mbx_eccBad (m : Mach) (s : Nat) (f : Slot → Slot) : (modSlot m s f).mbx.eccBad = m.mbx.eccBad := rfl
@[simp] theorem modSlot_mbx_eccPd (m : Mach) (s : Nat) (f : Slot → Slot) : (modSlot m s f).mbx.eccPd = m.mbx.eccPd := rfl
@[simp] theorem modSlot_mbx_ring (m : Mach) (s : Nat) (f : Slot → Slot) : (modSlot m s f).mbx.ring = m.mbx.ring := rfl
@[simp] theorem modSlot_mbx_nextSeq (m : Mach) (s : Nat) (f : Slot → Slot) : (modSlot m s f).mbx.nextSeq = m.mbx.nextSeq := rfl
@[simp] theorem modSlot_mbx_waiting (m : Mach) (s : Nat) (f : Slot → Slot) : (modSlot m s f).mbx.waiting = m.mbx.waiting := rfl
@[simp] theorem modSlot_mbx_lost (m : Mach) (s : Nat) (f : Slot → Slot) : (modSlot m s f).mbx.lost = m.mbx.lost := rfl

@[simp] theorem getSlot_modSlot_same (m : Mach) (f : Slot → Slot) {s : Nat} (h : s < 5) :
    getSlot (modSlot m s f) s = f (getSlot m s) := tget_tupd_same _ _ f h

@[simp] theorem getSlot_modSlot_ne (m : Mach) (f : Slot → Slot) {s j' : Nat} (h : s ≠ j') :
    getSlot (modSlot m s f) j' = getSlot m j' := tget_tupd_ne _ _ f h

@[simp] theorem getCv_modSlot (m : Mach) (q s' : Nat) (f : Slot → Slot) : getCv (modSlot m s' f) q = getCv m q := rfl
@[simp] theorem getBlk_modSlot (m : Mach) (q s' : Nat) (f : Slot → Slot) : getBlk (modSlot m s' f) q = getBlk m q := rfl
@[simp] theorem getPort_modSlot (m : Mach) (q s' : Nat) (f : Slot → Slot) : getPort (modSlot m s' f) q = getPort m q := rfl
@[simp] theorem getPd_modSlot (m : Mach) (q s' : Nat) (f : Slot → Slot) : getPd (modSlot m s' f) q = getPd m q := rfl
@[simp] theorem getBay_modSlot (m : Mach) (q s' : Nat) (f : Slot → Slot) : getBay (modSlot m s' f) q = getBay m q := rfl
@[simp] theorem getInp_modSlot (m : Mach) (q s' : Nat) (f : Slot → Slot) : getInp (modSlot m s' f) q = getInp m q := rfl
@[simp] theorem getChg_modSlot (m : Mach) (q s' : Nat) (f : Slot → Slot) : getChg (modSlot m s' f) q = getChg m q := rfl
@[simp] theorem getHold_modSlot (m : Mach) (q s' : Nat) (f : Slot → Slot) : getHold (modSlot m s' f) q = getHold m q := rfl
@[simp] theorem getCtx_modSlot (m : Mach) (q s' : Nat) (f : Slot → Slot) : getCtx (modSlot m s' f) q = getCtx m q := rfl
@[simp] theorem getTmon_modSlot (m : Mach) (q s' : Nat) (f : Slot → Slot) : getTmon (modSlot m s' f) q = getTmon m q := rfl
@[simp] theorem getCore_modSlot (m : Mach) (q s' : Nat) (f : Slot → Slot) : getCore (modSlot m s' f) q = getCore m q := rfl
@[simp] theorem getProc_modSlot (m : Mach) (q s' : Nat) (f : Slot → Slot) : getProc (modSlot m s' f) q = getProc m q := rfl
@[simp] theorem getSens_modSlot (m : Mach) (q s' : Nat) (f : Slot → Slot) : getSens (modSlot m s' f) q = getSens m q := rfl
@[simp] theorem getKey_modSlot (m : Mach) (q s' : Nat) (f : Slot → Slot) : getKey (modSlot m s' f) q = getKey m q := rfl

/-! ### modCore -/

@[simp] theorem modCore_dev (m : Mach) (k : Nat) (f : Core → Core) : (modCore m k f).dev = m.dev := rfl
@[simp] theorem modCore_host (m : Mach) (k : Nat) (f : Core → Core) : (modCore m k f).host = m.host := rfl
@[simp] theorem modCore_mbx (m : Mach) (k : Nat) (f : Core → Core) : (modCore m k f).mbx = m.mbx := rfl
@[simp] theorem modCore_blk (m : Mach) (k : Nat) (f : Core → Core) : (modCore m k f).blk = m.blk := rfl
@[simp] theorem modCore_grd (m : Mach) (k : Nat) (f : Core → Core) : (modCore m k f).grd = m.grd := rfl
@[simp] theorem modCore_wdh (m : Mach) (k : Nat) (f : Core → Core) : (modCore m k f).wdh = m.wdh := rfl
@[simp] theorem modCore_wds (m : Mach) (k : Nat) (f : Core → Core) : (modCore m k f).wds = m.wds := rfl
@[simp] theorem modCore_nvm (m : Mach) (k : Nat) (f : Core → Core) : (modCore m k f).nvm = m.nvm := rfl
@[simp] theorem modCore_pwr (m : Mach) (k : Nat) (f : Core → Core) : (modCore m k f).pwr = m.pwr := rfl
@[simp] theorem modCore_upd (m : Mach) (k : Nat) (f : Core → Core) : (modCore m k f).upd = m.upd := rfl
@[simp] theorem modCore_svc (m : Mach) (k : Nat) (f : Core → Core) : (modCore m k f).svc = m.svc := rfl
@[simp] theorem modCore_cnv (m : Mach) (k : Nat) (f : Core → Core) : (modCore m k f).cnv = m.cnv := rfl
@[simp] theorem modCore_spares (m : Mach) (k : Nat) (f : Core → Core) : (modCore m k f).spares = m.spares := rfl
@[simp] theorem modCore_adc (m : Mach) (k : Nat) (f : Core → Core) : (modCore m k f).adc = m.adc := rfl
@[simp] theorem modCore_tmon (m : Mach) (k : Nat) (f : Core → Core) : (modCore m k f).tmon = m.tmon := rfl
@[simp] theorem modCore_eng (m : Mach) (k : Nat) (f : Core → Core) : (modCore m k f).eng = m.eng := rfl
@[simp] theorem modCore_path (m : Mach) (k : Nat) (f : Core → Core) : (modCore m k f).path = m.path := rfl
@[simp] theorem modCore_inp (m : Mach) (k : Nat) (f : Core → Core) : (modCore m k f).inp = m.inp := rfl
@[simp] theorem modCore_sto (m : Mach) (k : Nat) (f : Core → Core) : (modCore m k f).sto = m.sto := rfl
@[simp] theorem modCore_chg (m : Mach) (k : Nat) (f : Core → Core) : (modCore m k f).chg = m.chg := rfl
@[simp] theorem modCore_aux (m : Mach) (k : Nat) (f : Core → Core) : (modCore m k f).aux = m.aux := rfl
@[simp] theorem modCore_lft (m : Mach) (k : Nat) (f : Core → Core) : (modCore m k f).lft = m.lft := rfl
@[simp] theorem modCore_prt (m : Mach) (k : Nat) (f : Core → Core) : (modCore m k f).prt = m.prt := rfl
@[simp] theorem modCore_ui (m : Mach) (k : Nat) (f : Core → Core) : (modCore m k f).ui = m.ui := rfl
@[simp] theorem modCore_pd (m : Mach) (k : Nat) (f : Core → Core) : (modCore m k f).pd = m.pd := rfl
@[simp] theorem modCore_serves (m : Mach) (k : Nat) (f : Core → Core) : (modCore m k f).serves = m.serves := rfl
@[simp] theorem modCore_bay (m : Mach) (k : Nat) (f : Core → Core) : (modCore m k f).bay = m.bay := rfl
@[simp] theorem modCore_keys (m : Mach) (k : Nat) (f : Core → Core) : (modCore m k f).keys = m.keys := rfl
@[simp] theorem modCore_recs (m : Mach) (k : Nat) (f : Core → Core) : (modCore m k f).recs = m.recs := rfl
@[simp] theorem modCore_ctx (m : Mach) (k : Nat) (f : Core → Core) : (modCore m k f).ctx = m.ctx := rfl
@[simp] theorem modCore_est (m : Mach) (k : Nat) (f : Core → Core) : (modCore m k f).est = m.est := rfl
@[simp] theorem modCore_thm (m : Mach) (k : Nat) (f : Core → Core) : (modCore m k f).thm = m.thm := rfl

@[simp] theorem getCore_modCore_same (m : Mach) (f : Core → Core) {k : Nat} (h : k < 8) :
    getCore (modCore m k f) k = f (getCore m k) := tget_tupd_same _ _ f h

@[simp] theorem getCore_modCore_ne (m : Mach) (f : Core → Core) {k j' : Nat} (h : k ≠ j') :
    getCore (modCore m k f) j' = getCore m j' := tget_tupd_ne _ _ f h

@[simp] theorem getCv_modCore (m : Mach) (q k' : Nat) (f : Core → Core) : getCv (modCore m k' f) q = getCv m q := rfl
@[simp] theorem getBlk_modCore (m : Mach) (q k' : Nat) (f : Core → Core) : getBlk (modCore m k' f) q = getBlk m q := rfl
@[simp] theorem getPort_modCore (m : Mach) (q k' : Nat) (f : Core → Core) : getPort (modCore m k' f) q = getPort m q := rfl
@[simp] theorem getPd_modCore (m : Mach) (q k' : Nat) (f : Core → Core) : getPd (modCore m k' f) q = getPd m q := rfl
@[simp] theorem getBay_modCore (m : Mach) (q k' : Nat) (f : Core → Core) : getBay (modCore m k' f) q = getBay m q := rfl
@[simp] theorem getInp_modCore (m : Mach) (q k' : Nat) (f : Core → Core) : getInp (modCore m k' f) q = getInp m q := rfl
@[simp] theorem getChg_modCore (m : Mach) (q k' : Nat) (f : Core → Core) : getChg (modCore m k' f) q = getChg m q := rfl
@[simp] theorem getHold_modCore (m : Mach) (q k' : Nat) (f : Core → Core) : getHold (modCore m k' f) q = getHold m q := rfl
@[simp] theorem getCtx_modCore (m : Mach) (q k' : Nat) (f : Core → Core) : getCtx (modCore m k' f) q = getCtx m q := rfl
@[simp] theorem getTmon_modCore (m : Mach) (q k' : Nat) (f : Core → Core) : getTmon (modCore m k' f) q = getTmon m q := rfl
@[simp] theorem getSlot_modCore (m : Mach) (q k' : Nat) (f : Core → Core) : getSlot (modCore m k' f) q = getSlot m q := rfl
@[simp] theorem getProc_modCore (m : Mach) (q k' : Nat) (f : Core → Core) : getProc (modCore m k' f) q = getProc m q := rfl
@[simp] theorem getSens_modCore (m : Mach) (q k' : Nat) (f : Core → Core) : getSens (modCore m k' f) q = getSens m q := rfl
@[simp] theorem getKey_modCore (m : Mach) (q k' : Nat) (f : Core → Core) : getKey (modCore m k' f) q = getKey m q := rfl

/-! ### modProc -/

@[simp] theorem modProc_dev (m : Mach) (a : Nat) (f : Proc → Proc) : (modProc m a f).dev = m.dev := rfl
@[simp] theorem modProc_host (m : Mach) (a : Nat) (f : Proc → Proc) : (modProc m a f).host = m.host := rfl
@[simp] theorem modProc_mbx (m : Mach) (a : Nat) (f : Proc → Proc) : (modProc m a f).mbx = m.mbx := rfl
@[simp] theorem modProc_blk (m : Mach) (a : Nat) (f : Proc → Proc) : (modProc m a f).blk = m.blk := rfl
@[simp] theorem modProc_wdh (m : Mach) (a : Nat) (f : Proc → Proc) : (modProc m a f).wdh = m.wdh := rfl
@[simp] theorem modProc_wds (m : Mach) (a : Nat) (f : Proc → Proc) : (modProc m a f).wds = m.wds := rfl
@[simp] theorem modProc_nvm (m : Mach) (a : Nat) (f : Proc → Proc) : (modProc m a f).nvm = m.nvm := rfl
@[simp] theorem modProc_pwr (m : Mach) (a : Nat) (f : Proc → Proc) : (modProc m a f).pwr = m.pwr := rfl
@[simp] theorem modProc_upd (m : Mach) (a : Nat) (f : Proc → Proc) : (modProc m a f).upd = m.upd := rfl
@[simp] theorem modProc_svc (m : Mach) (a : Nat) (f : Proc → Proc) : (modProc m a f).svc = m.svc := rfl
@[simp] theorem modProc_cnv (m : Mach) (a : Nat) (f : Proc → Proc) : (modProc m a f).cnv = m.cnv := rfl
@[simp] theorem modProc_spares (m : Mach) (a : Nat) (f : Proc → Proc) : (modProc m a f).spares = m.spares := rfl
@[simp] theorem modProc_adc (m : Mach) (a : Nat) (f : Proc → Proc) : (modProc m a f).adc = m.adc := rfl
@[simp] theorem modProc_tmon (m : Mach) (a : Nat) (f : Proc → Proc) : (modProc m a f).tmon = m.tmon := rfl
@[simp] theorem modProc_eng (m : Mach) (a : Nat) (f : Proc → Proc) : (modProc m a f).eng = m.eng := rfl
@[simp] theorem modProc_path (m : Mach) (a : Nat) (f : Proc → Proc) : (modProc m a f).path = m.path := rfl
@[simp] theorem modProc_inp (m : Mach) (a : Nat) (f : Proc → Proc) : (modProc m a f).inp = m.inp := rfl
@[simp] theorem modProc_sto (m : Mach) (a : Nat) (f : Proc → Proc) : (modProc m a f).sto = m.sto := rfl
@[simp] theorem modProc_chg (m : Mach) (a : Nat) (f : Proc → Proc) : (modProc m a f).chg = m.chg := rfl
@[simp] theorem modProc_aux (m : Mach) (a : Nat) (f : Proc → Proc) : (modProc m a f).aux = m.aux := rfl
@[simp] theorem modProc_lft (m : Mach) (a : Nat) (f : Proc → Proc) : (modProc m a f).lft = m.lft := rfl
@[simp] theorem modProc_prt (m : Mach) (a : Nat) (f : Proc → Proc) : (modProc m a f).prt = m.prt := rfl
@[simp] theorem modProc_ui (m : Mach) (a : Nat) (f : Proc → Proc) : (modProc m a f).ui = m.ui := rfl
@[simp] theorem modProc_pd (m : Mach) (a : Nat) (f : Proc → Proc) : (modProc m a f).pd = m.pd := rfl
@[simp] theorem modProc_core (m : Mach) (a : Nat) (f : Proc → Proc) : (modProc m a f).core = m.core := rfl
@[simp] theorem modProc_serves (m : Mach) (a : Nat) (f : Proc → Proc) : (modProc m a f).serves = m.serves := rfl
@[simp] theorem modProc_bay (m : Mach) (a : Nat) (f : Proc → Proc) : (modProc m a f).bay = m.bay := rfl
@[simp] theorem modProc_keys (m : Mach) (a : Nat) (f : Proc → Proc) : (modProc m a f).keys = m.keys := rfl
@[simp] theorem modProc_recs (m : Mach) (a : Nat) (f : Proc → Proc) : (modProc m a f).recs = m.recs := rfl
@[simp] theorem modProc_ctx (m : Mach) (a : Nat) (f : Proc → Proc) : (modProc m a f).ctx = m.ctx := rfl
@[simp] theorem modProc_est (m : Mach) (a : Nat) (f : Proc → Proc) : (modProc m a f).est = m.est := rfl
@[simp] theorem modProc_thm (m : Mach) (a : Nat) (f : Proc → Proc) : (modProc m a f).thm = m.thm := rfl
@[simp] theorem modProc_grd_owner (m : Mach) (a : Nat) (f : Proc → Proc) : (modProc m a f).grd.owner = m.grd.owner := rfl
@[simp] theorem modProc_grd_hold (m : Mach) (a : Nat) (f : Proc → Proc) : (modProc m a f).grd.hold = m.grd.hold := rfl
@[simp] theorem modProc_grd_holdParked (m : Mach) (a : Nat) (f : Proc → Proc) : (modProc m a f).grd.holdParked = m.grd.holdParked := rfl
@[simp] theorem modProc_grd_holdAt (m : Mach) (a : Nat) (f : Proc → Proc) : (modProc m a f).grd.holdAt = m.grd.holdAt := rfl
@[simp] theorem modProc_grd_failovers (m : Mach) (a : Nat) (f : Proc → Proc) : (modProc m a f).grd.failovers = m.grd.failovers := rfl
@[simp] theorem modProc_grd_handovers (m : Mach) (a : Nat) (f : Proc → Proc) : (modProc m a f).grd.handovers = m.grd.handovers := rfl
@[simp] theorem modProc_grd_handover (m : Mach) (a : Nat) (f : Proc → Proc) : (modProc m a f).grd.handover = m.grd.handover := rfl
@[simp] theorem modProc_grd_failingProc (m : Mach) (a : Nat) (f : Proc → Proc) : (modProc m a f).grd.failingProc = m.grd.failingProc := rfl
@[simp] theorem modProc_grd_haltAckBy (m : Mach) (a : Nat) (f : Proc → Proc) : (modProc m a f).grd.haltAckBy = m.grd.haltAckBy := rfl
@[simp] theorem modProc_grd_lastFailover (m : Mach) (a : Nat) (f : Proc → Proc) : (modProc m a f).grd.lastFailover = m.grd.lastFailover := rfl
@[simp] theorem modProc_grd_holdTimeS (m : Mach) (a : Nat) (f : Proc → Proc) : (modProc m a f).grd.holdTimeS = m.grd.holdTimeS := rfl
@[simp] theorem modProc_grd_wdhPark (m : Mach) (a : Nat) (f : Proc → Proc) : (modProc m a f).grd.wdhPark = m.grd.wdhPark := rfl
@[simp] theorem modProc_grd_parkNext (m : Mach) (a : Nat) (f : Proc → Proc) : (modProc m a f).grd.parkNext = m.grd.parkNext := rfl
@[simp] theorem modProc_grd_parkAt (m : Mach) (a : Nat) (f : Proc → Proc) : (modProc m a f).grd.parkAt = m.grd.parkAt := rfl
@[simp] theorem modProc_grd_parkedPorts (m : Mach) (a : Nat) (f : Proc → Proc) : (modProc m a f).grd.parkedPorts = m.grd.parkedPorts := rfl
@[simp] theorem modProc_grd_afterReset (m : Mach) (a : Nat) (f : Proc → Proc) : (modProc m a f).grd.afterReset = m.grd.afterReset := rfl
@[simp] theorem modProc_grd_escHalt (m : Mach) (a : Nat) (f : Proc → Proc) : (modProc m a f).grd.escHalt = m.grd.escHalt := rfl
@[simp] theorem modProc_grd_limits (m : Mach) (a : Nat) (f : Proc → Proc) : (modProc m a f).grd.limits = m.grd.limits := rfl
@[simp] theorem modProc_grd_shadow (m : Mach) (a : Nat) (f : Proc → Proc) : (modProc m a f).grd.shadow = m.grd.shadow := rfl
@[simp] theorem modProc_grd_windows (m : Mach) (a : Nat) (f : Proc → Proc) : (modProc m a f).grd.windows = m.grd.windows := rfl
@[simp] theorem modProc_grd_clkLost (m : Mach) (a : Nat) (f : Proc → Proc) : (modProc m a f).grd.clkLost = m.grd.clkLost := rfl
@[simp] theorem modProc_grd_tsd (m : Mach) (a : Nat) (f : Proc → Proc) : (modProc m a f).grd.tsd = m.grd.tsd := rfl
@[simp] theorem modProc_grd_tsdReleased (m : Mach) (a : Nat) (f : Proc → Proc) : (modProc m a f).grd.tsdReleased = m.grd.tsdReleased := rfl
@[simp] theorem modProc_grd_tsdHeld (m : Mach) (a : Nat) (f : Proc → Proc) : (modProc m a f).grd.tsdHeld = m.grd.tsdHeld := rfl
@[simp] theorem modProc_grd_tsdSeen (m : Mach) (a : Nat) (f : Proc → Proc) : (modProc m a f).grd.tsdSeen = m.grd.tsdSeen := rfl
@[simp] theorem modProc_grd_restarts (m : Mach) (a : Nat) (f : Proc → Proc) : (modProc m a f).grd.restarts = m.grd.restarts := rfl
@[simp] theorem modProc_grd_restartAt (m : Mach) (a : Nat) (f : Proc → Proc) : (modProc m a f).grd.restartAt = m.grd.restartAt := rfl
@[simp] theorem modProc_grd_sysCritHi (m : Mach) (a : Nat) (f : Proc → Proc) : (modProc m a f).grd.sysCritHi = m.grd.sysCritHi := rfl

@[simp] theorem getProc_modProc_same (m : Mach) (f : Proc → Proc) {a : Nat} (h : a < 2) :
    getProc (modProc m a f) a = f (getProc m a) := tget_tupd_same _ _ f h

@[simp] theorem getProc_modProc_ne (m : Mach) (f : Proc → Proc) {a j' : Nat} (h : a ≠ j') :
    getProc (modProc m a f) j' = getProc m j' := tget_tupd_ne _ _ f h

@[simp] theorem getCv_modProc (m : Mach) (q a' : Nat) (f : Proc → Proc) : getCv (modProc m a' f) q = getCv m q := rfl
@[simp] theorem getBlk_modProc (m : Mach) (q a' : Nat) (f : Proc → Proc) : getBlk (modProc m a' f) q = getBlk m q := rfl
@[simp] theorem getPort_modProc (m : Mach) (q a' : Nat) (f : Proc → Proc) : getPort (modProc m a' f) q = getPort m q := rfl
@[simp] theorem getPd_modProc (m : Mach) (q a' : Nat) (f : Proc → Proc) : getPd (modProc m a' f) q = getPd m q := rfl
@[simp] theorem getBay_modProc (m : Mach) (q a' : Nat) (f : Proc → Proc) : getBay (modProc m a' f) q = getBay m q := rfl
@[simp] theorem getInp_modProc (m : Mach) (q a' : Nat) (f : Proc → Proc) : getInp (modProc m a' f) q = getInp m q := rfl
@[simp] theorem getChg_modProc (m : Mach) (q a' : Nat) (f : Proc → Proc) : getChg (modProc m a' f) q = getChg m q := rfl
@[simp] theorem getHold_modProc (m : Mach) (q a' : Nat) (f : Proc → Proc) : getHold (modProc m a' f) q = getHold m q := rfl
@[simp] theorem getCtx_modProc (m : Mach) (q a' : Nat) (f : Proc → Proc) : getCtx (modProc m a' f) q = getCtx m q := rfl
@[simp] theorem getTmon_modProc (m : Mach) (q a' : Nat) (f : Proc → Proc) : getTmon (modProc m a' f) q = getTmon m q := rfl
@[simp] theorem getSlot_modProc (m : Mach) (q a' : Nat) (f : Proc → Proc) : getSlot (modProc m a' f) q = getSlot m q := rfl
@[simp] theorem getCore_modProc (m : Mach) (q a' : Nat) (f : Proc → Proc) : getCore (modProc m a' f) q = getCore m q := rfl
@[simp] theorem getSens_modProc (m : Mach) (q a' : Nat) (f : Proc → Proc) : getSens (modProc m a' f) q = getSens m q := rfl
@[simp] theorem getKey_modProc (m : Mach) (q a' : Nat) (f : Proc → Proc) : getKey (modProc m a' f) q = getKey m q := rfl

/-! ### modSens -/

@[simp] theorem modSens_dev (m : Mach) (x : Nat) (f : Sensor → Sensor) : (modSens m x f).dev = m.dev := rfl
@[simp] theorem modSens_host (m : Mach) (x : Nat) (f : Sensor → Sensor) : (modSens m x f).host = m.host := rfl
@[simp] theorem modSens_mbx (m : Mach) (x : Nat) (f : Sensor → Sensor) : (modSens m x f).mbx = m.mbx := rfl
@[simp] theorem modSens_blk (m : Mach) (x : Nat) (f : Sensor → Sensor) : (modSens m x f).blk = m.blk := rfl
@[simp] theorem modSens_grd (m : Mach) (x : Nat) (f : Sensor → Sensor) : (modSens m x f).grd = m.grd := rfl
@[simp] theorem modSens_wdh (m : Mach) (x : Nat) (f : Sensor → Sensor) : (modSens m x f).wdh = m.wdh := rfl
@[simp] theorem modSens_wds (m : Mach) (x : Nat) (f : Sensor → Sensor) : (modSens m x f).wds = m.wds := rfl
@[simp] theorem modSens_nvm (m : Mach) (x : Nat) (f : Sensor → Sensor) : (modSens m x f).nvm = m.nvm := rfl
@[simp] theorem modSens_pwr (m : Mach) (x : Nat) (f : Sensor → Sensor) : (modSens m x f).pwr = m.pwr := rfl
@[simp] theorem modSens_upd (m : Mach) (x : Nat) (f : Sensor → Sensor) : (modSens m x f).upd = m.upd := rfl
@[simp] theorem modSens_svc (m : Mach) (x : Nat) (f : Sensor → Sensor) : (modSens m x f).svc = m.svc := rfl
@[simp] theorem modSens_cnv (m : Mach) (x : Nat) (f : Sensor → Sensor) : (modSens m x f).cnv = m.cnv := rfl
@[simp] theorem modSens_spares (m : Mach) (x : Nat) (f : Sensor → Sensor) : (modSens m x f).spares = m.spares := rfl
@[simp] theorem modSens_adc (m : Mach) (x : Nat) (f : Sensor → Sensor) : (modSens m x f).adc = m.adc := rfl
@[simp] theorem modSens_tmon (m : Mach) (x : Nat) (f : Sensor → Sensor) : (modSens m x f).tmon = m.tmon := rfl
@[simp] theorem modSens_eng (m : Mach) (x : Nat) (f : Sensor → Sensor) : (modSens m x f).eng = m.eng := rfl
@[simp] theorem modSens_path (m : Mach) (x : Nat) (f : Sensor → Sensor) : (modSens m x f).path = m.path := rfl
@[simp] theorem modSens_inp (m : Mach) (x : Nat) (f : Sensor → Sensor) : (modSens m x f).inp = m.inp := rfl
@[simp] theorem modSens_sto (m : Mach) (x : Nat) (f : Sensor → Sensor) : (modSens m x f).sto = m.sto := rfl
@[simp] theorem modSens_chg (m : Mach) (x : Nat) (f : Sensor → Sensor) : (modSens m x f).chg = m.chg := rfl
@[simp] theorem modSens_aux (m : Mach) (x : Nat) (f : Sensor → Sensor) : (modSens m x f).aux = m.aux := rfl
@[simp] theorem modSens_lft (m : Mach) (x : Nat) (f : Sensor → Sensor) : (modSens m x f).lft = m.lft := rfl
@[simp] theorem modSens_prt (m : Mach) (x : Nat) (f : Sensor → Sensor) : (modSens m x f).prt = m.prt := rfl
@[simp] theorem modSens_ui (m : Mach) (x : Nat) (f : Sensor → Sensor) : (modSens m x f).ui = m.ui := rfl
@[simp] theorem modSens_pd (m : Mach) (x : Nat) (f : Sensor → Sensor) : (modSens m x f).pd = m.pd := rfl
@[simp] theorem modSens_core (m : Mach) (x : Nat) (f : Sensor → Sensor) : (modSens m x f).core = m.core := rfl
@[simp] theorem modSens_serves (m : Mach) (x : Nat) (f : Sensor → Sensor) : (modSens m x f).serves = m.serves := rfl
@[simp] theorem modSens_bay (m : Mach) (x : Nat) (f : Sensor → Sensor) : (modSens m x f).bay = m.bay := rfl
@[simp] theorem modSens_keys (m : Mach) (x : Nat) (f : Sensor → Sensor) : (modSens m x f).keys = m.keys := rfl
@[simp] theorem modSens_recs (m : Mach) (x : Nat) (f : Sensor → Sensor) : (modSens m x f).recs = m.recs := rfl
@[simp] theorem modSens_ctx (m : Mach) (x : Nat) (f : Sensor → Sensor) : (modSens m x f).ctx = m.ctx := rfl
@[simp] theorem modSens_est (m : Mach) (x : Nat) (f : Sensor → Sensor) : (modSens m x f).est = m.est := rfl
@[simp] theorem modSens_thm_classes (m : Mach) (x : Nat) (f : Sensor → Sensor) : (modSens m x f).thm.classes = m.thm.classes := rfl
@[simp] theorem modSens_thm_caps (m : Mach) (x : Nat) (f : Sensor → Sensor) : (modSens m x f).thm.caps = m.thm.caps := rfl
@[simp] theorem modSens_thm_hoverSeen (m : Mach) (x : Nat) (f : Sensor → Sensor) : (modSens m x f).thm.hoverSeen = m.thm.hoverSeen := rfl
@[simp] theorem modSens_thm_tsdSeen (m : Mach) (x : Nat) (f : Sensor → Sensor) : (modSens m x f).thm.tsdSeen = m.thm.tsdSeen := rfl

@[simp] theorem getSens_modSens_same (m : Mach) (f : Sensor → Sensor) {x : Nat} (h : x < 94) :
    getSens (modSens m x f) x = f (getSens m x) := tget_tupd_same _ _ f h

@[simp] theorem getSens_modSens_ne (m : Mach) (f : Sensor → Sensor) {x j' : Nat} (h : x ≠ j') :
    getSens (modSens m x f) j' = getSens m j' := tget_tupd_ne _ _ f h

@[simp] theorem getCv_modSens (m : Mach) (q x' : Nat) (f : Sensor → Sensor) : getCv (modSens m x' f) q = getCv m q := rfl
@[simp] theorem getBlk_modSens (m : Mach) (q x' : Nat) (f : Sensor → Sensor) : getBlk (modSens m x' f) q = getBlk m q := rfl
@[simp] theorem getPort_modSens (m : Mach) (q x' : Nat) (f : Sensor → Sensor) : getPort (modSens m x' f) q = getPort m q := rfl
@[simp] theorem getPd_modSens (m : Mach) (q x' : Nat) (f : Sensor → Sensor) : getPd (modSens m x' f) q = getPd m q := rfl
@[simp] theorem getBay_modSens (m : Mach) (q x' : Nat) (f : Sensor → Sensor) : getBay (modSens m x' f) q = getBay m q := rfl
@[simp] theorem getInp_modSens (m : Mach) (q x' : Nat) (f : Sensor → Sensor) : getInp (modSens m x' f) q = getInp m q := rfl
@[simp] theorem getChg_modSens (m : Mach) (q x' : Nat) (f : Sensor → Sensor) : getChg (modSens m x' f) q = getChg m q := rfl
@[simp] theorem getHold_modSens (m : Mach) (q x' : Nat) (f : Sensor → Sensor) : getHold (modSens m x' f) q = getHold m q := rfl
@[simp] theorem getCtx_modSens (m : Mach) (q x' : Nat) (f : Sensor → Sensor) : getCtx (modSens m x' f) q = getCtx m q := rfl
@[simp] theorem getTmon_modSens (m : Mach) (q x' : Nat) (f : Sensor → Sensor) : getTmon (modSens m x' f) q = getTmon m q := rfl
@[simp] theorem getSlot_modSens (m : Mach) (q x' : Nat) (f : Sensor → Sensor) : getSlot (modSens m x' f) q = getSlot m q := rfl
@[simp] theorem getCore_modSens (m : Mach) (q x' : Nat) (f : Sensor → Sensor) : getCore (modSens m x' f) q = getCore m q := rfl
@[simp] theorem getProc_modSens (m : Mach) (q x' : Nat) (f : Sensor → Sensor) : getProc (modSens m x' f) q = getProc m q := rfl
@[simp] theorem getKey_modSens (m : Mach) (q x' : Nat) (f : Sensor → Sensor) : getKey (modSens m x' f) q = getKey m q := rfl

/-! ### modKey -/

@[simp] theorem modKey_dev (m : Mach) (p : Nat) (f : Key → Key) : (modKey m p f).dev = m.dev := rfl
@[simp] theorem modKey_host (m : Mach) (p : Nat) (f : Key → Key) : (modKey m p f).host = m.host := rfl
@[simp] theorem modKey_mbx (m : Mach) (p : Nat) (f : Key → Key) : (modKey m p f).mbx = m.mbx := rfl
@[simp] theorem modKey_blk (m : Mach) (p : Nat) (f : Key → Key) : (modKey m p f).blk = m.blk := rfl
@[simp] theorem modKey_grd (m : Mach) (p : Nat) (f : Key → Key) : (modKey m p f).grd = m.grd := rfl
@[simp] theorem modKey_wdh (m : Mach) (p : Nat) (f : Key → Key) : (modKey m p f).wdh = m.wdh := rfl
@[simp] theorem modKey_wds (m : Mach) (p : Nat) (f : Key → Key) : (modKey m p f).wds = m.wds := rfl
@[simp] theorem modKey_nvm (m : Mach) (p : Nat) (f : Key → Key) : (modKey m p f).nvm = m.nvm := rfl
@[simp] theorem modKey_pwr (m : Mach) (p : Nat) (f : Key → Key) : (modKey m p f).pwr = m.pwr := rfl
@[simp] theorem modKey_upd (m : Mach) (p : Nat) (f : Key → Key) : (modKey m p f).upd = m.upd := rfl
@[simp] theorem modKey_svc (m : Mach) (p : Nat) (f : Key → Key) : (modKey m p f).svc = m.svc := rfl
@[simp] theorem modKey_cnv (m : Mach) (p : Nat) (f : Key → Key) : (modKey m p f).cnv = m.cnv := rfl
@[simp] theorem modKey_spares (m : Mach) (p : Nat) (f : Key → Key) : (modKey m p f).spares = m.spares := rfl
@[simp] theorem modKey_adc (m : Mach) (p : Nat) (f : Key → Key) : (modKey m p f).adc = m.adc := rfl
@[simp] theorem modKey_tmon (m : Mach) (p : Nat) (f : Key → Key) : (modKey m p f).tmon = m.tmon := rfl
@[simp] theorem modKey_eng (m : Mach) (p : Nat) (f : Key → Key) : (modKey m p f).eng = m.eng := rfl
@[simp] theorem modKey_path (m : Mach) (p : Nat) (f : Key → Key) : (modKey m p f).path = m.path := rfl
@[simp] theorem modKey_inp (m : Mach) (p : Nat) (f : Key → Key) : (modKey m p f).inp = m.inp := rfl
@[simp] theorem modKey_sto (m : Mach) (p : Nat) (f : Key → Key) : (modKey m p f).sto = m.sto := rfl
@[simp] theorem modKey_chg (m : Mach) (p : Nat) (f : Key → Key) : (modKey m p f).chg = m.chg := rfl
@[simp] theorem modKey_aux (m : Mach) (p : Nat) (f : Key → Key) : (modKey m p f).aux = m.aux := rfl
@[simp] theorem modKey_lft (m : Mach) (p : Nat) (f : Key → Key) : (modKey m p f).lft = m.lft := rfl
@[simp] theorem modKey_prt (m : Mach) (p : Nat) (f : Key → Key) : (modKey m p f).prt = m.prt := rfl
@[simp] theorem modKey_pd (m : Mach) (p : Nat) (f : Key → Key) : (modKey m p f).pd = m.pd := rfl
@[simp] theorem modKey_core (m : Mach) (p : Nat) (f : Key → Key) : (modKey m p f).core = m.core := rfl
@[simp] theorem modKey_serves (m : Mach) (p : Nat) (f : Key → Key) : (modKey m p f).serves = m.serves := rfl
@[simp] theorem modKey_bay (m : Mach) (p : Nat) (f : Key → Key) : (modKey m p f).bay = m.bay := rfl
@[simp] theorem modKey_keys (m : Mach) (p : Nat) (f : Key → Key) : (modKey m p f).keys = m.keys := rfl
@[simp] theorem modKey_recs (m : Mach) (p : Nat) (f : Key → Key) : (modKey m p f).recs = m.recs := rfl
@[simp] theorem modKey_ctx (m : Mach) (p : Nat) (f : Key → Key) : (modKey m p f).ctx = m.ctx := rfl
@[simp] theorem modKey_est (m : Mach) (p : Nat) (f : Key → Key) : (modKey m p f).est = m.est := rfl
@[simp] theorem modKey_thm (m : Mach) (p : Nat) (f : Key → Key) : (modKey m p f).thm = m.thm := rfl
@[simp] theorem modKey_ui_events (m : Mach) (p : Nat) (f : Key → Key) : (modKey m p f).ui.events = m.ui.events := rfl
@[simp] theorem modKey_ui_dropped (m : Mach) (p : Nat) (f : Key → Key) : (modKey m p f).ui.dropped = m.ui.dropped := rfl
@[simp] theorem modKey_ui_frameAt (m : Mach) (p : Nat) (f : Key → Key) : (modKey m p f).ui.frameAt = m.ui.frameAt := rfl
@[simp] theorem modKey_ui_frames (m : Mach) (p : Nat) (f : Key → Key) : (modKey m p f).ui.frames = m.ui.frames := rfl
@[simp] theorem modKey_ui_washdown (m : Mach) (p : Nat) (f : Key → Key) : (modKey m p f).ui.washdown = m.ui.washdown := rfl
@[simp] theorem modKey_ui_autoExit (m : Mach) (p : Nat) (f : Key → Key) : (modKey m p f).ui.autoExit = m.ui.autoExit := rfl
@[simp] theorem modKey_ui_lastFind (m : Mach) (p : Nat) (f : Key → Key) : (modKey m p f).ui.lastFind = m.ui.lastFind := rfl

@[simp] theorem getKey_modKey_same (m : Mach) (f : Key → Key) {p : Nat} (h : p < 48) :
    getKey (modKey m p f) p = f (getKey m p) := tget_tupd_same _ _ f h

@[simp] theorem getKey_modKey_ne (m : Mach) (f : Key → Key) {p j' : Nat} (h : p ≠ j') :
    getKey (modKey m p f) j' = getKey m j' := tget_tupd_ne _ _ f h

@[simp] theorem getCv_modKey (m : Mach) (q p' : Nat) (f : Key → Key) : getCv (modKey m p' f) q = getCv m q := rfl
@[simp] theorem getBlk_modKey (m : Mach) (q p' : Nat) (f : Key → Key) : getBlk (modKey m p' f) q = getBlk m q := rfl
@[simp] theorem getPort_modKey (m : Mach) (q p' : Nat) (f : Key → Key) : getPort (modKey m p' f) q = getPort m q := rfl
@[simp] theorem getPd_modKey (m : Mach) (q p' : Nat) (f : Key → Key) : getPd (modKey m p' f) q = getPd m q := rfl
@[simp] theorem getBay_modKey (m : Mach) (q p' : Nat) (f : Key → Key) : getBay (modKey m p' f) q = getBay m q := rfl
@[simp] theorem getInp_modKey (m : Mach) (q p' : Nat) (f : Key → Key) : getInp (modKey m p' f) q = getInp m q := rfl
@[simp] theorem getChg_modKey (m : Mach) (q p' : Nat) (f : Key → Key) : getChg (modKey m p' f) q = getChg m q := rfl
@[simp] theorem getHold_modKey (m : Mach) (q p' : Nat) (f : Key → Key) : getHold (modKey m p' f) q = getHold m q := rfl
@[simp] theorem getCtx_modKey (m : Mach) (q p' : Nat) (f : Key → Key) : getCtx (modKey m p' f) q = getCtx m q := rfl
@[simp] theorem getTmon_modKey (m : Mach) (q p' : Nat) (f : Key → Key) : getTmon (modKey m p' f) q = getTmon m q := rfl
@[simp] theorem getSlot_modKey (m : Mach) (q p' : Nat) (f : Key → Key) : getSlot (modKey m p' f) q = getSlot m q := rfl
@[simp] theorem getCore_modKey (m : Mach) (q p' : Nat) (f : Key → Key) : getCore (modKey m p' f) q = getCore m q := rfl
@[simp] theorem getProc_modKey (m : Mach) (q p' : Nat) (f : Key → Key) : getProc (modKey m p' f) q = getProc m q := rfl
@[simp] theorem getSens_modKey (m : Mach) (q p' : Nat) (f : Key → Key) : getSens (modKey m p' f) q = getSens m q := rfl

/-! ### Outcomes and time -/

@[simp] theorem next_eq (q : List Instr) (m m' : Mach) : next ⟨q, m⟩ m' = .next ⟨q, m'⟩ := rfl
@[simp] theorem when_true (m : Mach) (f : Mach → Mach) : when true m f = f m := rfl
@[simp] theorem when_false (m : Mach) (f : Mach → Mach) : when false m f = m := rfl
@[simp] theorem fire_none (m : Mach) (f : Mach → Mach) : fire m none f = m := rfl
@[simp] theorem fire_some (m : Mach) (d : Nat) (f : Mach → Mach) : fire m (some d) f = f (advanceTo m d) := rfl
@[simp] theorem guardUnit_true (s : State) (f : Mach → Mach) : guardUnit true s f = next s (f s.m) := rfl
@[simp] theorem guardUnit_false (s : State) (f : Mach → Mach) : guardUnit false s f = .next s := rfl
@[simp] theorem guardRead_true (s : State) (f : Mach → Mach) : guardRead true true s f = next s (f s.m) := rfl
@[simp] theorem guardRead_unrated (ok : Bool) (s : State) (f : Mach → Mach) : guardRead ok false s f = .fault .beyondRatings := rfl
@[simp] theorem guardRead_noUnit (s : State) (f : Mach → Mach) : guardRead false true s f = .next s := rfl

@[simp] theorem advance_host (m : Mach) (n : Nat) : (advance m n).host = m.host := rfl
@[simp] theorem advance_mbx (m : Mach) (n : Nat) : (advance m n).mbx = m.mbx := rfl
@[simp] theorem advance_blk (m : Mach) (n : Nat) : (advance m n).blk = m.blk := rfl
@[simp] theorem advance_grd (m : Mach) (n : Nat) : (advance m n).grd = m.grd := rfl
@[simp] theorem advance_wds (m : Mach) (n : Nat) : (advance m n).wds = m.wds := rfl
@[simp] theorem advance_pwr (m : Mach) (n : Nat) : (advance m n).pwr = m.pwr := rfl
@[simp] theorem advance_upd (m : Mach) (n : Nat) : (advance m n).upd = m.upd := rfl
@[simp] theorem advance_svc (m : Mach) (n : Nat) : (advance m n).svc = m.svc := rfl
@[simp] theorem advance_cnv (m : Mach) (n : Nat) : (advance m n).cnv = m.cnv := rfl
@[simp] theorem advance_spares (m : Mach) (n : Nat) : (advance m n).spares = m.spares := rfl
@[simp] theorem advance_adc (m : Mach) (n : Nat) : (advance m n).adc = m.adc := rfl
@[simp] theorem advance_tmon (m : Mach) (n : Nat) : (advance m n).tmon = m.tmon := rfl
@[simp] theorem advance_eng (m : Mach) (n : Nat) : (advance m n).eng = m.eng := rfl
@[simp] theorem advance_path (m : Mach) (n : Nat) : (advance m n).path = m.path := rfl
@[simp] theorem advance_inp (m : Mach) (n : Nat) : (advance m n).inp = m.inp := rfl
@[simp] theorem advance_sto (m : Mach) (n : Nat) : (advance m n).sto = m.sto := rfl
@[simp] theorem advance_chg (m : Mach) (n : Nat) : (advance m n).chg = m.chg := rfl
@[simp] theorem advance_aux (m : Mach) (n : Nat) : (advance m n).aux = m.aux := rfl
@[simp] theorem advance_lft (m : Mach) (n : Nat) : (advance m n).lft = m.lft := rfl
@[simp] theorem advance_prt (m : Mach) (n : Nat) : (advance m n).prt = m.prt := rfl
@[simp] theorem advance_ui (m : Mach) (n : Nat) : (advance m n).ui = m.ui := rfl
@[simp] theorem advance_pd (m : Mach) (n : Nat) : (advance m n).pd = m.pd := rfl
@[simp] theorem advance_core (m : Mach) (n : Nat) : (advance m n).core = m.core := rfl
@[simp] theorem advance_serves (m : Mach) (n : Nat) : (advance m n).serves = m.serves := rfl
@[simp] theorem advance_bay (m : Mach) (n : Nat) : (advance m n).bay = m.bay := rfl
@[simp] theorem advance_keys (m : Mach) (n : Nat) : (advance m n).keys = m.keys := rfl
@[simp] theorem advance_recs (m : Mach) (n : Nat) : (advance m n).recs = m.recs := rfl
@[simp] theorem advance_ctx (m : Mach) (n : Nat) : (advance m n).ctx = m.ctx := rfl
@[simp] theorem advance_est (m : Mach) (n : Nat) : (advance m n).est = m.est := rfl
@[simp] theorem advance_thm (m : Mach) (n : Nat) : (advance m n).thm = m.thm := rfl
@[simp] theorem getCv_advance (m : Mach) (n q : Nat) : getCv (advance m n) q = getCv m q := rfl
@[simp] theorem getCv_advanceTo (m : Mach) (n q : Nat) : getCv (advanceTo m n) q = getCv m q := rfl
@[simp] theorem getBlk_advance (m : Mach) (n q : Nat) : getBlk (advance m n) q = getBlk m q := rfl
@[simp] theorem getBlk_advanceTo (m : Mach) (n q : Nat) : getBlk (advanceTo m n) q = getBlk m q := rfl
@[simp] theorem getPort_advance (m : Mach) (n q : Nat) : getPort (advance m n) q = getPort m q := rfl
@[simp] theorem getPort_advanceTo (m : Mach) (n q : Nat) : getPort (advanceTo m n) q = getPort m q := rfl
@[simp] theorem getPd_advance (m : Mach) (n q : Nat) : getPd (advance m n) q = getPd m q := rfl
@[simp] theorem getPd_advanceTo (m : Mach) (n q : Nat) : getPd (advanceTo m n) q = getPd m q := rfl
@[simp] theorem getBay_advance (m : Mach) (n q : Nat) : getBay (advance m n) q = getBay m q := rfl
@[simp] theorem getBay_advanceTo (m : Mach) (n q : Nat) : getBay (advanceTo m n) q = getBay m q := rfl
@[simp] theorem getInp_advance (m : Mach) (n q : Nat) : getInp (advance m n) q = getInp m q := rfl
@[simp] theorem getInp_advanceTo (m : Mach) (n q : Nat) : getInp (advanceTo m n) q = getInp m q := rfl
@[simp] theorem getChg_advance (m : Mach) (n q : Nat) : getChg (advance m n) q = getChg m q := rfl
@[simp] theorem getChg_advanceTo (m : Mach) (n q : Nat) : getChg (advanceTo m n) q = getChg m q := rfl
@[simp] theorem getHold_advance (m : Mach) (n q : Nat) : getHold (advance m n) q = getHold m q := rfl
@[simp] theorem getHold_advanceTo (m : Mach) (n q : Nat) : getHold (advanceTo m n) q = getHold m q := rfl
@[simp] theorem getCtx_advance (m : Mach) (n q : Nat) : getCtx (advance m n) q = getCtx m q := rfl
@[simp] theorem getCtx_advanceTo (m : Mach) (n q : Nat) : getCtx (advanceTo m n) q = getCtx m q := rfl
@[simp] theorem getTmon_advance (m : Mach) (n q : Nat) : getTmon (advance m n) q = getTmon m q := rfl
@[simp] theorem getTmon_advanceTo (m : Mach) (n q : Nat) : getTmon (advanceTo m n) q = getTmon m q := rfl
@[simp] theorem getSlot_advance (m : Mach) (n q : Nat) : getSlot (advance m n) q = getSlot m q := rfl
@[simp] theorem getSlot_advanceTo (m : Mach) (n q : Nat) : getSlot (advanceTo m n) q = getSlot m q := rfl
@[simp] theorem getCore_advance (m : Mach) (n q : Nat) : getCore (advance m n) q = getCore m q := rfl
@[simp] theorem getCore_advanceTo (m : Mach) (n q : Nat) : getCore (advanceTo m n) q = getCore m q := rfl
@[simp] theorem getProc_advance (m : Mach) (n q : Nat) : getProc (advance m n) q = getProc m q := rfl
@[simp] theorem getProc_advanceTo (m : Mach) (n q : Nat) : getProc (advanceTo m n) q = getProc m q := rfl
@[simp] theorem getSens_advance (m : Mach) (n q : Nat) : getSens (advance m n) q = getSens m q := rfl
@[simp] theorem getSens_advanceTo (m : Mach) (n q : Nat) : getSens (advanceTo m n) q = getSens m q := rfl
@[simp] theorem getKey_advance (m : Mach) (n q : Nat) : getKey (advance m n) q = getKey m q := rfl
@[simp] theorem getKey_advanceTo (m : Mach) (n q : Nat) : getKey (advanceTo m n) q = getKey m q := rfl
@[simp] theorem advance_now (m : Mach) (n : Nat) : (advance m n).dev.now = m.dev.now + n := rfl

/-- Time passes to a deadline that lies ahead; a past one leaves it. -/
@[simp] theorem advanceTo_now (m : Mach) (t : Nat) : (advanceTo m t).dev.now = max m.dev.now t := by
  simp only [advanceTo, advance_now]
  omega

end Machine
end Sys2Proof
end

