-- ==== Sys2Proof/Laws/Memory.lean ====
section
/-! SUPPORT. Sys2Proof/Laws/Memory.lean: the sparse memories in canonical form: what is read after a write, and that every
write keeps the form. -/
namespace Sys2Proof
namespace Machine

variable {α : Type} [DecidableEq α] {d : α}

omit [DecidableEq α] in
theorem amAbove_mono {b c : Nat} (h : c ≤ b) : ∀ {l : List (Nat × α)}, amAbove b l = true → amAbove c l = true
  | [], _ => rfl
  | (a, _) :: t, hl => by
    simp only [amAbove, Bool.and_eq_true, decide_eq_true_eq] at hl ⊢
    exact ⟨by omega, amAbove_mono h hl.2⟩

omit [DecidableEq α] in
/-- A key at or below every listed one reads as the default. -/
theorem amGet_of_above {k : Nat} : ∀ {l : List (Nat × α)}, amAbove k l = true → amGet d l k = d
  | [], _ => rfl
  | (a, v) :: t, hl => by
    simp only [amAbove, Bool.and_eq_true, decide_eq_true_eq] at hl
    simp only [amGet]
    rw [if_neg (by omega)]
    exact amGet_of_above hl.2

theorem amAbove_amPut {b k : Nat} (v : α) (h : b < k) :
    ∀ {l : List (Nat × α)}, amAbove b l = true → amAbove b (amPut d l k v) = true
  | [], _ => by
    simp only [amPut]; split <;> simp [amAbove, h]
  | (a, w) :: t, hl => by
    simp only [amAbove, Bool.and_eq_true, decide_eq_true_eq] at hl
    simp only [amPut]
    split
    · split <;> simp [amAbove, h, hl]
    · split
      · split
        · exact hl.2
        · simp [amAbove, h, hl.2]
      · simp [amAbove, hl.1, amAbove_amPut v h hl.2]

/-- A write keeps the canonical form. -/
@[simp] theorem amWf_amPut (k : Nat) (v : α) : ∀ {l : List (Nat × α)}, amWf d l = true → amWf d (amPut d l k v) = true
  | [], _ => by
    simp only [amPut]; split <;> simp_all [amWf, amAbove]
  | (a, w) :: t, hl => by
    have hl' := hl
    simp only [amWf, Bool.and_eq_true, decide_eq_true_eq] at hl
    simp only [amPut]
    split
    · split
      · exact hl'
      · rename_i h1 h2
        simp [amWf, amAbove, h1, h2, hl]
        exact amAbove_mono (by omega) hl.1.2
    · split
      · rename_i h1 h2
        subst h2
        split
        · exact hl.2
        · rename_i h3
          simp [amWf, h3, hl]
      · rename_i h1 h2
        simp [amWf, hl.1.1, amWf_amPut k v hl.2]
        exact amAbove_amPut v (by omega) hl.1.2

/-- Writing several values keeps the canonical form. -/
@[simp] theorem amWf_amPutAll (vs : List α) :
    ∀ (k : Nat) {l : List (Nat × α)}, amWf d l = true → amWf d (amPutAll d l k vs) = true := by
  induction vs with
  | nil => exact fun _ _ h => h
  | cons v t ih => exact fun k _ h => ih (k + 1) (amWf_amPut k v h)

/-- A key reads as what was written to it. -/
theorem amGet_amPut_same (k : Nat) (v : α) : ∀ {l : List (Nat × α)}, amWf d l = true → amGet d (amPut d l k v) k = v
  | [], _ => by
    simp only [amPut]; split <;> simp_all [amGet]
  | (a, w) :: t, hl => by
    simp only [amWf, Bool.and_eq_true, decide_eq_true_eq] at hl
    simp only [amPut]
    split
    · rename_i h1
      split
      · rename_i h2
        rw [h2]
        simp only [amGet]
        rw [if_neg (by omega)]
        exact amGet_of_above (amAbove_mono (by omega) hl.1.2)
      · simp [amGet]
    · split
      · rename_i h1 h2
        subst h2
        split
        · rename_i h3
          rw [h3]
          exact amGet_of_above hl.1.2
        · simp [amGet]
      · rename_i h1 h2
        simp only [amGet]
        rw [if_neg (fun h => h2 h.symm)]
        exact amGet_amPut_same k v hl.2

/-- A write leaves what every other key reads as. -/
theorem amGet_amPut_ne {j k : Nat} (v : α) (h : j ≠ k) : ∀ (l : List (Nat × α)), amGet d (amPut d l k v) j = amGet d l j
  | [] => by
    simp only [amPut]; split
    · rfl
    · simp [amGet, h.symm]
  | (a, w) :: t => by
    simp only [amPut]
    split
    · split
      · rfl
      · simp [amGet, h.symm]
    · split
      · rename_i h1 h2
        subst h2
        split <;> simp [amGet, h.symm]
      · simp only [amGet]
        rw [amGet_amPut_ne v h t]

/-- Writing several values leaves what every key outside them reads as. -/
theorem amGet_amPutAll_outside (vs : List α) : ∀ (k : Nat) (l : List (Nat × α)) {j : Nat},
    (j < k ∨ k + vs.length ≤ j) → amGet d (amPutAll d l k vs) j = amGet d l j := by
  induction vs with
  | nil => exact fun _ _ _ _ => rfl
  | cons v t ih =>
    intro k l j h
    simp only [List.length_cons] at h
    rw [amPutAll, ih (k + 1) _ (by omega), amGet_amPut_ne v (by omega)]

/-- Each key inside a written run reads as its value. -/
theorem amGet_amPutAll_inside (vs : List α) : ∀ (k : Nat) {l : List (Nat × α)} (i : Nat) (hi : i < vs.length),
    amWf d l = true → amGet d (amPutAll d l k vs) (k + i) = vs[i] := by
  induction vs with
  | nil => exact fun _ _ _ hi => absurd hi (by simp)
  | cons v t ih =>
    intro k l i hi hl
    cases i with
    | zero =>
      rw [amPutAll, amGet_amPutAll_outside t (k + 1) _ (by omega), Nat.add_zero, amGet_amPut_same k v hl]
      rfl
    | succ i =>
      have hi' : i < t.length := by simpa using hi
      rw [amPutAll, show k + (i + 1) = k + 1 + i by omega, ih (k + 1) i hi' (amWf_amPut k v hl)]
      rfl

/-- Two memories in canonical form that read alike are the same data. -/
theorem amWf_ext : ∀ {l r : List (Nat × α)}, amWf d l = true → amWf d r = true → (∀ k, amGet d l k = amGet d r k) → l = r
  | [], [], _, _, _ => rfl
  | [], (a, v) :: t, _, hr, h => by
    simp only [amWf, Bool.and_eq_true, decide_eq_true_eq] at hr
    exact absurd (by simpa [amGet] using (h a).symm) hr.1.1
  | (a, v) :: t, [], hl, _, h => by
    simp only [amWf, Bool.and_eq_true, decide_eq_true_eq] at hl
    exact absurd (by simpa [amGet] using h a) hl.1.1
  | (a, v) :: t, (b, w) :: u, hl, hr, h => by
    simp only [amWf, Bool.and_eq_true, decide_eq_true_eq] at hl hr
    have hab : a = b := by
      rcases Nat.lt_trichotomy a b with h1 | h1 | h1
      · have := h a
        simp only [amGet, if_true] at this
        rw [if_neg (by omega), amGet_of_above (amAbove_mono (by omega) hr.1.2)] at this
        exact absurd this hl.1.1
      · exact h1
      · have := h b
        simp only [amGet, if_true] at this
        rw [if_neg (by omega), amGet_of_above (amAbove_mono (by omega) hl.1.2)] at this
        exact absurd this.symm hr.1.1
    subst hab
    have hv : v = w := by simpa [amGet] using h a
    subst hv
    have ht : t = u := amWf_ext hl.2 hr.2 fun k => by
      by_cases hk : a = k
      · subst hk
        rw [amGet_of_above hl.1.2, amGet_of_above hr.1.2]
      · simpa [amGet, hk] using h k
    rw [ht]

end Machine
end Sys2Proof
end

