-- ==== Sys2Proof/Laws/Ops.lean ====
section
/-! SUPPORT. Sys2Proof/Laws/Ops.lean: for each shared operation of Machine/Ops.lean and Machine/Operands.lean, what it can do. -/
namespace Sys2Proof
namespace Machine

/-! ### Outcomes -/

/-- A row with a unit operand answers a next state and leaves the queue; one that names no unit changes nothing. -/
theorem guardUnit_next {ok : Bool} {s t : State} {f : Mach → Mach} :
    guardUnit ok s f = .next t ↔ t = { s with m := if ok then f s.m else s.m } := by
  cases ok <;> simp [guardUnit, next, eq_comm]

/-- The same of a row with a reading, which answers so exactly where the reading lies within its ratings. -/
theorem guardRead_next {ok rated : Bool} {s t : State} {f : Mach → Mach} :
    guardRead ok rated s f = .next t ↔ rated = true ∧ t = { s with m := if ok then f s.m else s.m } := by
  cases ok <;> cases rated <;> simp [guardRead, guardUnit, next, eq_comm]

/-! ### Time -/

/-- Time moves the clocks, the host watchdog's count and the hours of operation, and nothing else. -/
theorem advance_frame (m : Mach) (n : Nat) :
    advance m n = { m with
      dev := (advance m n).dev, wdh := (advance m n).wdh
      nvm := { m.nvm with fast := { m.nvm.fast with runNs := m.nvm.fast.runNs + n } } } := rfl

/-! ### Causes -/

/-- `F` over a list of blocks changes status words and nothing else. -/
theorem forBlocks_frame (F : Mach → Blk → Blk) : ∀ (l : List Nat) (m : Mach),
    forAll m l (fun m b => modBlk m b (F m)) = { m with blk := (forAll m l (fun m b => modBlk m b (F m))).blk }
  | [], _ => rfl
  | b :: l, m => by
    rw [show forAll m (b :: l) (fun m b => modBlk m b (F m)) = forAll (modBlk m b (F m)) l (fun m b => modBlk m b (F m)) from rfl]
    rw [forBlocks_frame F l (modBlk m b (F m))]
    rfl

/-- Each block of a cause takes the change once, where the change does not depend on the status words. -/
theorem getBlk_forBlocks (m : Mach) (b : Nat) (F : Mach → Blk → Blk) (hF : ∀ (m : Mach) v, F { m with blk := v } = F m)
    {x : Nat} (hx : x ∈ blocksOf b) (h : x < 139) :
    getBlk (forAll m (blocksOf b) fun m b => modBlk m b (F m)) x = F m (getBlk m x) := by
  simp only [blocksOf] at hx ⊢
  split at hx
  · rename_i hb
    have e : F (modBlk m b (F m)) = F m := hF m _
    simp only [if_pos hb, forAll, List.foldl, e]
    simp only [List.mem_cons, List.not_mem_nil, or_false] at hx
    rcases hx with rfl | rfl
    · rw [getBlk_modBlk_ne _ _ (by omega), getBlk_modBlk_same _ _ h]
    · rw [getBlk_modBlk_same _ _ h, getBlk_modBlk_ne _ _ (by omega)]
  · rename_i hb
    simp only [List.mem_cons, List.not_mem_nil, or_false] at hx
    subst hx
    simp only [if_neg hb, forAll, List.foldl, getBlk_modBlk_same _ _ h]

/-- Every other block stands. -/
theorem getBlk_forBlocks_ne (m : Mach) (b : Nat) (F : Mach → Blk → Blk) {x : Nat} (hx : x ∉ blocksOf b) :
    getBlk (forAll m (blocksOf b) fun m b => modBlk m b (F m)) x = getBlk m x := by
  simp only [blocksOf] at hx ⊢
  split at hx
  · rename_i hb
    simp only [List.mem_cons, List.not_mem_nil, or_false, not_or] at hx
    simp only [if_pos hb, forAll, List.foldl]
    rw [getBlk_modBlk_ne _ _ (Ne.symm hx.2), getBlk_modBlk_ne _ _ (Ne.symm hx.1)]
  · rename_i hb
    simp only [List.mem_cons, List.not_mem_nil, or_false] at hx
    simp only [if_neg hb, forAll, List.foldl]
    rw [getBlk_modBlk_ne _ _ (Ne.symm hx)]

/-- A recorded cause changes status words alone. -/
theorem note_frame (m : Mach) (b : Nat) (c : Cause) (sev : Nat) :
    note m b c sev = { m with blk := (note m b c sev).blk } :=
  forBlocks_frame (fun m w => blkRecord w (codeOf c) sev (nowMs m) m.dev.aonTick false) _ _

theorem detect_frame (m : Mach) (b : Nat) (c : Cause) (sev n : Nat) :
    (detect m b c sev n).1 = { m with blk := (detect m b c sev n).1.blk } := by
  simp only [detect]
  exact forBlocks_frame (fun m' w =>
    if (!reacting m b || (getBlk m b).reactSev < sev) && 4 ≤ sev then
      { blkRecord w (codeOf c) sev (nowMs m') m'.dev.aonTick (reacting m b) with
        reactSev := sev, reactUntil := some (m.dev.now + min n (sec 1)) }
    else blkRecord w (codeOf c) sev (nowMs m') m'.dev.aonTick (reacting m b)) _ _

theorem consequential_frame (m : Mach) (b : Nat) (c : Cause) (o : Nat) :
    consequential m b c o = { m with blk := (consequential m b c o).blk } :=
  forBlocks_frame (fun m w => { w with details := detailAdd w.details (codeOf c) true false o (nowMs m) }) _ _

theorem setLive_frame (m : Mach) (b : Nat) (c : Cause) (sev : Nat) (on : Bool) :
    setLive m b c sev on = { m with blk := (setLive m b c sev on).blk } :=
  forBlocks_frame (fun _ w =>
    { w with live := if on then (w.live.filter fun x => x.1 ≠ codeOf c) ++ [(codeOf c, sev)]
                     else w.live.filter fun x => x.1 ≠ codeOf c }) _ _

/-! ### The journal -/

/-- Waiting entries move into the ring; the rest of the mailboxes stands. -/
theorem flushWaiting_frame : ∀ (n : Nat) (x : Mbx),
    flushWaiting x n = { x with ring := (flushWaiting x n).ring, nextSeq := (flushWaiting x n).nextSeq
                                waiting := (flushWaiting x n).waiting }
  | 0, _ => rfl
  | n + 1, x => by
    simp only [flushWaiting]
    split
    · rfl
    · split
      · rename_i e t _ _
        rw [flushWaiting_frame n]
      · rfl

/-- An event's entry goes to the journal; nothing outside the mailboxes changes. -/
theorem journal_frame (m : Mach) (c : Cause) (b : Nat) : journal m c b = { m with mbx := (journal m c b).mbx } := by
  simp only [journal]
  split
  · rfl
  · split <;> rfl

/-- A closed entry changes the journal alone. -/
theorem closeEntry_frame (m : Mach) (q r d : Nat) :
    closeEntry m q r d = { m with mbx := { m.mbx with
      ring := (closeEntry m q r d).mbx.ring, nextSeq := (closeEntry m q r d).mbx.nextSeq
      waiting := (closeEntry m q r d).mbx.waiting } } := by
  simp only [closeEntry]
  rw [flushWaiting_frame]

/-! ### Answers -/

/-- What an answer leaves: everything but the mailboxes and the serial stream, which the Stavska slot alone changes. -/
def AnswerFrame (m e : Mach) (s : Nat) : Prop :=
  e = { m with mbx := e.mbx, svc := { m.svc with out := e.svc.out } } ∧ (s ≠ 4 → e.svc.out = m.svc.out) ∧
  (∀ j, j ≠ s → getSlot e j = getSlot m j)

theorem AnswerFrame.refl (m : Mach) (s : Nat) : AnswerFrame m m s := ⟨rfl, fun _ => rfl, fun _ _ => rfl⟩

theorem AnswerFrame.trans {m e f : Mach} {s : Nat} (h : AnswerFrame m e s) (k : AnswerFrame e f s) : AnswerFrame m f s := by
  obtain ⟨h1, h2, h3⟩ := h
  obtain ⟨k1, k2, k3⟩ := k
  refine ⟨?_, fun hs => (k2 hs).trans (h2 hs), fun j hj => (k3 j hj).trans (h3 j hj)⟩
  rw [k1, h1]

/-- A change of the mailboxes that leaves the slots. -/
theorem AnswerFrame.ofMbx (m : Mach) (s : Nat) (x : Mbx) (h : x.slots = m.mbx.slots) : AnswerFrame m { m with mbx := x } s :=
  ⟨rfl, fun _ => rfl, fun j _ => by simp only [getSlot, h]⟩

theorem modSlot_answers (m : Mach) (s : Nat) (f : Slot → Slot) : AnswerFrame m (modSlot m s f) s :=
  ⟨rfl, fun _ => rfl, fun _ hj => getSlot_modSlot_ne _ _ (Ne.symm hj)⟩

theorem slotPut_answers (m : Mach) (s off : Nat) (bs : List Byte) : AnswerFrame m (slotPut m s off bs) s :=
  AnswerFrame.ofMbx _ _ _ rfl

/-- The serial stream carries a frame while the link runs. -/
theorem streamOut_frame (m : Mach) (frame : List Byte) :
    streamOut m frame = { m with svc := { m.svc with out := (streamOut m frame).svc.out } } := by
  simp only [streamOut]; split <;> rfl

theorem streamOut_answers (m : Mach) (frame : List Byte) : AnswerFrame m (streamOut m frame) 4 := by
  rw [streamOut_frame]
  exact ⟨rfl, fun k => absurd rfl k, fun _ _ => rfl⟩

theorem writeResponse_answers (m : Mach) (s : Nat) (st : Status) (q : Nat) (out : List Byte) :
    AnswerFrame m (writeResponse m s st q out) s := by
  simp only [writeResponse]
  split
  · rename_i h
    subst h
    exact AnswerFrame.trans (AnswerFrame.trans (slotPut_answers m 4 0 _) (modSlot_answers _ 4 _)) (streamOut_answers _ _)
  · exact AnswerFrame.trans (slotPut_answers m s 0 _) (modSlot_answers _ s _)

theorem closeEntry_answers (m : Mach) (s q r d : Nat) : AnswerFrame m (closeEntry m q r d) s := by
  rw [closeEntry_frame]
  exact AnswerFrame.ofMbx _ _ _ rfl

theorem answer_answers (m : Mach) (s : Nat) (st : Status) (out : List Byte) (d : Nat) :
    AnswerFrame m (answer m s st out d) s := by
  simp only [answer]
  refine AnswerFrame.trans ?_ (writeResponse_answers _ s st _ out)
  refine AnswerFrame.trans ?_ (modSlot_answers _ s _)
  split
  · exact AnswerFrame.trans (AnswerFrame.ofMbx _ _ _ rfl) (AnswerFrame.ofMbx _ _ _ rfl)
  · exact AnswerFrame.trans (closeEntry_answers _ _ _ _ _)
      (AnswerFrame.trans (AnswerFrame.ofMbx _ _ _ rfl) (AnswerFrame.ofMbx _ _ _ rfl))

theorem begun_answers (m : Mach) (s : Nat) : AnswerFrame m (begun m s) s := AnswerFrame.ofMbx _ _ _ rfl

/-- The slot an answer goes to: DONE, or EMPTY for the serial stream's. -/
theorem getSlot_writeResponse (m : Mach) {s : Nat} (h : s < 5) (st : Status) (q : Nat) (out : List Byte) :
    (getSlot (writeResponse m s st q out) s).st = if s = 4 then .empty else .done := by
  simp only [writeResponse]
  split
  · simp only [streamOut]
    split
    · exact (congrArg Slot.st (getSlot_modSlot_same _ _ h))
    · exact (congrArg Slot.st (getSlot_modSlot_same _ _ h))
  · exact (congrArg Slot.st (getSlot_modSlot_same _ _ h))

theorem length_le (n v : Nat) : (le n v).length = n := by simp [le]

theorem length_slotBytes (m : Mach) (s off n : Nat) : (slotBytes m s off n).length = n := by simp [slotBytes, amGetAll]

theorem length_responseFrame (m : Mach) (s k : Nat) (st : Status) (q : Nat) (out : List Byte) :
    (responseFrame (slotBytes m k 0 8) s st q out).length = 20 + out.length := by
  simp [responseFrame, bytesAt, length_le, length_slotBytes]; omega

theorem modSlot_mem (m : Mach) (s : Nat) (f : Slot → Slot) : (modSlot m s f).mbx.mem = m.mbx.mem := rfl

theorem streamOut_mem (m : Mach) (frame : List Byte) : (streamOut m frame).mbx.mem = m.mbx.mem := by rw [streamOut_frame]

theorem slotPut_mem (m : Mach) (s off : Nat) (bs : List Byte) :
    (slotPut m s off bs).mbx.mem = amPutAll 0 m.mbx.mem (slotBase s + off) bs := rfl

/-- The exchange memory after a response. -/
theorem writeResponse_mem (m : Mach) (s : Nat) (st : Status) (q : Nat) (out : List Byte) :
    (writeResponse m s st q out).mbx.mem =
      amPutAll 0 m.mbx.mem (slotBase s) (responseFrame (slotBytes m s 0 8) s st q out) := by
  simp only [writeResponse]
  split
  · rw [streamOut_mem, modSlot_mem, slotPut_mem]; rfl
  · rw [modSlot_mem, slotPut_mem]; rfl

theorem answer_mem (m : Mach) (s : Nat) (st : Status) (out : List Byte) (d : Nat) :
    (answer m s st out d).mbx.mem =
      amPutAll 0 m.mbx.mem (slotBase s) (responseFrame (slotBytes m s 0 8) s st (getSlot m s).jseq out) := by
  simp only [answer]
  rw [writeResponse_mem]
  split
  · rfl
  · simp only [slotBytes, modSlot]; rw [closeEntry_frame]

/-- Bytes of a slot after a run was written over it. -/
theorem amGetAll_amPutAll {l : List (Nat × Byte)} (h : amWf 0 l = true) (k : Nat) (vs : List Byte) (i n : Nat)
    (hn : i + n ≤ vs.length) : amGetAll 0 (amPutAll 0 l k vs) (k + i) n = (vs.drop i).take n := by
  apply List.ext_getElem
  · simp [amGetAll]; omega
  · intro j h1 h2
    simp only [amGetAll, List.length_map, List.length_range] at h1
    simp only [amGetAll, List.getElem_map, List.getElem_range, List.getElem_take, List.getElem_drop]
    rw [Nat.add_assoc, amGet_amPutAll_inside vs k (i + j) (by omega) h]

end Machine
end Sys2Proof
end

