-- ==== Sys2Proof/Laws/Stores.lean ====
section
/-! SUPPORT. Sys2Proof/Laws/Stores.lean: every operation and every meaning of the model keeps `storesWf`: the mailbox and
retention memories stay canonical and the journal stays within its bounds. One lemma per function, `<function>_stores`, which
callers cite. -/
namespace Sys2Proof
namespace Machine

/-- Every next state an answer carries keeps its stores in order. -/
def ansStores : Ans → Prop
  | .ok m _ => storesWf m = true
  | .okDetail m _ _ => storesWf m = true
  | .accepted m => storesWf m = true
  | .wait m => storesWf m = true
  | .refuse _ => True
/-- The next state of an outcome keeps its stores in order. -/
def outStores (o : Host.Outcome State Fault Refusal) : Prop := ∀ t, o = .next t → storesWf t.m = true

theorem stores_of {m : Mach} (h : mbxWf m.mbx = true) (k : nvWf m.nvm = true) : storesWf m = true := by
  simp [storesWf, h, k]
theorem mbx_of_stores {m : Mach} (h : storesWf m = true) : mbxWf m.mbx = true := by
  simp only [storesWf, Bool.and_eq_true] at h; exact h.1
theorem nv_of_stores {m : Mach} (h : storesWf m = true) : nvWf m.nvm = true := by
  simp only [storesWf, Bool.and_eq_true] at h; exact h.2
theorem mbxWf_of {x : Mbx} (h : amWf 0 x.mem = true) (k : ringOk x.ring x.waiting x.lost x.nextSeq = true) : mbxWf x = true := by
  simp only [mbxWf, Bool.and_eq_true]; exact ⟨h, k⟩
theorem mem_of_mbx {x : Mbx} (h : mbxWf x = true) : amWf 0 x.mem = true := by
  simp only [mbxWf, Bool.and_eq_true] at h; exact h.1
theorem ring_of_mbx {x : Mbx} (h : mbxWf x = true) : ringOk x.ring x.waiting x.lost x.nextSeq = true := by
  simp only [mbxWf, Bool.and_eq_true] at h; exact h.2
theorem nvWf_of {x : Nvm} (h : amWf 0xFF x.bytes = true) (k : amWf .blank x.stat = true) : nvWf x = true := by
  simp only [nvWf, Bool.and_eq_true]; exact ⟨h, k⟩
theorem bytes_of_nv {x : Nvm} (h : nvWf x = true) : amWf 0xFF x.bytes = true := by
  simp only [nvWf, Bool.and_eq_true] at h; exact h.1
theorem stat_of_nv {x : Nvm} (h : nvWf x = true) : amWf .blank x.stat = true := by
  simp only [nvWf, Bool.and_eq_true] at h; exact h.2

theorem pairL_stores {β : Type} (p : Mach × β) (F : Mach → β → Mach) : storesWf p.1 = true →
    (∀ m b, storesWf m = true → storesWf (F m b) = true) → storesWf (match p with | (a, b) => F a b) = true :=
  fun hp hF => hF p.1 p.2 hp
theorem pairR_stores {β : Type} (p : β × Mach) (F : β → Mach → Mach) : storesWf p.2 = true →
    (∀ b m, storesWf m = true → storesWf (F b m) = true) → storesWf (match p with | (a, b) => F a b) = true :=
  fun hp hF => hF p.1 p.2 hp
theorem forAll_stores (m : Mach) (l : List Nat) (f : Mach → Nat → Mach) (h : storesWf m = true)
    (hf : ∀ m i, storesWf m = true → storesWf (f m i) = true) : storesWf (forAll m l f) = true := by
  unfold forAll
  induction l generalizing m with
  | nil => exact h
  | cons a t ih => exact ih _ (hf m a h)
theorem when_stores (c : Bool) (m : Mach) (f : Mach → Mach) (h : storesWf m = true)
    (hf : ∀ m, storesWf m = true → storesWf (f m) = true) : storesWf (when c m f) = true := by
  unfold when; split
  · exact hf m h
  · exact h
theorem advance_stores (m : Mach) (n : Nat) (h : storesWf m = true) : storesWf (advance m n) = true := by
  unfold advance
  refine stores_of ?_ ?_
  · exact mbx_of_stores h
  · exact nvWf_of (bytes_of_nv (nv_of_stores h)) (stat_of_nv (nv_of_stores h))
theorem fire_stores (m : Mach) (t : Option Nat) (f : Mach → Mach) (h : storesWf m = true)
    (hf : ∀ m, storesWf m = true → storesWf (f m) = true) : storesWf (fire m t f) = true := by
  cases t with
  | none => exact h
  | some d => exact hf _ (advance_stores m _ h)
theorem refuseFirst_stores (l : List (Bool × Status)) (k : Ans) (h : ansStores k) : ansStores (refuseFirst l k) := by
  induction l with
  | nil => exact h
  | cons a t ih =>
    obtain ⟨c, st⟩ := a
    cases c
    · exact ih
    · trivial
theorem next_stores (s : State) (m : Mach) (h : storesWf m = true) : outStores (next s m) := by
  intro t ht; cases ht; exact h
theorem guardUnit_stores (ok : Bool) (s : State) (f : Mach → Mach) (h0 : storesWf s.m = true) (h : storesWf (f s.m) = true) :
    outStores (guardUnit ok s f) := by
  intro t ht; cases ok <;> cases ht
  · exact h0
  · exact h
theorem guardRead_stores (ok r : Bool) (s : State) (f : Mach → Mach) (h0 : storesWf s.m = true) (h : storesWf (f s.m) = true) :
    outStores (guardRead ok r s f) := by
  cases r
  · intro t ht; cases ht
  · exact guardUnit_stores ok s f h0 h
theorem nvFold_stores (nv : Nvm) (l : List Nat) (f : Nvm → Nat → Nvm) (h : nvWf nv = true)
    (hf : ∀ m i, nvWf m = true → nvWf (f m i) = true) : nvWf (nvFold nv l f) = true := by
  unfold nvFold
  induction l generalizing nv with
  | nil => exact h
  | cons a t ih => exact ih _ (hf nv a h)
theorem foldl_stores {β : Type} (f : Mach → β → Mach) (m : Mach) (l : List β) (h : storesWf m = true)
    (hf : ∀ m i, storesWf m = true → storesWf (f m i) = true) : storesWf (l.foldl f m) = true := by
  induction l generalizing m with
  | nil => exact h
  | cons a t ih => exact ih _ (hf m a h)
theorem ringMod_length (r : List JEntry) (q : Nat) (f : JEntry → JEntry) : (ringMod r q f).length = r.length := by
  simp [ringMod]
theorem ringPush_length (r : List JEntry) (e : JEntry) (h : r.length ≤ 1024) : (ringPush r e).length ≤ 1024 := by
  unfold ringPush
  split <;> simp only [List.length_append, List.length_drop, List.length_singleton] <;> omega
theorem ringOk_mod {r w : List JEntry} {l n : Nat} (q : Nat) (f : JEntry → JEntry) (h : ringOk r w l n = true) :
    ringOk (ringMod r q f) w l n = true := by
  simpa only [ringOk, ringMod_length] using h
theorem mem_of_stores {m : Mach} (h : storesWf m = true) : amWf 0 m.mbx.mem = true := mem_of_mbx (mbx_of_stores h)
theorem ring_of_stores {m : Mach} (h : storesWf m = true) :
    ringOk m.mbx.ring m.mbx.waiting m.mbx.lost m.mbx.nextSeq = true := ring_of_mbx (mbx_of_stores h)
theorem setMbx_stores (m : Mach) (x : Mbx) (h : storesWf m = true) (hx : mbxWf x = true) :
    storesWf { m with mbx := x } = true := by
  simp only [storesWf, Bool.and_eq_true] at h ⊢
  exact ⟨hx, h.2⟩
theorem setNvm_stores (m : Mach) (x : Nvm) (h : storesWf m = true) (hx : nvWf x = true) :
    storesWf { m with nvm := x } = true := by
  simp only [storesWf, Bool.and_eq_true] at h ⊢
  exact ⟨h.1, hx⟩
theorem nvFoldl_stores {β : Type} (f : Nvm → β → Nvm) (m : Nvm) (l : List β) (h : nvWf m = true)
    (hf : ∀ m i, nvWf m = true → nvWf (f m i) = true) : nvWf (l.foldl f m) = true := by
  induction l generalizing m with
  | nil => exact h
  | cons a t ih => exact ih _ (hf m a h)
theorem mk_stores {b : Mach} {dev : Dev} {host : HostLink} {blk : Vector Blk 139} {grd : Guard} {wdh : Wdh} {wds : Wds} {pwr : Pwr} {upd : Upd} {svc : Svc} {cnv : Vector Conv 55} {spares : Vector (Option Nat) 4} {adc : Adc} {tmon : Vector Tmon 16} {eng : Engine} {path : Path} {inp : Vector Input 6} {sto : Store} {chg : Vector ChgM 49} {aux : Aux} {lft : Lift} {prt : Vector Port 48} {ui : Ui} {pd : Vector Sess 48} {core : Vector Core 8} {serves : Vector Nat 48} {bay : Vector Bay 48} {keys : Vector FleetKey 4} {recs : Vector PackRec 256} {ctx : Vector Ctx 272} {est : Est} {thm : Thm}
    (h : storesWf b = true) : storesWf (Mach.mk dev host b.mbx blk grd wdh wds b.nvm pwr upd svc cnv spares adc tmon eng path inp sto chg aux lft prt ui pd core serves bay keys recs ctx est thm) = true := by
  simp only [storesWf] at h ⊢
  exact h
theorem mkNvm_stores {b : Mach} {dev : Dev} {host : HostLink} {blk : Vector Blk 139} {grd : Guard} {wdh : Wdh} {wds : Wds} {pwr : Pwr} {upd : Upd} {svc : Svc} {cnv : Vector Conv 55} {spares : Vector (Option Nat) 4} {adc : Adc} {tmon : Vector Tmon 16} {eng : Engine} {path : Path} {inp : Vector Input 6} {sto : Store} {chg : Vector ChgM 49} {aux : Aux} {lft : Lift} {prt : Vector Port 48} {ui : Ui} {pd : Vector Sess 48} {core : Vector Core 8} {serves : Vector Nat 48} {bay : Vector Bay 48} {keys : Vector FleetKey 4} {recs : Vector PackRec 256} {ctx : Vector Ctx 272} {est : Est} {thm : Thm} {nvm : Nvm}
    (h : storesWf b = true) (k : nvWf nvm = true) : storesWf (Mach.mk dev host b.mbx blk grd wdh wds nvm pwr upd svc cnv spares adc tmon eng path inp sto chg aux lft prt ui pd core serves bay keys recs ctx est thm) = true := by
  simp only [storesWf, Bool.and_eq_true] at h ⊢
  exact ⟨h.1, k⟩
theorem mkMbx_stores {b : Mach} {dev : Dev} {host : HostLink} {blk : Vector Blk 139} {grd : Guard} {wdh : Wdh} {wds : Wds} {pwr : Pwr} {upd : Upd} {svc : Svc} {cnv : Vector Conv 55} {spares : Vector (Option Nat) 4} {adc : Adc} {tmon : Vector Tmon 16} {eng : Engine} {path : Path} {inp : Vector Input 6} {sto : Store} {chg : Vector ChgM 49} {aux : Aux} {lft : Lift} {prt : Vector Port 48} {ui : Ui} {pd : Vector Sess 48} {core : Vector Core 8} {serves : Vector Nat 48} {bay : Vector Bay 48} {keys : Vector FleetKey 4} {recs : Vector PackRec 256} {ctx : Vector Ctx 272} {est : Est} {thm : Thm} {mbx : Mbx}
    (h : storesWf b = true) (k : mbxWf mbx = true) : storesWf (Mach.mk dev host mbx blk grd wdh wds b.nvm pwr upd svc cnv spares adc tmon eng path inp sto chg aux lft prt ui pd core serves bay keys recs ctx est thm) = true := by
  simp only [storesWf, Bool.and_eq_true] at h ⊢
  exact ⟨k, h.2⟩
theorem ite_stores (c : Prop) [Decidable c] (a b : Mach) (ha : storesWf a = true) (hb : storesWf b = true) :
    storesWf (if c then a else b) = true := by
  split <;> assumption
theorem iteAns_stores (c : Prop) [Decidable c] (a b : Ans) (ha : ansStores a) (hb : ansStores b) :
    ansStores (if c then a else b) := by
  split <;> assumption
theorem iteNv_stores (c : Prop) [Decidable c] (a b : Nvm) (ha : nvWf a = true) (hb : nvWf b = true) :
    nvWf (if c then a else b) = true := by
  split <;> assumption
theorem iteMbx_stores (c : Prop) [Decidable c] (a b : Mbx) (ha : mbxWf a = true) (hb : mbxWf b = true) :
    mbxWf (if c then a else b) = true := by
  split <;> assumption
theorem ringOk_map {r w : List JEntry} {l n : Nat} (f : JEntry → JEntry) (h : ringOk r w l n = true) :
    ringOk (r.map f) w l n = true := by
  simpa only [ringOk, List.length_map] using h
theorem ofLe_lt : ∀ bs : List Byte, ofLe bs < 256 ^ bs.length
  | [] => by simp [ofLe]
  | b :: t => by
    have h := ofLe_lt t
    have hb := b.isLt
    simp only [ofLe, List.foldr_cons, List.length_cons, Nat.pow_succ] at h ⊢
    omega
theorem pU_lt (p : List Byte) (off n : Nat) : pU p off n < 256 ^ n := by
  refine Nat.lt_of_lt_of_le (ofLe_lt _) (Nat.pow_le_pow_right (by decide) ?_)
  simp only [List.length_take]
  omega
theorem flatMap_length_le {α β : Type} (f : α → List β) (n : Nat) (h : ∀ a, (f a).length ≤ n) (l : List α) :
    (l.flatMap f).length ≤ n * l.length := by
  induction l with
  | nil => simp
  | cons a t ih =>
    have := h a
    simp only [List.flatMap_cons, List.length_append, List.length_cons, Nat.mul_succ]
    omega
theorem nvMk_stores {b : Nvm} {cur : Option PageWrite} {queue : List PageWrite} {sinceHost : Nat} {items : List CfgItem} {fast : Fast} {imageSeq : Nat} {ringNext : Nat} {checkpointAt : Option Nat} {saveUsed : Bool} {saveTorn : Bool} {reverted : Bool} {unc : Bool} {corrected : Nat} {pdwSysMv : Nat} {saving : Option Nat} {reverify : Bool}
    (h : nvWf b = true) : nvWf (Nvm.mk b.bytes b.stat cur queue sinceHost items fast imageSeq ringNext checkpointAt saveUsed saveTorn reverted unc corrected pdwSysMv saving reverify) = true := by
  simp only [nvWf] at h ⊢
  exact h
theorem mbxMk_stores {b : Mbx} {slots : Vector Slot 5} {order : List Nat} {accepted : List Nat} {eccBad : List Nat} {eccPd : List Nat}
    (h : mbxWf b = true) : mbxWf (Mbx.mk slots b.mem order accepted eccBad eccPd b.ring b.nextSeq b.waiting b.lost) = true := by
  simp only [mbxWf] at h ⊢
  exact h
theorem modCv_stores (m : Mach) (k : Nat) (f : Conv → Conv) (h_m : storesWf m = true) :
    storesWf (modCv m k f) = true := by
  unfold modCv
  apply mk_stores
  exact h_m

theorem modBlk_stores (m : Mach) (b : Nat) (f : Blk → Blk) (h_m : storesWf m = true) :
    storesWf (modBlk m b f) = true := by
  unfold modBlk
  apply mk_stores
  exact h_m

theorem modPort_stores (m : Mach) (p : Nat) (f : Port → Port) (h_m : storesWf m = true) :
    storesWf (modPort m p f) = true := by
  unfold modPort
  apply mk_stores
  exact h_m

theorem modPd_stores (m : Mach) (p : Nat) (f : Sess → Sess) (h_m : storesWf m = true) :
    storesWf (modPd m p f) = true := by
  unfold modPd
  apply mk_stores
  exact h_m

theorem modBay_stores (m : Mach) (p : Nat) (f : Bay → Bay) (h_m : storesWf m = true) :
    storesWf (modBay m p f) = true := by
  unfold modBay
  apply mk_stores
  exact h_m

theorem modInp_stores (m : Mach) (i : Nat) (f : Input → Input) (h_m : storesWf m = true) :
    storesWf (modInp m i f) = true := by
  unfold modInp
  apply mk_stores
  exact h_m

theorem modChg_stores (m : Mach) (c : Nat) (f : ChgM → ChgM) (h_m : storesWf m = true) :
    storesWf (modChg m c f) = true := by
  unfold modChg
  apply mk_stores
  exact h_m

theorem modHold_stores (m : Mach) (h : Nat) (f : Holder → Holder) (h_m : storesWf m = true) :
    storesWf (modHold m h f) = true := by
  unfold modHold
  dsimp only
  apply mk_stores
  exact h_m

theorem modCtx_stores (m : Mach) (x : Nat) (f : Ctx → Ctx) (h_m : storesWf m = true) :
    storesWf (modCtx m x f) = true := by
  unfold modCtx
  apply mk_stores
  exact h_m

theorem modTmon_stores (m : Mach) (j : Nat) (f : Tmon → Tmon) (h_m : storesWf m = true) :
    storesWf (modTmon m j f) = true := by
  unfold modTmon
  apply mk_stores
  exact h_m

theorem modSlot_stores (m : Mach) (s : Nat) (f : Slot → Slot) (h_m : storesWf m = true) :
    storesWf (modSlot m s f) = true := by
  unfold modSlot
  dsimp only
  apply mkMbx_stores
  · exact h_m
  · refine mbxWf_of ?_ ?_
    · dsimp only
      apply mem_of_mbx
      apply mbx_of_stores
      exact h_m
    · dsimp only
      apply ring_of_mbx
      apply mbx_of_stores
      exact h_m

theorem modCore_stores (m : Mach) (k : Nat) (f : Core → Core) (h_m : storesWf m = true) :
    storesWf (modCore m k f) = true := by
  unfold modCore
  apply mk_stores
  exact h_m

theorem modProc_stores (m : Mach) (a : Nat) (f : Proc → Proc) (h_m : storesWf m = true) :
    storesWf (modProc m a f) = true := by
  unfold modProc
  dsimp only
  apply mk_stores
  exact h_m

theorem modSens_stores (m : Mach) (x : Nat) (f : Sensor → Sensor) (h_m : storesWf m = true) :
    storesWf (modSens m x f) = true := by
  unfold modSens
  dsimp only
  apply mk_stores
  exact h_m

theorem modKey_stores (m : Mach) (p : Nat) (f : Key → Key) (h_m : storesWf m = true) :
    storesWf (modKey m p f) = true := by
  unfold modKey
  dsimp only
  apply mk_stores
  exact h_m

theorem draw_stores (m : Mach) (h_m : storesWf m = true) :
    storesWf (draw m).2 = true := by
  unfold draw
  dsimp only
  apply mk_stores
  exact h_m

theorem note_stores (m : Mach) (b : Nat) (c : Cause) (sev : Nat) (h_m : storesWf m = true) :
    storesWf (note m b c sev) = true := by
  unfold note
  apply forAll_stores
  · exact h_m
  · intro x0 x1 h2
    apply modBlk_stores
    exact h2

theorem detect_stores (m : Mach) (b : Nat) (c : Cause) (sev : Nat) (lastNs : Nat) (h_m : storesWf m = true) :
    storesWf (detect m b c sev lastNs).1 = true := by
  unfold detect
  dsimp only
  apply forAll_stores
  · exact h_m
  · intro x0 x1 h2
    apply modBlk_stores
    exact h2

theorem setLive_stores (m : Mach) (b : Nat) (c : Cause) (sev : Nat) (on : Bool) (h_m : storesWf m = true) :
    storesWf (setLive m b c sev on) = true := by
  unfold setLive
  dsimp only
  apply forAll_stores
  · exact h_m
  · intro x0 x1 h2
    apply modBlk_stores
    exact h2

theorem causeClear_stores (m : Mach) (b : Nat) (mask : Nat) (h_m : storesWf m = true) :
    storesWf (causeClear m b mask) = true := by
  unfold causeClear
  dsimp only
  apply modBlk_stores
  apply ite_stores
  · apply mk_stores
    exact h_m
  · exact h_m

theorem consequential_stores (m : Mach) (b : Nat) (c : Cause) (origin : Nat) (h_m : storesWf m = true) :
    storesWf (consequential m b c origin) = true := by
  unfold consequential
  apply forAll_stores
  · exact h_m
  · intro x0 x1 h2
    apply modBlk_stores
    exact h2

theorem openWindow_stores (m : Mach) (origin : Nat) (k : WinKind) (w3 : Nat) (ports : List Nat) (h_m : storesWf m = true) :
    storesWf (openWindow m origin k w3 ports) = true := by
  unfold openWindow
  dsimp only
  apply mk_stores
  exact h_m

theorem detectDep_stores (m : Mach) (d : Dep) (b : Nat) (c : Cause) (sev : Nat) (lastNs : Nat) (h_m : storesWf m = true) :
    storesWf (detectDep m d b c sev lastNs).1 = true := by
  unfold detectDep
  split
  · dsimp only
    apply consequential_stores
    exact h_m
  · apply detect_stores
    exact h_m

theorem flushWaiting_stores (x : Mbx) (w1 : Nat) (h_x : mbxWf x = true) :
    mbxWf (flushWaiting x w1) = true := by
  induction w1 generalizing x with
  | zero => exact h_x
  | succ n ih =>
    unfold flushWaiting
    split
    · exact h_x
    · rename_i e t hw
      split
      · have k := ring_of_mbx h_x
        have hm := mem_of_mbx h_x
        apply ih
        refine mbxWf_of hm ?_
        simp only [ringOk, Bool.and_eq_true, decide_eq_true_eq, hw, List.length_cons] at k ⊢
        refine ⟨⟨⟨⟨ringPush_length _ _ k.1.1.1.1, by omega⟩, k.1.1.2⟩, ?_⟩, ?_⟩ <;> (unfold seqNext; split <;> omega)
      · exact h_x

theorem journal_stores (m : Mach) (c : Cause) (b : Nat) (h_m : storesWf m = true) :
    storesWf (journal m c b) = true := by
  have k := ring_of_stores h_m
  have hm := mem_of_stores h_m
  simp only [ringOk, Bool.and_eq_true, decide_eq_true_eq] at k
  unfold journal
  dsimp only
  split
  · refine setMbx_stores _ _ h_m (mbxWf_of hm ?_)
    simp only [ringOk, Bool.and_eq_true, decide_eq_true_eq]
    refine ⟨⟨⟨⟨ringPush_length _ _ k.1.1.1.1, k.1.1.1.2⟩, k.1.1.2⟩, ?_⟩, ?_⟩ <;> (unfold seqNext; split <;> omega)
  · split
    · rename_i hw
      refine setMbx_stores _ _ h_m (mbxWf_of hm ?_)
      simp only [ringOk, Bool.and_eq_true, decide_eq_true_eq, List.length_append, List.length_singleton]
      exact ⟨⟨⟨⟨k.1.1.1.1, hw⟩, k.1.1.2⟩, k.1.2⟩, k.2⟩
    · refine setMbx_stores _ _ h_m (mbxWf_of hm ?_)
      simp only [ringOk, Bool.and_eq_true, decide_eq_true_eq, satTo]
      exact ⟨⟨⟨k.1.1.1, decide_eq_true (Nat.min_le_right _ _)⟩, k.1.2⟩, k.2⟩

theorem closeEntry_stores (m : Mach) (seq : Nat) (result : Nat) (detail : Nat) (h_m : storesWf m = true) :
    storesWf (closeEntry m seq result detail) = true := by
  have k := ring_of_stores h_m
  have hm := mem_of_stores h_m
  unfold closeEntry
  dsimp only
  exact setMbx_stores _ _ h_m (flushWaiting_stores _ _ (mbxWf_of hm (ringOk_mod _ _ k)))

theorem stopConv_stores (m : Mach) (k : Nat) (h_m : storesWf m = true) :
    storesWf (stopConv m k) = true := by
  unfold stopConv
  dsimp only
  apply modCv_stores
  exact h_m

theorem offerAgain_stores (m : Mach) (p : Nat) (h_m : storesWf m = true) :
    storesWf (offerAgain m p) = true := by
  unfold offerAgain
  dsimp only
  apply ite_stores
  · apply modPd_stores
    exact h_m
  · exact h_m

theorem ptbPut_stores (m : Mach) (l : List Ptb) (h_m : storesWf m = true) :
    storesWf (ptbPut m l) = true := by
  unfold ptbPut
  dsimp only
  apply ite_stores
  · apply setLive_stores
    apply mk_stores
    exact h_m
  · apply forAll_stores
    · apply setLive_stores
      apply mk_stores
      exact h_m
    · intro x0 x1 h2
      apply offerAgain_stores
      exact h2

theorem ptbEnd_stores (m : Mach) (id : Nat) (h_m : storesWf m = true) :
    storesWf (ptbEnd m id) = true := by
  unfold ptbEnd
  apply ite_stores
  · apply journal_stores
    apply ptbPut_stores
    exact h_m
  · exact h_m

theorem ptbEndAll_stores (m : Mach) (h_m : storesWf m = true) :
    storesWf (ptbEndAll m) = true := by
  unfold ptbEndAll
  apply forAll_stores
  · exact h_m
  · intro x0 x1 h2
    apply ptbEnd_stores
    exact h2

theorem advanceTo_stores (m : Mach) (t : Nat) (h_m : storesWf m = true) :
    storesWf (advanceTo m t) = true := by
  unfold advanceTo
  apply advance_stores
  exact h_m

theorem tick_stores (m : Mach) (h_m : storesWf m = true) :
    storesWf (tick m) = true := by
  unfold tick
  apply advance_stores
  exact h_m

theorem slotPut_stores (m : Mach) (s : Nat) (off : Nat) (bs : List Byte) (h_m : storesWf m = true) :
    storesWf (slotPut m s off bs) = true := by
  unfold slotPut
  dsimp only
  apply mkMbx_stores
  · exact h_m
  · refine mbxWf_of ?_ ?_
    · dsimp only
      apply amWf_amPutAll
      apply mem_of_mbx
      apply mbx_of_stores
      exact h_m
    · dsimp only
      apply ring_of_mbx
      apply mbx_of_stores
      exact h_m

theorem streamOut_stores (m : Mach) (frame : List Byte) (h_m : storesWf m = true) :
    storesWf (streamOut m frame) = true := by
  unfold streamOut
  dsimp only
  apply ite_stores
  · apply mk_stores
    exact h_m
  · exact h_m

theorem writeResponse_stores (m : Mach) (s : Nat) (st : Status) (jseq : Nat) (out : List Byte) (h_m : storesWf m = true) :
    storesWf (writeResponse m s st jseq out) = true := by
  unfold writeResponse
  dsimp only
  apply ite_stores
  · apply streamOut_stores
    apply modSlot_stores
    apply slotPut_stores
    exact h_m
  · apply modSlot_stores
    apply slotPut_stores
    exact h_m

theorem answer_stores (m : Mach) (s : Nat) (st : Status) (out : List Byte) (detail : Nat) (h_m : storesWf m = true) :
    storesWf (answer m s st out detail) = true := by
  unfold answer
  dsimp only
  have hr : ∀ (x : Mach) (q : Nat) (g : JEntry → JEntry), storesWf x = true →
      storesWf { x with mbx := { x.mbx with ring := ringMod x.mbx.ring q g } } = true := by
    intro x q g hx
    have k := ring_of_stores hx
    have hm := mem_of_stores hx
    exact setMbx_stores _ _ hx (mbxWf_of hm (ringOk_mod _ _ k))
  have ha : ∀ (x : Mach) (l : List Nat), storesWf x = true →
      storesWf { x with mbx := { x.mbx with accepted := l } } = true := by
    intro x l hx
    have k := ring_of_stores hx
    have hm := mem_of_stores hx
    exact setMbx_stores _ _ hx (mbxWf_of hm k)
  apply writeResponse_stores
  apply modSlot_stores
  split
  · exact ha _ _ (hr _ _ _ h_m)
  · exact ha _ _ (hr _ _ _ (closeEntry_stores _ _ _ _ h_m))

theorem begun_stores (m : Mach) (s : Nat) (h_m : storesWf m = true) :
    storesWf (begun m s) = true := by
  have k := ring_of_stores h_m
  have hm := mem_of_stores h_m
  exact setMbx_stores _ _ h_m (mbxWf_of hm (ringOk_mod _ _ k))

theorem settle_stores (m : Mach) (s : Nat) (w2 : Ans) (h_m : storesWf m = true) (h_w2 : ansStores w2) :
    storesWf (settle m s w2) = true := by
  cases w2
  · exact answer_stores _ _ _ _ _ h_w2
  · exact answer_stores _ _ _ _ _ h_w2
  · exact answer_stores _ _ _ _ _ h_w2
  · exact modSlot_stores _ _ _ h_w2
  · exact answer_stores _ _ _ _ _ (begun_stores m s h_m)

theorem execute_stores (m : Mach) (code : Nat) (s : Nat) (h : Mach → Nat → List Byte → Ans) (h_m : storesWf m = true) (h_h : ∀ m i p, storesWf m = true → ansStores (h m i p)) :
    storesWf (execute m code s h) = true := by
  unfold execute
  split
  · exact settle_stores _ _ _ h_m (h_h (begun m s) s (payload m s) (begun_stores m s h_m))
  · exact h_m

theorem command_stores (code : Nat) (slot : Nat) (h : Mach → Nat → List Byte → Ans) (s : State) (h_h : ∀ m i p, storesWf m = true → ansStores (h m i p)) (h_s : storesWf s.m = true) :
    outStores (command code slot h s) := by
  exact guardUnit_stores _ _ _ h_s (execute_stores _ _ _ _ h_s h_h)

theorem nvmEnqueue_stores (m : Mach) (w : PageWrite) (h_m : storesWf m = true) :
    storesWf (nvmEnqueue m w) = true := by
  unfold nvmEnqueue
  dsimp only
  apply mkNvm_stores
  · exact h_m
  · apply nvMk_stores
    apply nv_of_stores
    exact h_m

theorem saveItem_stores (m : Mach) (code : Nat) (key : Nat) (data : List Byte) (h_m : storesWf m = true) :
    storesWf (saveItem m code key data) = true := by
  unfold saveItem
  dsimp only
  apply mkNvm_stores
  · exact h_m
  · apply nvMk_stores
    apply nv_of_stores
    exact h_m

theorem programGroup_stores (nv : Nvm) (page : Nat) (k : Nat) (bs : List Byte) (h_nv : nvWf nv = true) :
    nvWf (programGroup nv page k bs) = true := by
  unfold programGroup
  refine nvWf_of ?_ ?_
  · dsimp only
    apply amWf_amPutAll
    apply bytes_of_nv
    exact h_nv
  · dsimp only
    apply amWf_amPut
    apply stat_of_nv
    exact h_nv

theorem blankGroup_stores (nv : Nvm) (page : Nat) (k : Nat) (h_nv : nvWf nv = true) :
    nvWf (blankGroup nv page k) = true := by
  unfold blankGroup
  refine nvWf_of ?_ ?_
  · dsimp only
    apply amWf_amPutAll
    apply bytes_of_nv
    exact h_nv
  · dsimp only
    apply amWf_amPut
    apply stat_of_nv
    exact h_nv

theorem uncGroup_stores (nv : Nvm) (page : Nat) (k : Nat) (n : Nat) (h_nv : nvWf nv = true) :
    nvWf (uncGroup nv page k n) = true := by
  unfold uncGroup
  refine nvWf_of ?_ ?_
  · dsimp only
    apply amWf_amPutAll
    apply bytes_of_nv
    exact h_nv
  · dsimp only
    apply amWf_amPut
    apply stat_of_nv
    exact h_nv

theorem erasePage_stores (nv : Nvm) (page : Nat) (h_nv : nvWf nv = true) :
    nvWf (erasePage nv page) = true := by
  unfold erasePage
  apply nvFold_stores
  · exact h_nv
  · intro x0 x1 h2
    apply blankGroup_stores
    exact h2

theorem programPage_stores (nv : Nvm) (page : Nat) (bs : List Byte) (h_nv : nvWf nv = true) :
    nvWf (programPage nv page bs) = true := by
  unfold programPage
  apply nvFold_stores
  · exact h_nv
  · intro x0 x1 h2
    apply programGroup_stores
    exact h2

theorem ctrRaise_stores (nv : Nvm) (c : Nat) (target : Nat) (h_nv : nvWf nv = true) :
    nvWf (ctrRaise nv c target) = true := by
  unfold ctrRaise
  split
  apply iteNv_stores
  · exact h_nv
  · apply programPage_stores
    exact h_nv

theorem nvmKick_stores (m : Mach) (h_m : storesWf m = true) :
    storesWf (nvmKick m) = true := by
  unfold nvmKick
  dsimp only
  apply ite_stores
  · split
    · exact h_m
    · apply mkNvm_stores
      · exact h_m
      · apply nvMk_stores
        apply nv_of_stores
        exact h_m
  · exact h_m

theorem nvmSubmit_stores (m : Mach) (w : PageWrite) (h_m : storesWf m = true) :
    storesWf (nvmSubmit m w) = true := by
  unfold nvmSubmit
  apply nvmKick_stores
  apply nvmEnqueue_stores
  exact h_m

theorem nvmConfig_stores (m : Mach) (code : Nat) (key : Nat) (data : List Byte) (h_m : storesWf m = true) :
    storesWf (nvmConfig m code key data) = true := by
  unfold nvmConfig
  apply nvmKick_stores
  apply saveItem_stores
  exact h_m

theorem nvmRaise_stores (m : Mach) (c : Nat) (target : Nat) (h_m : storesWf m = true) :
    storesWf (nvmRaise m c target) = true := by
  unfold nvmRaise
  apply nvmSubmit_stores
  exact h_m

theorem applyWrite_stores (nv : Nvm) (w : PageWrite) (h_nv : nvWf nv = true) :
    nvWf (applyWrite nv w) = true := by
  unfold applyWrite
  split
  · apply ctrRaise_stores
    exact h_nv
  · apply erasePage_stores
    exact h_nv
  · split
    · apply nvMk_stores
      exact h_nv
    · apply programPage_stores
      exact h_nv
  · apply erasePage_stores
    exact h_nv

theorem failWrite_stores (m : Mach) (w : PageWrite) (h_m : storesWf m = true) :
    storesWf (failWrite m w) = true := by
  unfold failWrite
  dsimp only
  apply ite_stores
  · exact h_m
  · apply foldl_stores
    · exact h_m
    · intro x0 x1 h2
      apply mkNvm_stores
      · apply draw_stores
        exact h2
      · split
        · apply programGroup_stores
          apply nv_of_stores
          apply draw_stores
          exact h2
        · apply blankGroup_stores
          apply nv_of_stores
          apply draw_stores
          exact h2
        · apply uncGroup_stores
          apply nv_of_stores
          apply draw_stores
          exact h2

theorem answerWriter_stores (m : Mach) (w : PageWrite) (verify : Nat) (h_m : storesWf m = true) :
    storesWf (answerWriter m w verify) = true := by
  unfold answerWriter
  split
  · exact h_m
  · apply ite_stores
    · apply answer_stores
      exact h_m
    · exact h_m

theorem pageWriteDone_stores (m : Mach) (ok1 : Bool) (ok2 : Bool) (h_m : storesWf m = true) :
    storesWf (pageWriteDone m ok1 ok2) = true := by
  unfold pageWriteDone
  dsimp only
  split
  · exact h_m
  · apply nvmKick_stores
    apply mkNvm_stores
    · split
      · apply answerWriter_stores
        apply ptbEnd_stores
        apply note_stores
        apply mkNvm_stores
        · apply advanceTo_stores
          exact h_m
        · split
          · apply nvMk_stores
            apply nv_of_stores
            apply advanceTo_stores
            exact h_m
          · apply nvFold_stores
            · apply erasePage_stores
              apply nv_of_stores
              apply advanceTo_stores
              exact h_m
            · intro x0 x1 h2
              apply programGroup_stores
              exact h2
      · apply ite_stores
        · apply answerWriter_stores
          split
          · apply ite_stores
            · apply modCtx_stores
              apply mkNvm_stores
              · apply advanceTo_stores
                exact h_m
              · apply applyWrite_stores
                apply nv_of_stores
                apply advanceTo_stores
                exact h_m
            · apply mkNvm_stores
              · apply advanceTo_stores
                exact h_m
              · apply applyWrite_stores
                apply nv_of_stores
                apply advanceTo_stores
                exact h_m
          · apply mkNvm_stores
            · apply advanceTo_stores
              exact h_m
            · apply applyWrite_stores
              apply nv_of_stores
              apply advanceTo_stores
              exact h_m
        · apply answerWriter_stores
          apply note_stores
          apply failWrite_stores
          apply advanceTo_stores
          exact h_m
    · apply nvMk_stores
      apply nv_of_stores
      split
      · apply answerWriter_stores
        apply ptbEnd_stores
        apply note_stores
        apply mkNvm_stores
        · apply advanceTo_stores
          exact h_m
        · split
          · apply nvMk_stores
            apply nv_of_stores
            apply advanceTo_stores
            exact h_m
          · apply nvFold_stores
            · apply erasePage_stores
              apply nv_of_stores
              apply advanceTo_stores
              exact h_m
            · intro x3 x4 h5
              apply programGroup_stores
              exact h5
      · apply ite_stores
        · apply answerWriter_stores
          split
          · apply ite_stores
            · apply modCtx_stores
              apply mkNvm_stores
              · apply advanceTo_stores
                exact h_m
              · apply applyWrite_stores
                apply nv_of_stores
                apply advanceTo_stores
                exact h_m
            · apply mkNvm_stores
              · apply advanceTo_stores
                exact h_m
              · apply applyWrite_stores
                apply nv_of_stores
                apply advanceTo_stores
                exact h_m
          · apply mkNvm_stores
            · apply advanceTo_stores
              exact h_m
            · apply applyWrite_stores
              apply nv_of_stores
              apply advanceTo_stores
              exact h_m
        · apply answerWriter_stores
          apply note_stores
          apply failWrite_stores
          apply advanceTo_stores
          exact h_m

theorem abandonSlot_stores (m : Mach) (s : Nat) (h_m : storesWf m = true) :
    storesWf (abandonSlot m s) = true := by
  unfold abandonSlot
  dsimp only
  apply modSlot_stores
  apply forAll_stores
  · refine stores_of ?_ ?_
    · dsimp only
      apply flushWaiting_stores
      refine mbxWf_of ?_ ?_
      · dsimp only
        apply mem_of_mbx
        apply mbx_of_stores
        exact h_m
      · dsimp only
        apply ringOk_mod
        apply ring_of_mbx
        apply mbx_of_stores
        exact h_m
    · dsimp only
      apply nvMk_stores
      apply nv_of_stores
      exact h_m
  · intro x0 x1 h2
    apply modCv_stores
    exact h2

theorem restoreFast_stores (m : Mach) (d : List Byte) (h_m : storesWf m = true) :
    storesWf (restoreFast m d) = true := by
  unfold restoreFast
  dsimp only
  apply forAll_stores
  · apply forAll_stores
    · apply mkNvm_stores
      · exact h_m
      · apply nvMk_stores
        apply nv_of_stores
        exact h_m
    · intro x0 x1 h2
      apply modPort_stores
      exact h2
  · intro x3 x4 h5
    apply modCtx_stores
    exact h5

theorem energyMeter_stores (m : Mach) (h_m : storesWf m = true) :
    storesWf (energyMeter m) = true := by
  unfold energyMeter
  dsimp only
  apply mkNvm_stores
  · exact h_m
  · apply nvMk_stores
    apply nv_of_stores
    exact h_m

theorem writeCheckpoint_stores (m : Mach) (h_m : storesWf m = true) :
    storesWf (writeCheckpoint m) = true := by
  unfold writeCheckpoint
  dsimp only
  apply nvmKick_stores
  apply mkNvm_stores
  · apply forAll_stores
    · apply energyMeter_stores
      exact h_m
    · intro x0 x1 h2
      apply nvmEnqueue_stores
      exact h2
  · apply nvMk_stores
    apply nv_of_stores
    apply forAll_stores
    · apply energyMeter_stores
      exact h_m
    · intro x3 x4 h5
      apply nvmEnqueue_stores
      exact h5

theorem savePage_stores (nv : Nvm) (page : Nat) (bs : List Byte) (hold : Bool) (h_nv : nvWf nv = true) :
    nvWf (savePage nv page bs hold) = true := by
  unfold savePage
  apply iteNv_stores
  · apply programPage_stores
    exact h_nv
  · exact h_nv

theorem saveRegionWrite_stores (m : Mach) (kind : Nat) (hold : List Nat) (cap : Nat) (h_m : storesWf m = true) :
    nvWf (saveRegionWrite m kind hold cap).1 = true := by
  unfold saveRegionWrite
  dsimp only
  apply nvFoldl_stores
  · apply nvFold_stores
    · apply nvFold_stores
      · apply nv_of_stores
        exact h_m
      · intro x0 x1 h2
        apply savePage_stores
        exact h2
    · intro x3 x4 h5
      apply savePage_stores
      exact h5
  · intro x6 x7 h8
    apply savePage_stores
    exact h8

theorem powerDownSave_stores (m : Mach) (kind : Nat) (hold : List Nat) (h_m : storesWf m = true) :
    storesWf (powerDownSave m kind hold) = true := by
  unfold powerDownSave
  dsimp only
  apply ite_stores
  · apply mkNvm_stores
    · exact h_m
    · apply nvMk_stores
      apply nv_of_stores
      exact h_m
  · apply ite_stores
    · apply mkNvm_stores
      · apply ite_stores
        · apply mkNvm_stores
          · apply energyMeter_stores
            apply mkNvm_stores
            · apply pageWriteDone_stores
              exact h_m
            · apply nvMk_stores
              apply nv_of_stores
              apply pageWriteDone_stores
              exact h_m
          · apply nvMk_stores
            apply saveRegionWrite_stores
            apply energyMeter_stores
            apply mkNvm_stores
            · apply pageWriteDone_stores
              exact h_m
            · apply nvMk_stores
              apply nv_of_stores
              apply pageWriteDone_stores
              exact h_m
        · apply note_stores
          apply mkNvm_stores
          · apply energyMeter_stores
            apply mkNvm_stores
            · apply pageWriteDone_stores
              exact h_m
            · apply nvMk_stores
              apply nv_of_stores
              apply pageWriteDone_stores
              exact h_m
          · apply nvMk_stores
            apply saveRegionWrite_stores
            apply energyMeter_stores
            apply mkNvm_stores
            · apply pageWriteDone_stores
              exact h_m
            · apply nvMk_stores
              apply nv_of_stores
              apply pageWriteDone_stores
              exact h_m
      · apply ctrRaise_stores
        apply nv_of_stores
        apply ite_stores
        · apply mkNvm_stores
          · apply energyMeter_stores
            apply mkNvm_stores
            · apply pageWriteDone_stores
              exact h_m
            · apply nvMk_stores
              apply nv_of_stores
              apply pageWriteDone_stores
              exact h_m
          · apply nvMk_stores
            apply saveRegionWrite_stores
            apply energyMeter_stores
            apply mkNvm_stores
            · apply pageWriteDone_stores
              exact h_m
            · apply nvMk_stores
              apply nv_of_stores
              apply pageWriteDone_stores
              exact h_m
        · apply note_stores
          apply mkNvm_stores
          · apply energyMeter_stores
            apply mkNvm_stores
            · apply pageWriteDone_stores
              exact h_m
            · apply nvMk_stores
              apply nv_of_stores
              apply pageWriteDone_stores
              exact h_m
          · apply nvMk_stores
            apply saveRegionWrite_stores
            apply energyMeter_stores
            apply mkNvm_stores
            · apply pageWriteDone_stores
              exact h_m
            · apply nvMk_stores
              apply nv_of_stores
              apply pageWriteDone_stores
              exact h_m
    · apply ite_stores
      · apply mkNvm_stores
        · apply energyMeter_stores
          apply mkNvm_stores
          · apply pageWriteDone_stores
            exact h_m
          · apply nvMk_stores
            apply nv_of_stores
            apply pageWriteDone_stores
            exact h_m
        · apply nvMk_stores
          apply saveRegionWrite_stores
          apply energyMeter_stores
          apply mkNvm_stores
          · apply pageWriteDone_stores
            exact h_m
          · apply nvMk_stores
            apply nv_of_stores
            apply pageWriteDone_stores
            exact h_m
      · apply note_stores
        apply mkNvm_stores
        · apply energyMeter_stores
          apply mkNvm_stores
          · apply pageWriteDone_stores
            exact h_m
          · apply nvMk_stores
            apply nv_of_stores
            apply pageWriteDone_stores
            exact h_m
        · apply nvMk_stores
          apply saveRegionWrite_stores
          apply energyMeter_stores
          apply mkNvm_stores
          · apply pageWriteDone_stores
            exact h_m
          · apply nvMk_stores
            apply nv_of_stores
            apply pageWriteDone_stores
            exact h_m

theorem eraseSaveRegion_stores (m : Mach) (h_m : storesWf m = true) :
    storesWf (eraseSaveRegion m) = true := by
  unfold eraseSaveRegion
  dsimp only
  apply mkNvm_stores
  · exact h_m
  · apply nvMk_stores
    apply iteNv_stores
    · apply nvFold_stores
      · apply nv_of_stores
        exact h_m
      · intro x0 x1 h2
        apply erasePage_stores
        exact h2
    · apply nvFold_stores
      · apply nvFold_stores
        · apply nv_of_stores
          exact h_m
        · intro x3 x4 h5
          apply erasePage_stores
          exact h5
      · intro x6 x7 h8
        apply erasePage_stores
        exact h8

theorem tornGroup_stores (m : Mach) (page : Nat) (k : Nat) (keep : Nvm → Nvm) (h_m : storesWf m = true) (h_keep : ∀ m, nvWf m = true → nvWf (keep m) = true) :
    storesWf (tornGroup m page k keep) = true := by
  unfold tornGroup
  dsimp only
  apply mkNvm_stores
  · apply draw_stores
    exact h_m
  · split
    · apply h_keep
      apply nv_of_stores
      apply draw_stores
      exact h_m
    · apply blankGroup_stores
      apply nv_of_stores
      apply draw_stores
      exact h_m
    · apply uncGroup_stores
      apply nv_of_stores
      apply draw_stores
      exact h_m

theorem tornPage_stores (m : Mach) (w : PageWrite) (h_m : storesWf m = true) :
    storesWf (tornPage m w) = true := by
  unfold tornPage
  dsimp only
  apply ite_stores
  · exact h_m
  · apply ite_stores
    · apply mkNvm_stores
      · exact h_m
      · apply applyWrite_stores
        apply nv_of_stores
        exact h_m
    · split
      · apply mkNvm_stores
        · exact h_m
        · apply nvMk_stores
          apply nv_of_stores
          exact h_m
      · apply ite_stores
        · apply forAll_stores
          · exact h_m
          · intro x0 x1 h2
            apply tornGroup_stores
            · exact h2
            · intro x3 h4
              dsimp only [id]
              exact h4
        · apply forAll_stores
          · exact h_m
          · intro x5 x6 h7
            apply ite_stores
            · apply mkNvm_stores
              · exact h7
              · apply programGroup_stores
                apply nv_of_stores
                exact h7
            · apply ite_stores
              · apply tornGroup_stores
                · exact h7
                · intro x8 h9
                  apply programGroup_stores
                  exact h9
              · apply mkNvm_stores
                · exact h7
                · apply blankGroup_stores
                  apply nv_of_stores
                  exact h7

theorem tearWrite_stores (m : Mach) (h_m : storesWf m = true) :
    storesWf (tearWrite m) = true := by
  unfold tearWrite
  dsimp only
  apply mkNvm_stores
  · split
    · apply ite_stores
      · apply tornPage_stores
        exact h_m
      · exact h_m
    · exact h_m
  · apply nvMk_stores
    apply nv_of_stores
    split
    · apply ite_stores
      · apply tornPage_stores
        exact h_m
      · exact h_m
    · exact h_m

theorem nvmStatWrite_stores (m : Mach) (w : Nat) (h_m : storesWf m = true) :
    storesWf (nvmStatWrite m w) = true := by
  unfold nvmStatWrite
  dsimp only
  apply mkNvm_stores
  · exact h_m
  · apply nvMk_stores
    apply nv_of_stores
    exact h_m

theorem cmdNvmRead_stores (m : Mach) (w1 : Nat) (p : List Byte) (h_m : storesWf m = true) :
    ansStores (cmdNvmRead m w1 p) := by
  unfold cmdNvmRead
  dsimp only
  apply refuseFirst_stores
  simp only [ansStores]
  apply ite_stores
  · apply note_stores
    apply mkNvm_stores
    · exact h_m
    · apply nvMk_stores
      apply nv_of_stores
      exact h_m
  · apply mkNvm_stores
    · exact h_m
    · apply nvMk_stores
      apply nv_of_stores
      exact h_m

theorem cmdNvmWrite_stores (m : Mach) (s : Nat) (p : List Byte) (h_m : storesWf m = true) :
    ansStores (cmdNvmWrite m s p) := by
  unfold cmdNvmWrite
  dsimp only
  apply refuseFirst_stores
  simp only [ansStores]
  apply nvmSubmit_stores
  exact h_m

theorem cmdNvmErase_stores (m : Mach) (s : Nat) (p : List Byte) (h_m : storesWf m = true) :
    ansStores (cmdNvmErase m s p) := by
  unfold cmdNvmErase
  dsimp only
  apply refuseFirst_stores
  simp only [ansStores]
  apply nvmSubmit_stores
  exact h_m

theorem cmdNvmCounterGet_stores (m : Mach) (w1 : Nat) (p : List Byte) (h_m : storesWf m = true) :
    ansStores (cmdNvmCounterGet m w1 p) := by
  unfold cmdNvmCounterGet
  dsimp only
  apply refuseFirst_stores
  simp only [ansStores]
  exact h_m

theorem cmdNvmSave_stores (m : Mach) (w1 : Nat) (w2 : List Byte) (h_m : storesWf m = true) :
    ansStores (cmdNvmSave m w1 w2) := by
  unfold cmdNvmSave
  apply refuseFirst_stores
  simp only [ansStores]
  apply powerDownSave_stores
  exact h_m

theorem cmdNvmPdwSet_stores (m : Mach) (w1 : Nat) (p : List Byte) (h_m : storesWf m = true) :
    ansStores (cmdNvmPdwSet m w1 p) := by
  unfold cmdNvmPdwSet
  dsimp only
  apply refuseFirst_stores
  simp only [ansStores]
  apply nvmConfig_stores
  apply mkNvm_stores
  · exact h_m
  · apply nvMk_stores
    apply nv_of_stores
    exact h_m

theorem execNvmRead_stores (slot : Nat) (s : State) (h_s : storesWf s.m = true) :
    outStores (execNvmRead slot s) := by
  unfold execNvmRead
  apply command_stores
  · intro x0 x1 x2 h3
    apply cmdNvmRead_stores
    exact h3
  · exact h_s

theorem execNvmWrite_stores (slot : Nat) (s : State) (h_s : storesWf s.m = true) :
    outStores (execNvmWrite slot s) := by
  unfold execNvmWrite
  apply command_stores
  · intro x0 x1 x2 h3
    apply cmdNvmWrite_stores
    exact h3
  · exact h_s

theorem execNvmErase_stores (slot : Nat) (s : State) (h_s : storesWf s.m = true) :
    outStores (execNvmErase slot s) := by
  unfold execNvmErase
  apply command_stores
  · intro x0 x1 x2 h3
    apply cmdNvmErase_stores
    exact h3
  · exact h_s

theorem execNvmCounterGet_stores (slot : Nat) (s : State) (h_s : storesWf s.m = true) :
    outStores (execNvmCounterGet slot s) := by
  unfold execNvmCounterGet
  apply command_stores
  · intro x0 x1 x2 h3
    apply cmdNvmCounterGet_stores
    exact h3
  · exact h_s

theorem execNvmSave_stores (slot : Nat) (s : State) (h_s : storesWf s.m = true) :
    outStores (execNvmSave slot s) := by
  unfold execNvmSave
  apply command_stores
  · intro x0 x1 x2 h3
    apply cmdNvmSave_stores
    exact h3
  · exact h_s

theorem execNvmPdwSet_stores (slot : Nat) (s : State) (h_s : storesWf s.m = true) :
    outStores (execNvmPdwSet slot s) := by
  unfold execNvmPdwSet
  apply command_stores
  · intro x0 x1 x2 h3
    apply cmdNvmPdwSet_stores
    exact h3
  · exact h_s

theorem execNvmPageWriteDone_stores (ok1 : Bool) (ok2 : Bool) (s : State) (h_s : storesWf s.m = true) :
    outStores (execNvmPageWriteDone ok1 ok2 s) := by
  unfold execNvmPageWriteDone
  apply next_stores
  apply pageWriteDone_stores
  exact h_s

theorem execCheckpoint_stores (s : State) (h_s : storesWf s.m = true) :
    outStores (execCheckpoint s) := by
  unfold execCheckpoint
  dsimp only
  apply next_stores
  apply fire_stores
  · exact h_s
  · intro x0 h1
    apply mkNvm_stores
    · apply writeCheckpoint_stores
      exact h1
    · apply nvMk_stores
      apply nv_of_stores
      apply writeCheckpoint_stores
      exact h1

theorem execSaveRegionErase_stores (s : State) (h_s : storesWf s.m = true) :
    outStores (execSaveRegionErase s) := by
  unfold execSaveRegionErase
  apply next_stores
  apply when_stores
  · exact h_s
  · intro x0 h1
    apply eraseSaveRegion_stores
    apply ite_stores
    · apply writeCheckpoint_stores
      exact h1
    · exact h1

theorem execXinReturn_stores (s : State) (h_s : storesWf s.m = true) :
    outStores (execXinReturn s) := by
  unfold execXinReturn
  dsimp only
  apply next_stores
  apply when_stores
  · exact h_s
  · intro x0 h1
    split
    · apply mkNvm_stores
      · exact h1
      · apply nvMk_stores
        apply nv_of_stores
        exact h1
    · apply nvmKick_stores
      apply mk_stores
      exact h1

theorem learnWrite_stores (m : Mach) (x : Nat) (h_m : storesWf m = true) :
    storesWf (learnWrite m x) = true := by
  unfold learnWrite
  dsimp only
  apply nvmKick_stores
  apply mkNvm_stores
  · apply modCtx_stores
    exact h_m
  · apply nvMk_stores
    apply nv_of_stores
    apply modCtx_stores
    exact h_m

theorem limHold_stores (m : Mach) (k : Nat) (j : Nat) (v : Nat) (h_m : storesWf m = true) :
    storesWf (limHold m k j v).1 = true := by
  unfold limHold
  dsimp only
  split
  · dsimp only
    apply modCv_stores
    exact h_m
  · dsimp only
    exact h_m

theorem setRef_stores (m : Mach) (k : Nat) (j : Nat) (v : Nat) (h_m : storesWf m = true) :
    storesWf (setRef m k j v) = true := by
  unfold setRef
  dsimp only
  apply modCv_stores
  apply limHold_stores
  exact h_m

theorem rankRecompute_stores (m : Mach) (h_m : storesWf m = true) :
    storesWf (rankRecompute m) = true := by
  unfold rankRecompute
  dsimp only
  apply forAll_stores
  · exact h_m
  · intro x0 x1 h2
    apply modInp_stores
    exact h2

theorem ladderApply_stores (m : Mach) (h_m : storesWf m = true) :
    storesWf (ladderApply m) = true := by
  unfold ladderApply
  dsimp only
  apply forAll_stores
  · apply forAll_stores
    · exact h_m
    · intro x0 x1 h2
      apply ite_stores
      · apply setRef_stores
        apply setRef_stores
        apply setRef_stores
        apply setRef_stores
        exact h2
      · exact h2
  · intro x3 x4 h5
    apply ite_stores
    · apply setRef_stores
      exact h5
    · exact h5

theorem pdTell_stores (m : Mach) (p : Nat) (g : PdMsg) (h_m : storesWf m = true) :
    storesWf (pdTell m p g) = true := by
  unfold pdTell
  apply modPd_stores
  exact h_m

theorem closeSwap_stores (m : Mach) (p : Nat) (h_m : storesWf m = true) :
    storesWf (closeSwap m p) = true := by
  unfold closeSwap
  split
  · apply modPd_stores
    apply closeEntry_stores
    exact h_m
  · exact h_m

theorem softResetOut_stores (m : Mach) (p : Nat) (h_m : storesWf m = true) :
    storesWf (softResetOut m p) = true := by
  unfold softResetOut
  apply modPd_stores
  apply closeSwap_stores
  exact h_m

theorem dcpEval_stores (m : Mach) (p : Nat) (h_m : storesWf m = true) :
    storesWf (dcpEval m p) = true := by
  unfold dcpEval
  dsimp only
  apply modPort_stores
  exact h_m

theorem typeCSettle_stores (m : Mach) (p : Nat) (h_m : storesWf m = true) :
    storesWf (typeCSettle m p) = true := by
  unfold typeCSettle
  dsimp only
  apply ite_stores
  · apply dcpEval_stores
    exact h_m
  · apply dcpEval_stores
    apply ite_stores
    · apply setRef_stores
      apply modPort_stores
      exact h_m
    · apply modPort_stores
      exact h_m

theorem dropPass_stores (m : Mach) (h : Nat) (h_m : storesWf m = true) :
    storesWf (dropPass m h) = true := by
  unfold dropPass
  apply modHold_stores
  exact h_m

theorem parkPass_stores (m : Mach) (p : Nat) (h_m : storesWf m = true) :
    storesWf (parkPass m p) = true := by
  unfold parkPass
  apply modHold_stores
  exact h_m

theorem closeSession_closeOutcomes_stores (m : Mach) (p : Nat) (h_m : storesWf m = true) :
    storesWf (closeSession.closeOutcomes m p) = true := by
  unfold closeSession.closeOutcomes
  dsimp only
  split
  · apply closeEntry_stores
    split
    · apply closeEntry_stores
      exact h_m
    · exact h_m
  · split
    · apply closeEntry_stores
      exact h_m
    · exact h_m

theorem closeSession_stores (m : Mach) (p : Nat) (h_m : storesWf m = true) :
    storesWf (closeSession m p) = true := by
  unfold closeSession
  apply modPd_stores
  apply closeSession_closeOutcomes_stores
  exact h_m

theorem cancelMap_stores (m : Mach) (k : Nat) (h_m : storesWf m = true) :
    storesWf (cancelMap m k) = true := by
  unfold cancelMap
  dsimp only
  split
  · apply answer_stores
    apply modCv_stores
    exact h_m
  · apply modCv_stores
    exact h_m

theorem flushMap_stores (m : Mach) (k : Nat) (h_m : storesWf m = true) :
    storesWf (flushMap m k) = true := by
  unfold flushMap
  dsimp only
  split
  · exact h_m
  · split
    · apply answer_stores
      apply modCv_stores
      exact h_m
    · apply modCv_stores
      exact h_m

theorem stopRun_stores (m : Mach) (k : Nat) (h_m : storesWf m = true) :
    storesWf (stopRun m k) = true := by
  unfold stopRun
  apply flushMap_stores
  apply stopConv_stores
  exact h_m

theorem endLink_stores (m : Mach) (reason : Nat) (h_m : storesWf m = true) :
    storesWf (endLink m reason) = true := by
  unfold endLink
  dsimp only
  apply ite_stores
  · exact h_m
  · apply mk_stores
    apply ptbEndAll_stores
    exact h_m

theorem chgEnter_stores (m : Mach) (c : Nat) (st : ChgSt) (h_m : storesWf m = true) :
    storesWf (chgEnter m c st) = true := by
  unfold chgEnter
  dsimp only
  apply modChg_stores
  exact h_m

theorem markFence_stores (m : Mach) (b : Nat) (code : Nat) (h_m : storesWf m = true) :
    storesWf (markFence m b code) = true := by
  unfold markFence
  apply modBlk_stores
  exact h_m

theorem abortBy_stores (m : Mach) (p : Nat) (code : Nat) (h_m : storesWf m = true) :
    storesWf (abortBy m p code) = true := by
  unfold abortBy
  dsimp only
  apply ite_stores
  · apply journal_stores
    apply modPd_stores
    exact h_m
  · exact h_m

theorem bayLearn_stores (m : Mach) (p : Nat) (h_m : storesWf m = true) :
    storesWf (bayLearn m p) = true := by
  unfold bayLearn
  split
  · apply learnWrite_stores
    exact h_m
  · exact h_m

theorem portFenceEffects_stores (m : Mach) (p : Nat) (h_m : storesWf m = true) :
    storesWf (portFenceEffects m p) = true := by
  unfold portFenceEffects
  dsimp only
  apply openWindow_stores
  apply cancelMap_stores
  apply ite_stores
  · apply endLink_stores
    apply chgEnter_stores
    apply mk_stores
    apply dropPass_stores
    apply closeSession_stores
    apply modPort_stores
    apply modCv_stores
    apply stopConv_stores
    apply bayLearn_stores
    apply abortBy_stores
    exact h_m
  · apply chgEnter_stores
    apply mk_stores
    apply dropPass_stores
    apply closeSession_stores
    apply modPort_stores
    apply modCv_stores
    apply stopConv_stores
    apply bayLearn_stores
    apply abortBy_stores
    exact h_m

theorem fenceConv_stores (m : Mach) (k : Nat) (code : Nat) (h_m : storesWf m = true) :
    storesWf (fenceConv m k code) = true := by
  unfold fenceConv
  dsimp only
  apply ite_stores
  · apply portFenceEffects_stores
    apply markFence_stores
    apply markFence_stores
    exact h_m
  · apply ite_stores
    · apply openWindow_stores
      apply ladderApply_stores
      apply rankRecompute_stores
      apply modInp_stores
      apply cancelMap_stores
      apply stopConv_stores
      apply markFence_stores
      exact h_m
    · apply dropPass_stores
      apply mk_stores
      apply cancelMap_stores
      apply stopConv_stores
      apply markFence_stores
      exact h_m

theorem fault_stores (m : Mach) (k : Nat) (c : Cause) (sev : Nat) (h_m : storesWf m = true) :
    storesWf (fault m k c sev) = true := by
  unfold fault
  dsimp only
  apply ite_stores
  · apply fenceConv_stores
    apply detect_stores
    exact h_m
  · apply detect_stores
    exact h_m

theorem shedLimits_stores (m : Mach) (k : Nat) (h_m : storesWf m = true) :
    storesWf (shedLimits m k) = true := by
  unfold shedLimits
  dsimp only
  apply setRef_stores
  apply setRef_stores
  exact h_m

theorem fencePhase_stores (m : Mach) (k : Nat) (idx : Nat) (c : Cause) (sev : Nat) (h_m : storesWf m = true) :
    storesWf (fencePhase m k idx c sev) = true := by
  unfold fencePhase
  dsimp only
  apply ite_stores
  · apply fenceConv_stores
    apply modCv_stores
    apply detect_stores
    exact h_m
  · apply ite_stores
    · apply ite_stores
      · apply modPd_stores
        apply ite_stores
        · apply pdTell_stores
          apply modCv_stores
          apply shedLimits_stores
          apply modCv_stores
          apply detect_stores
          exact h_m
        · apply modCv_stores
          apply shedLimits_stores
          apply modCv_stores
          apply detect_stores
          exact h_m
      · apply modCv_stores
        apply shedLimits_stores
        apply modCv_stores
        apply detect_stores
        exact h_m
    · apply shedLimits_stores
      apply modCv_stores
      apply detect_stores
      exact h_m

theorem freezeIout_stores (m : Mach) (h_m : storesWf m = true) :
    storesWf (freezeIout m) = true := by
  unfold freezeIout
  dsimp only
  apply forAll_stores
  · exact h_m
  · intro x0 x1 h2
    apply modCv_stores
    exact h2

theorem fenceStore_stores (m : Mach) (code : Nat) (h_m : storesWf m = true) :
    storesWf (fenceStore m code) = true := by
  unfold fenceStore
  dsimp only
  apply openWindow_stores
  apply ladderApply_stores
  apply chgEnter_stores
  apply mk_stores
  apply freezeIout_stores
  apply markFence_stores
  exact h_m

theorem serveBy_stores (m : Mach) (p : Nat) (k : Nat) (h_m : storesWf m = true) :
    storesWf (serveBy m p k) = true := by
  unfold serveBy
  apply mk_stores
  exact h_m

theorem bayRestart_stores (m : Mach) (p : Nat) (h_m : storesWf m = true) :
    storesWf (bayRestart m p) = true := by
  unfold bayRestart
  apply modBay_stores
  exact h_m

theorem movePorts_stores (m : Mach) (k : Nat) (h_m : storesWf m = true) :
    storesWf (movePorts m k) = true := by
  unfold movePorts
  dsimp only
  apply forAll_stores
  · exact h_m
  · intro x0 x1 h2
    split
    · apply ite_stores
      · apply softResetOut_stores
        apply serveBy_stores
        apply bayRestart_stores
        exact h2
      · apply serveBy_stores
        apply bayRestart_stores
        exact h2
    · apply ite_stores
      · apply bayRestart_stores
        exact h2
      · apply modPd_stores
        apply closeSession_stores
        apply ite_stores
        · apply parkPass_stores
          apply setRef_stores
          apply bayRestart_stores
          exact h2
        · apply bayRestart_stores
          exact h2

theorem migrationDone_stores (m : Mach) (k : Nat) (h_m : storesWf m = true) :
    storesWf (migrationDone m k) = true := by
  unfold migrationDone
  dsimp only
  apply ite_stores
  · exact h_m
  · split
    · apply modCore_stores
      apply closeEntry_stores
      exact h_m
    · apply modCore_stores
      exact h_m

theorem fenceCore_stores (m : Mach) (k : Nat) (code : Nat) (h_m : storesWf m = true) :
    storesWf (fenceCore m k code) = true := by
  unfold fenceCore
  dsimp only
  apply openWindow_stores
  apply movePorts_stores
  apply migrationDone_stores
  apply markFence_stores
  apply forAll_stores
  · exact h_m
  · intro x0 x1 h2
    apply modPd_stores
    exact h2

theorem feWLost_stores (m : Mach) (h_m : storesWf m = true) :
    storesWf (feWLost m) = true := by
  unfold feWLost
  dsimp only
  apply ite_stores
  · apply ladderApply_stores
    apply modChg_stores
    apply chgEnter_stores
    apply mk_stores
    exact h_m
  · apply mk_stores
    exact h_m

theorem fenceDie_modPwr_stores (m : Mach) (d : Nat) (h_m : storesWf m = true) :
    storesWf (fenceDie.modPwr m d) = true := by
  unfold fenceDie.modPwr
  dsimp only
  apply mk_stores
  exact h_m

theorem fenceDie_stores (m : Mach) (d : Nat) (code : Nat) (h_m : storesWf m = true) :
    storesWf (fenceDie m d code) = true := by
  unfold fenceDie
  dsimp only
  apply openWindow_stores
  apply fenceDie_modPwr_stores
  apply ite_stores
  · apply feWLost_stores
    apply forAll_stores
    · apply markFence_stores
      exact h_m
    · intro x0 x1 h2
      apply ite_stores
      · exact h2
      · apply cancelMap_stores
        apply mk_stores
        apply ite_stores
        · apply chgEnter_stores
          apply modPort_stores
          apply bayLearn_stores
          apply dropPass_stores
          apply closeSession_stores
          apply abortBy_stores
          apply modCv_stores
          apply stopConv_stores
          apply markFence_stores
          apply markFence_stores
          exact h2
        · apply modPort_stores
          apply bayLearn_stores
          apply dropPass_stores
          apply closeSession_stores
          apply abortBy_stores
          apply modCv_stores
          apply stopConv_stores
          apply markFence_stores
          apply markFence_stores
          exact h2
  · apply forAll_stores
    · apply markFence_stores
      exact h_m
    · intro x3 x4 h5
      apply ite_stores
      · exact h5
      · apply cancelMap_stores
        apply mk_stores
        apply ite_stores
        · apply chgEnter_stores
          apply modPort_stores
          apply bayLearn_stores
          apply dropPass_stores
          apply closeSession_stores
          apply abortBy_stores
          apply modCv_stores
          apply stopConv_stores
          apply markFence_stores
          apply markFence_stores
          exact h5
        · apply modPort_stores
          apply bayLearn_stores
          apply dropPass_stores
          apply closeSession_stores
          apply abortBy_stores
          apply modCv_stores
          apply stopConv_stores
          apply markFence_stores
          apply markFence_stores
          exact h5

theorem requestStart_stores (m : Mach) (k : Nat) (h_m : storesWf m = true) :
    storesWf (requestStart m k) = true := by
  unfold requestStart
  dsimp only
  apply ite_stores
  · exact h_m
  · apply modCv_stores
    exact h_m

theorem adcShortage_stores (m : Mach) (h_m : storesWf m = true) :
    storesWf (adcShortage m) = true := by
  unfold adcShortage
  dsimp only
  apply ite_stores
  · apply forAll_stores
    · exact h_m
    · intro x0 x1 h2
      apply ite_stores
      · exact h2
      · apply fenceConv_stores
        apply detect_stores
        exact h2
  · apply ite_stores
    · apply mk_stores
      exact h_m
    · apply mk_stores
      exact h_m

theorem declare_stores (m : Mach) (k : Nat) (d : Decl) (h_m : storesWf m = true) :
    storesWf (declare m k d) = true := by
  unfold declare
  dsimp only
  apply adcShortage_stores
  apply modCv_stores
  apply forAll_stores
  · apply forAll_stores
    · apply modCv_stores
      apply mk_stores
      exact h_m
    · intro x0 x1 h2
      apply modCv_stores
      exact h2
  · intro x3 x4 h5
    apply modCv_stores
    exact h5

theorem setDeclare_stores (m : Mach) (p : List Byte) (h_m : storesWf m = true) :
    ansStores (setDeclare m p) := by
  unfold setDeclare
  dsimp only
  apply refuseFirst_stores
  simp only [ansStores]
  apply declare_stores
  exact h_m

theorem persist_stores (code : Nat) (key : Nat) (p : List Byte) (a : Ans) (h_a : ansStores a) :
    ansStores (persist code key p a) := by
  unfold persist
  split
  · simp only [ansStores]
    apply nvmConfig_stores
    assumption
  · exact h_a

theorem cmdCnvDeclare_stores (m : Mach) (w1 : Nat) (p : List Byte) (h_m : storesWf m = true) :
    ansStores (cmdCnvDeclare m w1 p) := by
  unfold cmdCnvDeclare
  apply persist_stores
  apply setDeclare_stores
  exact h_m

theorem execCnvDeclare_stores (slot : Nat) (s : State) (h_s : storesWf s.m = true) :
    outStores (execCnvDeclare slot s) := by
  unfold execCnvDeclare
  apply command_stores
  · intro x0 x1 x2 h3
    apply cmdCnvDeclare_stores
    exact h3
  · exact h_s

theorem phaseSelftest_stores (m : Mach) (k : Nat) (idx : Nat) (x : SelftestMeas) (h_m : storesWf m = true) :
    storesWf (phaseSelftest m k idx x) = true := by
  unfold phaseSelftest
  dsimp only
  apply ite_stores
  · apply modCv_stores
    apply modCv_stores
    exact h_m
  · apply ite_stores
    · apply modCv_stores
      exact h_m
    · apply modCv_stores
      apply ite_stores
      · apply forAll_stores
        · apply detect_stores
          apply modCv_stores
          exact h_m
        · intro x0 x1 h2
          apply modBlk_stores
          exact h2
      · apply detect_stores
        apply modCv_stores
        exact h_m

theorem execPhaseSelftest_stores (conv : Nat) (phase : Nat) (meas : SelftestMeas) (s : State) (h_s : storesWf s.m = true) :
    outStores (execPhaseSelftest conv phase meas s) := by
  unfold execPhaseSelftest
  apply guardUnit_stores
  · exact h_s
  · apply when_stores
    · exact h_s
    · intro x0 h1
      apply phaseSelftest_stores
      exact h1

theorem answerSelftest_stores (m : Mach) (k : Nat) (h_m : storesWf m = true) :
    storesWf (answerSelftest m k) = true := by
  unfold answerSelftest
  dsimp only
  split
  · exact h_m
  · apply ite_stores
    · apply answer_stores
      apply modCv_stores
      exact h_m
    · apply modCv_stores
      exact h_m

theorem selftestDone_stores (m : Mach) (k : Nat) (h_m : storesWf m = true) :
    storesWf (selftestDone m k) = true := by
  unfold selftestDone
  dsimp only
  apply ite_stores
  · apply answerSelftest_stores
    apply modCv_stores
    exact h_m
  · apply answerSelftest_stores
    apply ite_stores
    · apply fenceConv_stores
      apply modCv_stores
      apply modCv_stores
      exact h_m
    · apply modCv_stores
      apply modCv_stores
      exact h_m

theorem execSelftestDone_stores (conv : Nat) (s : State) (h_s : storesWf s.m = true) :
    outStores (execSelftestDone conv s) := by
  unfold execSelftestDone
  apply guardUnit_stores
  · exact h_s
  · apply when_stores
    · exact h_s
    · intro x0 h1
      apply selftestDone_stores
      exact h1

theorem execSelftestDeferredRun_stores (input : Nat) (vinMv : Nat) (s : State) (h_s : storesWf s.m = true) :
    outStores (execSelftestDeferredRun input vinMv s) := by
  unfold execSelftestDeferredRun
  apply guardRead_stores
  · exact h_s
  · apply when_stores
    · exact h_s
    · intro x0 h1
      apply modCv_stores
      exact h1

theorem cmdPhsSelftest_stores (m : Mach) (s : Nat) (p : List Byte) (h_m : storesWf m = true) :
    ansStores (cmdPhsSelftest m s p) := by
  unfold cmdPhsSelftest
  dsimp only
  apply refuseFirst_stores
  simp only [ansStores]
  apply modCv_stores
  exact h_m

theorem execPhsSelftest_stores (slot : Nat) (s : State) (h_s : storesWf s.m = true) :
    outStores (execPhsSelftest slot s) := by
  unfold execPhsSelftest
  apply command_stores
  · intro x0 x1 x2 h3
    apply cmdPhsSelftest_stores
    exact h3
  · exact h_s

theorem cmdPhsStatusGet_stores (m : Mach) (w1 : Nat) (p : List Byte) (h_m : storesWf m = true) :
    ansStores (cmdPhsStatusGet m w1 p) := by
  unfold cmdPhsStatusGet
  dsimp only
  apply refuseFirst_stores
  simp only [ansStores]
  exact h_m

theorem execPhsStatusGet_stores (slot : Nat) (s : State) (h_s : storesWf s.m = true) :
    outStores (execPhsStatusGet slot s) := by
  unfold execPhsStatusGet
  apply command_stores
  · intro x0 x1 x2 h3
    apply cmdPhsStatusGet_stores
    exact h3
  · exact h_s

theorem peakTrip_stores (m : Mach) (k : Nat) (idx : Nat) (h_m : storesWf m = true) :
    storesWf (peakTrip m k idx) = true := by
  unfold peakTrip
  dsimp only
  apply modCv_stores
  exact h_m

theorem execPeakTrip_stores (conv : Nat) (hit : PeakHit) (s : State) (h_s : storesWf s.m = true) :
    outStores (execPeakTrip conv hit s) := by
  unfold execPeakTrip
  apply guardUnit_stores
  · exact h_s
  · apply when_stores
    · exact h_s
    · intro x0 h1
      apply peakTrip_stores
      exact h1

theorem execSenseSplit_stores (conv : Nat) (phase : Nat) (aMa : Int) (bMa : Int) (s : State) (h_s : storesWf s.m = true) :
    outStores (execSenseSplit conv phase aMa bMa s) := by
  unfold execSenseSplit
  apply guardUnit_stores
  · exact h_s
  · apply when_stores
    · exact h_s
    · intro x0 h1
      apply note_stores
      exact h1

theorem tmonRead_stores (m : Mach) (j : Nat) (mv : Nat) (h_m : storesWf m = true) :
    storesWf (tmonRead m j mv) = true := by
  unfold tmonRead
  dsimp only
  apply ite_stores
  · apply modTmon_stores
    exact h_m
  · apply ite_stores
    · apply forAll_stores
      · apply modTmon_stores
        exact h_m
      · intro x0 x1 h2
        apply setLive_stores
        exact h2
    · apply modTmon_stores
      exact h_m

theorem tmonOpen_stores (m : Mach) (j : Nat) (mv : Nat) (h_m : storesWf m = true) :
    storesWf (tmonOpen m j mv) = true := by
  unfold tmonOpen
  dsimp only
  apply ite_stores
  · apply note_stores
    exact h_m
  · apply forAll_stores
    · apply modTmon_stores
      exact h_m
    · intro x0 x1 h2
      apply setLive_stores
      apply note_stores
      exact h2

theorem execTmonOpen_stores (group : Nat) (mv : Nat) (s : State) (h_s : storesWf s.m = true) :
    outStores (execTmonOpen group mv s) := by
  unfold execTmonOpen
  apply guardUnit_stores
  · exact h_s
  · apply when_stores
    · exact h_s
    · intro x0 h1
      apply tmonOpen_stores
      exact h1

theorem stageFault_stores (m : Mach) (j : Nat) (mv : Nat) (h_m : storesWf m = true) :
    storesWf (stageFault m j mv) = true := by
  unfold stageFault
  dsimp only
  apply ite_stores
  · apply note_stores
    exact h_m
  · apply forAll_stores
    · apply modTmon_stores
      exact h_m
    · intro x0 x1 h2
      apply setLive_stores
      apply note_stores
      exact h2

theorem execStageFault_stores (group : Nat) (mv : Nat) (s : State) (h_s : storesWf s.m = true) :
    outStores (execStageFault group mv s) := by
  unfold execStageFault
  apply guardUnit_stores
  · exact h_s
  · apply when_stores
    · exact h_s
    · intro x0 h1
      apply stageFault_stores
      exact h1

theorem stageClear_stores (m : Mach) (j : Nat) (h_m : storesWf m = true) :
    storesWf (stageClear m j) = true := by
  unfold stageClear
  dsimp only
  apply forAll_stores
  · apply modTmon_stores
    exact h_m
  · intro x0 x1 h2
    apply setLive_stores
    exact h2

theorem stageFenceAll_stores (m : Mach) (j : Nat) (h_m : storesWf m = true) :
    storesWf (stageFenceAll m j) = true := by
  unfold stageFenceAll
  dsimp only
  apply modTmon_stores
  apply forAll_stores
  · exact h_m
  · intro x0 x1 h2
    apply fenceConv_stores
    apply detect_stores
    exact h2

theorem parkBegin_stores (m : Mach) (j : Nat) (k : Nat) (i : Nat) (h_m : storesWf m = true) :
    storesWf (parkBegin m j k i) = true := by
  unfold parkBegin
  dsimp only
  apply ite_stores
  · apply modCv_stores
    apply stopRun_stores
    apply modTmon_stores
    exact h_m
  · apply modCv_stores
    apply modTmon_stores
    exact h_m

theorem stageIdentify_stores (m : Mach) (j : Nat) (found : List Nat) (h_m : storesWf m = true) :
    storesWf (stageIdentify m j found) = true := by
  unfold stageIdentify
  dsimp only
  apply ite_stores
  · apply stageClear_stores
    apply foldl_stores
    · exact h_m
    · intro x0 x1 h2
      apply fencePhase_stores
      exact h2
  · split
    · apply stageFenceAll_stores
      exact h_m
    · apply parkBegin_stores
      apply modTmon_stores
      exact h_m

theorem execStageIdentify_stores (group : Nat) (found : List Nat) (s : State) (h_s : storesWf s.m = true) :
    outStores (execStageIdentify group found s) := by
  unfold execStageIdentify
  apply guardUnit_stores
  · exact h_s
  · apply when_stores
    · exact h_s
    · intro x0 h1
      apply stageIdentify_stores
      exact h1

theorem unpark_stores (m : Mach) (k : Nat) (i : Nat) (h_m : storesWf m = true) :
    storesWf (unpark m k i) = true := by
  unfold unpark
  apply ite_stores
  · apply requestStart_stores
    exact h_m
  · apply modCv_stores
    exact h_m

theorem phaseParkEnd_stores (m : Mach) (j : Nat) (mv : Nat) (h_m : storesWf m = true) :
    storesWf (phaseParkEnd m j mv) = true := by
  unfold phaseParkEnd
  dsimp only
  split
  · exact h_m
  · apply ite_stores
    · apply stageClear_stores
      apply fencePhase_stores
      apply unpark_stores
      exact h_m
    · split
      · apply stageFenceAll_stores
        apply modTmon_stores
        apply unpark_stores
        exact h_m
      · apply parkBegin_stores
        apply modTmon_stores
        apply unpark_stores
        exact h_m

theorem execPhaseParkEnd_stores (group : Nat) (mv : Nat) (s : State) (h_s : storesWf s.m = true) :
    outStores (execPhaseParkEnd group mv s) := by
  unfold execPhaseParkEnd
  apply guardUnit_stores
  · exact h_s
  · apply fire_stores
    · exact h_s
    · intro x0 h1
      apply phaseParkEnd_stores
      exact h1

theorem execTmonMaskExpire_stores (group : Nat) (s : State) (h_s : storesWf s.m = true) :
    outStores (execTmonMaskExpire group s) := by
  unfold execTmonMaskExpire
  apply guardUnit_stores
  · exact h_s
  · apply fire_stores
    · exact h_s
    · intro x0 h1
      apply modTmon_stores
      exact h1

theorem imonZeroCheck_stores (m : Mach) (k : Nat) (idx : Nat) (za : Nat) (zb : Nat) (h_m : storesWf m = true) :
    storesWf (imonZeroCheck m k idx za zb) = true := by
  unfold imonZeroCheck
  dsimp only
  apply ite_stores
  · apply modCv_stores
    exact h_m
  · apply fencePhase_stores
    apply modCv_stores
    exact h_m

theorem execImonZeroCheck_stores (conv : Nat) (phase : Nat) (zeroA : Nat) (zeroB : Nat) (s : State) (h_s : storesWf s.m = true) :
    outStores (execImonZeroCheck conv phase zeroA zeroB s) := by
  unfold execImonZeroCheck
  apply guardUnit_stores
  · exact h_s
  · apply when_stores
    · exact h_s
    · intro x0 h1
      apply imonZeroCheck_stores
      exact h1

theorem apDrops_stores (m : Mach) (reqs : List ApReq) (h_m : storesWf m = true) :
    storesWf (apDrops m reqs) = true := by
  unfold apDrops
  dsimp only
  apply foldl_stores
  · exact h_m
  · intro x0 x1 h2
    apply ite_stores
    · apply mk_stores
      exact h2
    · apply ite_stores
      · apply modCv_stores
        exact h2
      · exact h2

theorem modAdc_stores (m : Mach) (a : Nat) (f : AdcUnit → AdcUnit) (h_m : storesWf m = true) :
    storesWf (modAdc m a f) = true := by
  unfold modAdc
  dsimp only
  apply mk_stores
  exact h_m

theorem adcStep_stores (m : Mach) (h_m : storesWf m = true) :
    storesWf (adcStep m) = true := by
  unfold adcStep
  dsimp only
  apply ite_stores
  · exact h_m
  · split
    · apply modAdc_stores
      apply mk_stores
      exact h_m
    · exact h_m

theorem adcRotation_stores (m : Mach) (h_m : storesWf m = true) :
    storesWf (adcRotation m) = true := by
  unfold adcRotation
  dsimp only
  apply adcStep_stores
  apply mk_stores
  exact h_m

theorem execAdcRotation_stores (s : State) (h_s : storesWf s.m = true) :
    outStores (execAdcRotation s) := by
  unfold execAdcRotation
  apply next_stores
  apply when_stores
  · exact h_s
  · intro x0 h1
    apply fire_stores
    · exact h1
    · intro x2 h3
      apply adcRotation_stores
      exact h3

theorem adcFill_stores (m : Mach) (h_m : storesWf m = true) :
    storesWf (adcFill m) = true := by
  unfold adcFill
  apply ite_stores
  · exact h_m
  · split
    · apply modAdc_stores
      exact h_m
    · exact h_m

theorem adcHandover_stores (m : Mach) (disagree : List Nat) (leavingErr : Nat) (standinErr : Nat) (h_m : storesWf m = true) :
    storesWf (adcHandover m disagree leavingErr standinErr) = true := by
  unfold adcHandover
  dsimp only
  split
  · apply ite_stores
    · apply ite_stores
      · apply adcFill_stores
        apply modAdc_stores
        apply modAdc_stores
        apply mk_stores
        apply ite_stores
        · apply note_stores
          apply mk_stores
          exact h_m
        · exact h_m
      · apply modAdc_stores
        apply mk_stores
        apply ite_stores
        · apply note_stores
          apply mk_stores
          exact h_m
        · exact h_m
    · apply modAdc_stores
      apply modAdc_stores
      apply mk_stores
      apply ite_stores
      · apply note_stores
        apply mk_stores
        exact h_m
      · exact h_m
  · exact h_m

theorem execAdcHandover_stores (disagree : List Nat) (leavingErr : Nat) (standinErr : Nat) (s : State) (h_s : storesWf s.m = true) :
    outStores (execAdcHandover disagree leavingErr standinErr s) := by
  unfold execAdcHandover
  apply next_stores
  apply adcHandover_stores
  exact h_s

theorem adcCalDone_stores (m : Mach) (pass : Bool) (h_m : storesWf m = true) :
    storesWf (adcCalDone m pass) = true := by
  unfold adcCalDone
  dsimp only
  split
  · exact h_m
  · apply ite_stores
    · apply adcStep_stores
      apply ite_stores
      · apply adcFill_stores
        apply modAdc_stores
        apply mk_stores
        exact h_m
      · apply ite_stores
        · apply adcShortage_stores
          apply modAdc_stores
          apply mk_stores
          exact h_m
        · apply modAdc_stores
          apply mk_stores
          exact h_m
    · apply ite_stores
      · apply adcFill_stores
        apply modAdc_stores
        apply mk_stores
        exact h_m
      · apply ite_stores
        · apply adcShortage_stores
          apply modAdc_stores
          apply mk_stores
          exact h_m
        · apply modAdc_stores
          apply mk_stores
          exact h_m

theorem execAdcCalDone_stores (pass : Bool) (s : State) (h_s : storesWf s.m = true) :
    outStores (execAdcCalDone pass s) := by
  unfold execAdcCalDone
  apply next_stores
  apply adcCalDone_stores
  exact h_s

theorem adcStatWrite_stores (m : Mach) (w : Nat) (h_m : storesWf m = true) :
    storesWf (adcStatWrite m w) = true := by
  unfold adcStatWrite
  dsimp only
  apply mk_stores
  exact h_m

theorem modCtrl_stores (m : Mach) (k : Nat) (f : Ctrl → Ctrl) (h_m : storesWf m = true) :
    storesWf (modCtrl m k f) = true := by
  unfold modCtrl
  apply modCv_stores
  exact h_m

theorem execSpeculation_stores (conv : Nat) (early : List (Option Int)) (s : State) (h_s : storesWf s.m = true) :
    outStores (execSpeculation conv early s) := by
  unfold execSpeculation
  dsimp only
  apply guardUnit_stores
  · exact h_s
  · apply when_stores
    · exact h_s
    · intro x0 h1
      apply modCtrl_stores
      exact h1

theorem answerMap_stores (m : Mach) (k : Nat) (h_m : storesWf m = true) :
    storesWf (answerMap m k) = true := by
  unfold answerMap
  dsimp only
  split
  · exact h_m
  · apply ite_stores
    · apply answer_stores
      apply modCtrl_stores
      exact h_m
    · apply modCtrl_stores
      exact h_m

theorem withMap_stores (m : Mach) (k : Nat) (f : Mach → Mach) (h_m : storesWf m = true) (h_f : ∀ m, storesWf m = true → storesWf (f m ) = true) :
    storesWf (withMap m k f) = true := by
  unfold withMap
  dsimp only
  apply ite_stores
  · apply answerMap_stores
    apply h_f
    exact h_m
  · apply h_f
    exact h_m

theorem resolve_stores (m : Mach) (k : Nat) (y : List Int) (h_m : storesWf m = true) :
    storesWf (resolve m k y) = true := by
  unfold resolve
  apply withMap_stores
  · exact h_m
  · intro x0 h1
    apply modCv_stores
    exact h1

theorem startPathHold_stores (m : Mach) (k : Nat) (h_m : storesWf m = true) :
    storesWf (startPathHold m k) = true := by
  unfold startPathHold
  dsimp only
  apply ite_stores
  · apply setRef_stores
    exact h_m
  · exact h_m

theorem execResolve_stores (conv : Nat) (y : List Int) (s : State) (h_s : storesWf s.m = true) :
    outStores (execResolve conv y s) := by
  unfold execResolve
  apply guardUnit_stores
  · exact h_s
  · apply when_stores
    · exact h_s
    · intro x0 h1
      apply ite_stores
      · apply modCtrl_stores
        exact h1
      · apply startPathHold_stores
        apply resolve_stores
        apply modCtrl_stores
        exact h1

theorem execShadowLoad_stores (conv : Nat) (s : State) (h_s : storesWf s.m = true) :
    outStores (execShadowLoad conv s) := by
  unfold execShadowLoad
  dsimp only
  apply guardUnit_stores
  · exact h_s
  · apply when_stores
    · exact h_s
    · intro x0 h1
      apply modCtrl_stores
      exact h1

theorem logRecovery_stores (m : Mach) (n : Nat) (h_m : storesWf m = true) :
    storesWf (logRecovery m n) = true := by
  unfold logRecovery
  dsimp only
  apply ite_stores
  · apply setLive_stores
    apply note_stores
    apply mk_stores
    exact h_m
  · apply mk_stores
    exact h_m

theorem recovery_stores (m : Mach) (k : Nat) (h_m : storesWf m = true) :
    storesWf (recovery m k) = true := by
  unfold recovery
  dsimp only
  split
  · exact h_m
  · apply logRecovery_stores
    apply withMap_stores
    · exact h_m
    · intro x0 h1
      apply modCtrl_stores
      exact h1

theorem execRecovery_stores (conv : Nat) (s : State) (h_s : storesWf s.m = true) :
    outStores (execRecovery conv s) := by
  unfold execRecovery
  apply guardUnit_stores
  · exact h_s
  · apply when_stores
    · exact h_s
    · intro x0 h1
      apply recovery_stores
      exact h1

theorem boundary_stores (m : Mach) (k : Nat) (h_m : storesWf m = true) :
    storesWf (boundary m k) = true := by
  unfold boundary
  dsimp only
  apply modCv_stores
  exact h_m

theorem periodBoundary_stores (m : Mach) (k : Nat) (h_m : storesWf m = true) :
    storesWf (periodBoundary m k) = true := by
  unfold periodBoundary
  dsimp only
  apply ite_stores
  · apply typeCSettle_stores
    apply modPd_stores
    apply boundary_stores
    exact h_m
  · apply boundary_stores
    exact h_m

theorem execPeriodBoundary_stores (conv : Nat) (s : State) (h_s : storesWf s.m = true) :
    outStores (execPeriodBoundary conv s) := by
  unfold execPeriodBoundary
  apply guardUnit_stores
  · exact h_s
  · apply when_stores
    · exact h_s
    · intro x0 h1
      apply periodBoundary_stores
      exact h1

theorem execModeChange_stores (conv : Nat) (s : State) (h_s : storesWf s.m = true) :
    outStores (execModeChange conv s) := by
  unfold execModeChange
  dsimp only
  apply guardUnit_stores
  · exact h_s
  · apply when_stores
    · exact h_s
    · intro x0 h1
      apply modCtrl_stores
      exact h1

theorem ctrlStarved_stores (m : Mach) (k : Nat) (h_m : storesWf m = true) :
    storesWf (ctrlStarved m k) = true := by
  unfold ctrlStarved
  dsimp only
  apply mk_stores
  apply fault_stores
  apply modCtrl_stores
  exact h_m

theorem execCtrlStarved_stores (conv : Nat) (s : State) (h_s : storesWf s.m = true) :
    outStores (execCtrlStarved conv s) := by
  unfold execCtrlStarved
  apply guardUnit_stores
  · exact h_s
  · apply when_stores
    · exact h_s
    · intro x0 h1
      apply ctrlStarved_stores
      exact h1

theorem execSpecSuspend_stores (s : State) (h_s : storesWf s.m = true) :
    outStores (execSpecSuspend s) := by
  unfold execSpecSuspend
  dsimp only
  apply next_stores
  apply when_stores
  · exact h_s
  · intro x0 h1
    apply setLive_stores
    apply mk_stores
    apply note_stores
    exact h1

theorem cmdCnvSpecResume_stores (m : Mach) (w1 : Nat) (w2 : List Byte) (h_m : storesWf m = true) :
    ansStores (cmdCnvSpecResume m w1 w2) := by
  unfold cmdCnvSpecResume
  dsimp only
  apply refuseFirst_stores
  simp only [ansStores]
  apply setLive_stores
  apply mk_stores
  exact h_m

theorem execCnvSpecResume_stores (slot : Nat) (s : State) (h_s : storesWf s.m = true) :
    outStores (execCnvSpecResume slot s) := by
  unfold execCnvSpecResume
  apply command_stores
  · intro x0 x1 x2 h3
    apply cmdCnvSpecResume_stores
    exact h3
  · exact h_s

theorem cmdCnvCoefWrite_stores (m : Mach) (w1 : Nat) (p : List Byte) (h_m : storesWf m = true) :
    ansStores (cmdCnvCoefWrite m w1 p) := by
  unfold cmdCnvCoefWrite
  dsimp only
  apply refuseFirst_stores
  simp only [ansStores]
  apply modCtrl_stores
  exact h_m

theorem execCnvCoefWrite_stores (slot : Nat) (s : State) (h_s : storesWf s.m = true) :
    outStores (execCnvCoefWrite slot s) := by
  unfold execCnvCoefWrite
  apply command_stores
  · intro x0 x1 x2 h3
    apply cmdCnvCoefWrite_stores
    exact h3
  · exact h_s

theorem cmdCnvSetMap_stores (m : Mach) (s : Nat) (p : List Byte) (h_m : storesWf m = true) :
    ansStores (cmdCnvSetMap m s p) := by
  unfold cmdCnvSetMap
  dsimp only
  apply refuseFirst_stores
  apply iteAns_stores
  · simp only [ansStores]
    apply modCtrl_stores
    exact h_m
  · simp only [ansStores]
    apply modCtrl_stores
    exact h_m

theorem execCnvSetMap_stores (slot : Nat) (s : State) (h_s : storesWf s.m = true) :
    outStores (execCnvSetMap slot s) := by
  unfold execCnvSetMap
  apply command_stores
  · intro x0 x1 x2 h3
    apply cmdCnvSetMap_stores
    exact h3
  · exact h_s

theorem cmdCnvRefSet_stores (m : Mach) (w1 : Nat) (p : List Byte) (h_m : storesWf m = true) :
    ansStores (cmdCnvRefSet m w1 p) := by
  unfold cmdCnvRefSet
  dsimp only
  apply refuseFirst_stores
  simp only [ansStores]
  apply setRef_stores
  apply mk_stores
  exact h_m

theorem execCnvRefSet_stores (slot : Nat) (s : State) (h_s : storesWf s.m = true) :
    outStores (execCnvRefSet slot s) := by
  unfold execCnvRefSet
  apply command_stores
  · intro x0 x1 x2 h3
    apply cmdCnvRefSet_stores
    exact h3
  · exact h_s

theorem cmdCnvLoopCfg_stores (m : Mach) (w1 : Nat) (p : List Byte) (h_m : storesWf m = true) :
    ansStores (cmdCnvLoopCfg m w1 p) := by
  unfold cmdCnvLoopCfg
  dsimp only
  apply refuseFirst_stores
  simp only [ansStores]
  apply ite_stores
  · apply modCtrl_stores
    exact h_m
  · apply modCv_stores
    exact h_m

theorem execCnvLoopCfg_stores (slot : Nat) (s : State) (h_s : storesWf s.m = true) :
    outStores (execCnvLoopCfg slot s) := by
  unfold execCnvLoopCfg
  apply command_stores
  · intro x0 x1 x2 h3
    apply cmdCnvLoopCfg_stores
    exact h3
  · exact h_s

theorem cmdCnvSpecStatsGet_stores (m : Mach) (w1 : Nat) (p : List Byte) (h_m : storesWf m = true) :
    ansStores (cmdCnvSpecStatsGet m w1 p) := by
  unfold cmdCnvSpecStatsGet
  dsimp only
  apply refuseFirst_stores
  simp only [ansStores]
  apply ite_stores
  · apply modCtrl_stores
    exact h_m
  · exact h_m

theorem execCnvSpecStatsGet_stores (slot : Nat) (s : State) (h_s : storesWf s.m = true) :
    outStores (execCnvSpecStatsGet slot s) := by
  unfold execCnvSpecStatsGet
  apply command_stores
  · intro x0 x1 x2 h3
    apply cmdCnvSpecStatsGet_stores
    exact h3
  · exact h_s

theorem engineStatWrite_stores (m : Mach) (w : Nat) (h_m : storesWf m = true) :
    storesWf (engineStatWrite m w) = true := by
  unfold engineStatWrite
  dsimp only
  apply ite_stores
  · apply setLive_stores
    apply mk_stores
    exact h_m
  · exact h_m

theorem modProt_stores (m : Mach) (k : Nat) (f : Prot → Prot) (h_m : storesWf m = true) :
    storesWf (modProt m k f) = true := by
  unfold modProt
  apply modCv_stores
  exact h_m

theorem putRef_stores (m : Mach) (k : Nat) (j : Nat) (v : Nat) (h_m : storesWf m = true) :
    storesWf (putRef m k j v) = true := by
  unfold putRef
  dsimp only
  apply modCtrl_stores
  apply limHold_stores
  exact h_m

theorem startRefs_stores (m : Mach) (k : Nat) (h_m : storesWf m = true) :
    storesWf (startRefs m k) = true := by
  unfold startRefs
  dsimp only
  apply ite_stores
  · apply ite_stores
    · exact h_m
    · apply ite_stores
      · apply putRef_stores
        apply putRef_stores
        apply putRef_stores
        apply putRef_stores
        exact h_m
      · apply putRef_stores
        apply putRef_stores
        apply putRef_stores
        apply putRef_stores
        exact h_m
  · apply ite_stores
    · apply ladderApply_stores
      exact h_m
    · apply putRef_stores
      apply putRef_stores
      apply putRef_stores
      apply putRef_stores
      apply mk_stores
      exact h_m

theorem refuseStart_stores (m : Mach) (k : Nat) (h_m : storesWf m = true) :
    storesWf (refuseStart m k) = true := by
  unfold refuseStart
  dsimp only
  apply modCv_stores
  apply stopConv_stores
  exact h_m

theorem beginRun_stores (m : Mach) (k : Nat) (mean : Int) (vbs : Nat) (h_m : storesWf m = true) :
    storesWf (beginRun m k mean vbs) = true := by
  unfold beginRun
  dsimp only
  apply modCv_stores
  exact h_m

theorem prebiasZeros_stores (m : Mach) (k : Nat) (zeros : List (Nat × Nat)) (h_m : storesWf m = true) :
    storesWf (prebiasZeros m k zeros) = true := by
  unfold prebiasZeros
  apply foldl_stores
  · exact h_m
  · intro x0 x1 h2
    apply ite_stores
    · apply imonZeroCheck_stores
      exact h2
    · exact h2

theorem prebiasCheck_stores (m : Mach) (k : Nat) (x : PrebiasMeas) (h_m : storesWf m = true) :
    storesWf (prebiasCheck m k x) = true := by
  unfold prebiasCheck
  dsimp only
  apply ite_stores
  · apply refuseStart_stores
    apply modProt_stores
    apply note_stores
    exact h_m
  · apply ite_stores
    · apply refuseStart_stores
      exact h_m
    · apply ite_stores
      · apply prebiasZeros_stores
        exact h_m
      · apply ite_stores
        · apply ite_stores
          · apply refuseStart_stores
            apply modProt_stores
            apply note_stores
            apply ite_stores
            · apply putRef_stores
              apply putRef_stores
              apply putRef_stores
              apply putRef_stores
              apply ite_stores
              · apply modBay_stores
                apply ite_stores
                · apply modCv_stores
                  apply prebiasZeros_stores
                  exact h_m
                · apply prebiasZeros_stores
                  exact h_m
              · apply ite_stores
                · apply modCv_stores
                  apply prebiasZeros_stores
                  exact h_m
                · apply prebiasZeros_stores
                  exact h_m
            · apply startRefs_stores
              apply ite_stores
              · apply modBay_stores
                apply ite_stores
                · apply modCv_stores
                  apply prebiasZeros_stores
                  exact h_m
                · apply prebiasZeros_stores
                  exact h_m
              · apply ite_stores
                · apply modCv_stores
                  apply prebiasZeros_stores
                  exact h_m
                · apply prebiasZeros_stores
                  exact h_m
          · apply modProt_stores
            apply note_stores
            apply ite_stores
            · apply putRef_stores
              apply putRef_stores
              apply putRef_stores
              apply putRef_stores
              apply ite_stores
              · apply modBay_stores
                apply ite_stores
                · apply modCv_stores
                  apply prebiasZeros_stores
                  exact h_m
                · apply prebiasZeros_stores
                  exact h_m
              · apply ite_stores
                · apply modCv_stores
                  apply prebiasZeros_stores
                  exact h_m
                · apply prebiasZeros_stores
                  exact h_m
            · apply startRefs_stores
              apply ite_stores
              · apply modBay_stores
                apply ite_stores
                · apply modCv_stores
                  apply prebiasZeros_stores
                  exact h_m
                · apply prebiasZeros_stores
                  exact h_m
              · apply ite_stores
                · apply modCv_stores
                  apply prebiasZeros_stores
                  exact h_m
                · apply prebiasZeros_stores
                  exact h_m
        · apply ite_stores
          · apply refuseStart_stores
            apply note_stores
            apply ite_stores
            · apply putRef_stores
              apply putRef_stores
              apply putRef_stores
              apply putRef_stores
              apply ite_stores
              · apply modBay_stores
                apply ite_stores
                · apply modCv_stores
                  apply prebiasZeros_stores
                  exact h_m
                · apply prebiasZeros_stores
                  exact h_m
              · apply ite_stores
                · apply modCv_stores
                  apply prebiasZeros_stores
                  exact h_m
                · apply prebiasZeros_stores
                  exact h_m
            · apply startRefs_stores
              apply ite_stores
              · apply modBay_stores
                apply ite_stores
                · apply modCv_stores
                  apply prebiasZeros_stores
                  exact h_m
                · apply prebiasZeros_stores
                  exact h_m
              · apply ite_stores
                · apply modCv_stores
                  apply prebiasZeros_stores
                  exact h_m
                · apply prebiasZeros_stores
                  exact h_m
          · apply ite_stores
            · apply mk_stores
              apply shedLimits_stores
              apply beginRun_stores
              apply ite_stores
              · apply putRef_stores
                apply putRef_stores
                apply putRef_stores
                apply putRef_stores
                apply ite_stores
                · apply modBay_stores
                  apply ite_stores
                  · apply modCv_stores
                    apply prebiasZeros_stores
                    exact h_m
                  · apply prebiasZeros_stores
                    exact h_m
                · apply ite_stores
                  · apply modCv_stores
                    apply prebiasZeros_stores
                    exact h_m
                  · apply prebiasZeros_stores
                    exact h_m
              · apply startRefs_stores
                apply ite_stores
                · apply modBay_stores
                  apply ite_stores
                  · apply modCv_stores
                    apply prebiasZeros_stores
                    exact h_m
                  · apply prebiasZeros_stores
                    exact h_m
                · apply ite_stores
                  · apply modCv_stores
                    apply prebiasZeros_stores
                    exact h_m
                  · apply prebiasZeros_stores
                    exact h_m
            · apply shedLimits_stores
              apply beginRun_stores
              apply ite_stores
              · apply putRef_stores
                apply putRef_stores
                apply putRef_stores
                apply putRef_stores
                apply ite_stores
                · apply modBay_stores
                  apply ite_stores
                  · apply modCv_stores
                    apply prebiasZeros_stores
                    exact h_m
                  · apply prebiasZeros_stores
                    exact h_m
                · apply ite_stores
                  · apply modCv_stores
                    apply prebiasZeros_stores
                    exact h_m
                  · apply prebiasZeros_stores
                    exact h_m
              · apply startRefs_stores
                apply ite_stores
                · apply modBay_stores
                  apply ite_stores
                  · apply modCv_stores
                    apply prebiasZeros_stores
                    exact h_m
                  · apply prebiasZeros_stores
                    exact h_m
                · apply ite_stores
                  · apply modCv_stores
                    apply prebiasZeros_stores
                    exact h_m
                  · apply prebiasZeros_stores
                    exact h_m

theorem execPrebiasCheck_stores (conv : Nat) (meas : PrebiasMeas) (s : State) (h_s : storesWf s.m = true) :
    outStores (execPrebiasCheck conv meas s) := by
  unfold execPrebiasCheck
  apply guardRead_stores
  · exact h_s
  · apply when_stores
    · exact h_s
    · intro x0 h1
      apply prebiasCheck_stores
      exact h1

theorem execPrebiasRetry_stores (conv : Nat) (meas : PrebiasMeas) (s : State) (h_s : storesWf s.m = true) :
    outStores (execPrebiasRetry conv meas s) := by
  unfold execPrebiasRetry
  apply guardRead_stores
  · exact h_s
  · apply when_stores
    · exact h_s
    · intro x0 h1
      apply fire_stores
      · exact h1
      · intro x2 h3
        apply prebiasCheck_stores
        apply modProt_stores
        exact h3

theorem execBackdriveClear_stores (port : Nat) (vbsMv : Nat) (s : State) (h_s : storesWf s.m = true) :
    outStores (execBackdriveClear port vbsMv s) := by
  unfold execBackdriveClear
  dsimp only
  apply guardRead_stores
  · exact h_s
  · apply when_stores
    · exact h_s
    · intro x0 h1
      apply ite_stores
      · apply requestStart_stores
        apply modProt_stores
        exact h1
      · apply modProt_stores
        exact h1

theorem hardResetOut_stores (m : Mach) (p : Nat) (h_m : storesWf m = true) :
    storesWf (hardResetOut m p) = true := by
  unfold hardResetOut
  dsimp only
  apply parkPass_stores
  apply modPd_stores
  apply closeSession_closeOutcomes_stores
  exact h_m

theorem hardSignal_stores (m : Mach) (p : Nat) (h_m : storesWf m = true) :
    storesWf (hardSignal m p) = true := by
  unfold hardSignal
  apply modPd_stores
  apply hardResetOut_stores
  exact h_m

theorem hiccup_stores (m : Mach) (k : Nat) (h_m : storesWf m = true) :
    storesWf (hiccup m k) = true := by
  unfold hiccup
  dsimp only
  apply ite_stores
  · apply setLive_stores
    apply fault_stores
    apply modProt_stores
    exact h_m
  · apply ite_stores
    · apply modProt_stores
      apply setLive_stores
      apply stopRun_stores
      apply detect_stores
      apply modProt_stores
      exact h_m
    · apply detect_stores
      apply modProt_stores
      exact h_m

theorem shortMerged_stores (m : Mach) (k : Nat) (h_m : storesWf m = true) :
    storesWf (shortMerged m k) = true := by
  unfold shortMerged
  apply detect_stores
  apply modProt_stores
  exact h_m

theorem shortDetect_stores (m : Mach) (k : Nat) (sampleMv : Nat) (limPermille : Nat) (ccOpen : Bool) (h_m : storesWf m = true) :
    storesWf (shortDetect m k sampleMv limPermille ccOpen) = true := by
  unfold shortDetect
  apply ite_stores
  · exact h_m
  · split
    · apply consequential_stores
      exact h_m
    · apply ite_stores
      · apply shortMerged_stores
        apply ctrlStarved_stores
        exact h_m
      · apply hiccup_stores
        exact h_m

theorem execShortDetect_stores (conv : Nat) (sampleMv : Nat) (limPermille : Nat) (ccOpen : Bool) (s : State) (h_s : storesWf s.m = true) :
    outStores (execShortDetect conv sampleMv limPermille ccOpen s) := by
  unfold execShortDetect
  apply guardRead_stores
  · exact h_s
  · apply ite_stores
    · apply shortDetect_stores
      exact h_s
    · apply when_stores
      · exact h_s
      · intro x0 h1
        apply shortMerged_stores
        exact h1

theorem execHiccupRetry_stores (conv : Nat) (s : State) (h_s : storesWf s.m = true) :
    outStores (execHiccupRetry conv s) := by
  unfold execHiccupRetry
  dsimp only
  apply guardUnit_stores
  · exact h_s
  · apply fire_stores
    · exact h_s
    · intro x0 h1
      apply when_stores
      · apply modProt_stores
        exact h1
      · intro x2 h3
        apply requestStart_stores
        exact h3

theorem execHiccupCountReset_stores (conv : Nat) (s : State) (h_s : storesWf s.m = true) :
    outStores (execHiccupCountReset conv s) := by
  unfold execHiccupCountReset
  apply guardUnit_stores
  · exact h_s
  · apply fire_stores
    · exact h_s
    · intro x0 h1
      apply setLive_stores
      apply modProt_stores
      exact h1

theorem cmdCnvProtCfg_stores (m : Mach) (w1 : Nat) (p : List Byte) (h_m : storesWf m = true) :
    ansStores (cmdCnvProtCfg m w1 p) := by
  unfold cmdCnvProtCfg
  dsimp only
  apply refuseFirst_stores
  simp only [ansStores]
  apply modCv_stores
  exact h_m

theorem execCnvProtCfg_stores (slot : Nat) (s : State) (h_s : storesWf s.m = true) :
    outStores (execCnvProtCfg slot s) := by
  unfold execCnvProtCfg
  apply command_stores
  · intro x0 x1 x2 h3
    apply cmdCnvProtCfg_stores
    exact h3
  · exact h_s

theorem ovDetect_stores (m : Mach) (k : Nat) (sampleMv : Nat) (ccOpen : Bool) (h_m : storesWf m = true) :
    storesWf (ovDetect m k sampleMv ccOpen) = true := by
  unfold ovDetect
  dsimp only
  apply ite_stores
  · exact h_m
  · apply ite_stores
    · apply consequential_stores
      apply stopRun_stores
      exact h_m
    · split
      · apply consequential_stores
        exact h_m
      · apply ite_stores
        · apply fault_stores
          apply modProt_stores
          apply modProt_stores
          exact h_m
        · apply ite_stores
          · apply detect_stores
            apply modProt_stores
            apply modProt_stores
            exact h_m
          · apply ite_stores
            · apply requestStart_stores
              apply stopRun_stores
              apply detect_stores
              apply modProt_stores
              apply modProt_stores
              exact h_m
            · apply modPd_stores
              apply hardSignal_stores
              apply abortBy_stores
              apply stopRun_stores
              apply detect_stores
              apply modProt_stores
              apply modProt_stores
              exact h_m

theorem execOvDetect_stores (conv : Nat) (sampleMv : Nat) (ccOpen : Bool) (s : State) (h_s : storesWf s.m = true) :
    outStores (execOvDetect conv sampleMv ccOpen s) := by
  unfold execOvDetect
  apply guardRead_stores
  · exact h_s
  · apply when_stores
    · exact h_s
    · intro x0 h1
      apply ovDetect_stores
      exact h1

theorem uvDetect_stores (m : Mach) (k : Nat) (sampleMv : Nat) (limPermille : Nat) (t : Nat) (h_m : storesWf m = true) :
    storesWf (uvDetect m k sampleMv limPermille t) = true := by
  unfold uvDetect
  dsimp only
  apply ite_stores
  · apply modProt_stores
    exact h_m
  · apply ite_stores
    · exact h_m
    · split
      · apply consequential_stores
        exact h_m
      · apply ite_stores
        · apply modProt_stores
          exact h_m
        · apply ite_stores
          · apply hiccup_stores
            apply modProt_stores
            apply modProt_stores
            exact h_m
          · apply fault_stores
            apply modProt_stores
            apply modProt_stores
            exact h_m

theorem execUvDetect_stores (conv : Nat) (sampleMv : Nat) (limPermille : Nat) (ms : Nat) (s : State) (h_s : storesWf s.m = true) :
    outStores (execUvDetect conv sampleMv limPermille ms s) := by
  unfold execUvDetect
  apply guardRead_stores
  · exact h_s
  · apply when_stores
    · exact h_s
    · intro x0 h1
      apply uvDetect_stores
      exact h1

theorem phaseOpen_stores (m : Mach) (k : Nat) (legAMa : List Int) (legBMa : List Int) (valleyMa : List Int) (h_m : storesWf m = true) :
    storesWf (phaseOpen m k legAMa legBMa valleyMa) = true := by
  unfold phaseOpen
  apply forAll_stores
  · exact h_m
  · intro x0 x1 h2
    apply fencePhase_stores
    exact h2

theorem execPhaseOpen_stores (conv : Nat) (legAMa : List Int) (legBMa : List Int) (valleyMa : List Int) (periods : Nat) (s : State) (h_s : storesWf s.m = true) :
    outStores (execPhaseOpen conv legAMa legBMa valleyMa periods s) := by
  unfold execPhaseOpen
  apply guardUnit_stores
  · exact h_s
  · apply when_stores
    · exact h_s
    · intro x0 h1
      apply phaseOpen_stores
      exact h1

theorem execSenseRail_stores (conv : Nat) (phase : Nat) (imonMv : Nat) (s : State) (h_s : storesWf s.m = true) :
    outStores (execSenseRail conv phase imonMv s) := by
  unfold execSenseRail
  apply guardRead_stores
  · exact h_s
  · apply when_stores
    · exact h_s
    · intro x0 h1
      apply fencePhase_stores
      exact h1

theorem execSenseRipple_stores (conv : Nat) (phase : Nat) (valleyMa : List Int) (midMa : List Int) (s : State) (h_s : storesWf s.m = true) :
    outStores (execSenseRipple conv phase valleyMa midMa s) := by
  unfold execSenseRipple
  apply guardUnit_stores
  · exact h_s
  · apply when_stores
    · exact h_s
    · intro x0 h1
      apply fencePhase_stores
      exact h1

theorem cmdCnvProtStatGet_stores (m : Mach) (w1 : Nat) (p : List Byte) (h_m : storesWf m = true) :
    ansStores (cmdCnvProtStatGet m w1 p) := by
  unfold cmdCnvProtStatGet
  dsimp only
  apply refuseFirst_stores
  simp only [ansStores]
  exact h_m

theorem execCnvProtStatGet_stores (slot : Nat) (s : State) (h_s : storesWf s.m = true) :
    outStores (execCnvProtStatGet slot s) := by
  unfold execCnvProtStatGet
  apply command_stores
  · intro x0 x1 x2 h3
    apply cmdCnvProtStatGet_stores
    exact h3
  · exact h_s

theorem pathDerive_stores (m : Mach) (h_m : storesWf m = true) :
    storesWf (pathDerive m) = true := by
  unfold pathDerive
  dsimp only
  apply ite_stores
  · apply setRef_stores
    apply forAll_stores
    · apply mk_stores
      exact h_m
    · intro x0 x1 h2
      apply ite_stores
      · apply setRef_stores
        exact h2
      · exact h2
  · apply forAll_stores
    · apply mk_stores
      exact h_m
    · intro x3 x4 h5
      apply ite_stores
      · apply setRef_stores
        exact h5
      · exact h5

theorem cmdSrcPathCfg_stores (m : Mach) (w1 : Nat) (p : List Byte) (h_m : storesWf m = true) :
    ansStores (cmdSrcPathCfg m w1 p) := by
  unfold cmdSrcPathCfg
  dsimp only
  apply refuseFirst_stores
  simp only [ansStores]
  apply ladderApply_stores
  apply pathDerive_stores
  apply mk_stores
  exact h_m

theorem execSrcPathCfg_stores (slot : Nat) (s : State) (h_s : storesWf s.m = true) :
    outStores (execSrcPathCfg slot s) := by
  unfold execSrcPathCfg
  apply command_stores
  · intro x0 x1 x2 h3
    apply cmdSrcPathCfg_stores
    exact h3
  · exact h_s

theorem cmdSrcSysTargetSet_stores (m : Mach) (w1 : Nat) (p : List Byte) (h_m : storesWf m = true) :
    ansStores (cmdSrcSysTargetSet m w1 p) := by
  unfold cmdSrcSysTargetSet
  dsimp only
  apply refuseFirst_stores
  simp only [ansStores]
  apply ladderApply_stores
  apply mk_stores
  exact h_m

theorem execSrcSysTargetSet_stores (slot : Nat) (s : State) (h_s : storesWf s.m = true) :
    outStores (execSrcSysTargetSet slot s) := by
  unfold execSrcSysTargetSet
  apply command_stores
  · intro x0 x1 x2 h3
    apply cmdSrcSysTargetSet_stores
    exact h3
  · exact h_s

theorem cmdSrcInputCfg_stores (m : Mach) (w1 : Nat) (p : List Byte) (h_m : storesWf m = true) :
    ansStores (cmdSrcInputCfg m w1 p) := by
  unfold cmdSrcInputCfg
  dsimp only
  apply refuseFirst_stores
  simp only [ansStores]
  apply ite_stores
  · apply requestStart_stores
    apply ladderApply_stores
    apply rankRecompute_stores
    apply ite_stores
    · apply stopRun_stores
      apply ite_stores
      · apply modInp_stores
        apply draw_stores
        apply modInp_stores
        exact h_m
      · apply modInp_stores
        exact h_m
    · apply ite_stores
      · apply modInp_stores
        apply draw_stores
        apply modInp_stores
        exact h_m
      · apply modInp_stores
        exact h_m
  · apply ladderApply_stores
    apply rankRecompute_stores
    apply ite_stores
    · apply stopRun_stores
      apply ite_stores
      · apply modInp_stores
        apply draw_stores
        apply modInp_stores
        exact h_m
      · apply modInp_stores
        exact h_m
    · apply ite_stores
      · apply modInp_stores
        apply draw_stores
        apply modInp_stores
        exact h_m
      · apply modInp_stores
        exact h_m

theorem execSrcInputCfg_stores (slot : Nat) (s : State) (h_s : storesWf s.m = true) :
    outStores (execSrcInputCfg slot s) := by
  unfold execSrcInputCfg
  apply command_stores
  · intro x0 x1 x2 h3
    apply cmdSrcInputCfg_stores
    exact h3
  · exact h_s

theorem inputPresent_stores (m : Mach) (i : Nat) (vin : Nat) (h_m : storesWf m = true) :
    storesWf (inputPresent m i vin) = true := by
  unfold inputPresent
  dsimp only
  apply ite_stores
  · exact h_m
  · apply requestStart_stores
    apply ladderApply_stores
    apply rankRecompute_stores
    apply modInp_stores
    exact h_m

theorem execInputPresent_stores (input : Nat) (vinMv : Nat) (s : State) (h_s : storesWf s.m = true) :
    outStores (execInputPresent input vinMv s) := by
  unfold execInputPresent
  apply guardRead_stores
  · exact h_s
  · apply inputPresent_stores
    exact h_s

theorem inputAbsent_stores (m : Mach) (i : Nat) (vin : Nat) (h_m : storesWf m = true) :
    storesWf (inputAbsent m i vin) = true := by
  unfold inputAbsent
  dsimp only
  apply ite_stores
  · exact h_m
  · apply ladderApply_stores
    apply rankRecompute_stores
    apply setLive_stores
    apply modProt_stores
    apply setLive_stores
    apply stopRun_stores
    apply modInp_stores
    exact h_m

theorem execInputAbsent_stores (input : Nat) (vinMv : Nat) (s : State) (h_s : storesWf s.m = true) :
    outStores (execInputAbsent input vinMv s) := by
  unfold execInputAbsent
  apply guardRead_stores
  · exact h_s
  · apply inputAbsent_stores
    exact h_s

theorem inOv_stores (m : Mach) (i : Nat) (vin : Nat) (h_m : storesWf m = true) :
    storesWf (inOv m i vin) = true := by
  unfold inOv
  dsimp only
  apply ite_stores
  · exact h_m
  · apply ite_stores
    · apply stopRun_stores
      apply modInp_stores
      apply setLive_stores
      apply modInp_stores
      apply detect_stores
      exact h_m
    · apply setLive_stores
      apply modInp_stores
      apply detect_stores
      exact h_m

theorem execInOv_stores (input : Nat) (vinMv : Nat) (s : State) (h_s : storesWf s.m = true) :
    outStores (execInOv input vinMv s) := by
  unfold execInOv
  apply guardRead_stores
  · exact h_s
  · apply inOv_stores
    exact h_s

theorem execInOvRecover_stores (input : Nat) (vinMv : Nat) (s : State) (h_s : storesWf s.m = true) :
    outStores (execInOvRecover input vinMv s) := by
  unfold execInOvRecover
  dsimp only
  apply guardRead_stores
  · exact h_s
  · apply when_stores
    · exact h_s
    · intro x0 h1
      apply ite_stores
      · apply requestStart_stores
        apply setLive_stores
        apply modInp_stores
        exact h1
      · apply setLive_stores
        apply modInp_stores
        exact h1

theorem execInputReverse_stores (input : Nat) (iinMa : Int) (s : State) (h_s : storesWf s.m = true) :
    outStores (execInputReverse input iinMa s) := by
  unfold execInputReverse
  apply guardUnit_stores
  · exact h_s
  · apply when_stores
    · exact h_s
    · intro x0 h1
      dsimp only
      apply ite_stores
      · apply stopRun_stores
        apply modInp_stores
        apply detect_stores
        exact h1
      · apply detect_stores
        exact h1

theorem execInputReverseRestart_stores (input : Nat) (s : State) (h_s : storesWf s.m = true) :
    outStores (execInputReverseRestart input s) := by
  unfold execInputReverseRestart
  dsimp only
  apply guardUnit_stores
  · exact h_s
  · apply fire_stores
    · exact h_s
    · intro x0 h1
      apply ite_stores
      · apply requestStart_stores
        apply modInp_stores
        exact h1
      · apply modInp_stores
        exact h1

theorem execVehicleSystemDetect_stores (input : Nat) (vinMv : Nat) (s : State) (h_s : storesWf s.m = true) :
    outStores (execVehicleSystemDetect input vinMv s) := by
  unfold execVehicleSystemDetect
  apply guardRead_stores
  · exact h_s
  · apply fire_stores
    · exact h_s
    · intro x0 h1
      apply modInp_stores
      exact h1

theorem execVehiclePark_stores (input : Nat) (vinMv : Nat) (s : State) (h_s : storesWf s.m = true) :
    outStores (execVehiclePark input vinMv s) := by
  unfold execVehiclePark
  dsimp only
  apply guardRead_stores
  · exact h_s
  · apply when_stores
    · exact h_s
    · intro x0 h1
      apply ladderApply_stores
      apply rankRecompute_stores
      apply modCv_stores
      apply stopRun_stores
      apply modInp_stores
      exact h1

theorem execVehicleUnpark_stores (input : Nat) (vinMv : Nat) (s : State) (h_s : storesWf s.m = true) :
    outStores (execVehicleUnpark input vinMv s) := by
  unfold execVehicleUnpark
  dsimp only
  apply guardRead_stores
  · exact h_s
  · apply when_stores
    · exact h_s
    · intro x0 h1
      apply ite_stores
      · apply requestStart_stores
        apply ladderApply_stores
        apply rankRecompute_stores
        apply modInp_stores
        exact h1
      · apply ladderApply_stores
        apply rankRecompute_stores
        apply modInp_stores
        exact h1

theorem mpptStep_stores (m : Mach) (i : Nat) (powerMw : Nat) (foldPermille : Nat) (h_m : storesWf m = true) :
    storesWf (mpptStep m i powerMw foldPermille) = true := by
  unfold mpptStep
  dsimp only
  apply ite_stores
  · exact h_m
  · apply modInp_stores
    exact h_m

theorem execMpptStep_stores (input : Nat) (powerMw : Nat) (foldPermille : Nat) (s : State) (h_s : storesWf s.m = true) :
    outStores (execMpptStep input powerMw foldPermille s) := by
  unfold execMpptStep
  dsimp only
  apply guardUnit_stores
  · exact h_s
  · apply when_stores
    · exact h_s
    · intro x0 h1
      apply setRef_stores
      apply mpptStep_stores
      exact h1

theorem mpptScan_stores (m : Mach) (i : Nat) (h_m : storesWf m = true) :
    storesWf (mpptScan m i) = true := by
  unfold mpptScan
  dsimp only
  apply ite_stores
  · apply modInp_stores
    exact h_m
  · apply ite_stores
    · apply modInp_stores
      exact h_m
    · apply ite_stores
      · apply modInp_stores
        exact h_m
      · apply ite_stores
        · apply modInp_stores
          exact h_m
        · apply modInp_stores
          apply stopRun_stores
          exact h_m

theorem execMpptScan_stores (input : Nat) (s : State) (h_s : storesWf s.m = true) :
    outStores (execMpptScan input s) := by
  unfold execMpptScan
  apply guardUnit_stores
  · exact h_s
  · apply when_stores
    · exact h_s
    · intro x0 h1
      apply fire_stores
      · exact h1
      · intro x2 h3
        apply mpptScan_stores
        exact h3

theorem execMpptScanEnd_stores (input : Nat) (vocMv : Nat) (s : State) (h_s : storesWf s.m = true) :
    outStores (execMpptScanEnd input vocMv s) := by
  unfold execMpptScanEnd
  dsimp only
  apply guardRead_stores
  · exact h_s
  · apply fire_stores
    · exact h_s
    · intro x0 h1
      apply requestStart_stores
      apply setRef_stores
      apply modInp_stores
      exact h1

theorem cmdSrcMpptScan_stores (m : Mach) (w1 : Nat) (p : List Byte) (h_m : storesWf m = true) :
    ansStores (cmdSrcMpptScan m w1 p) := by
  unfold cmdSrcMpptScan
  dsimp only
  apply refuseFirst_stores
  simp only [ansStores]
  apply modInp_stores
  exact h_m

theorem execSrcMpptScan_stores (slot : Nat) (s : State) (h_s : storesWf s.m = true) :
    outStores (execSrcMpptScan slot s) := by
  unfold execSrcMpptScan
  apply command_stores
  · intro x0 x1 x2 h3
    apply cmdSrcMpptScan_stores
    exact h3
  · exact h_s

theorem bfetSelect_stores (m : Mach) (v : Nat) (h_m : storesWf m = true) :
    storesWf (bfetSelect m v).2 = true := by
  unfold bfetSelect
  dsimp only
  split
  · dsimp only
    exact h_m
  · split
    · dsimp only
      exact h_m
    · split
      · dsimp only
        exact h_m
      · split
        · dsimp only
          apply draw_stores
          exact h_m
        · dsimp only
          exact h_m

theorem fromSys_stores (m : Mach) (h_m : storesWf m = true) :
    storesWf (fromSys m) = true := by
  unfold fromSys
  apply forAll_stores
  · exact h_m
  · intro x0 x1 h2
    apply modCtrl_stores
    exact h2

theorem setMode_stores (m : Mach) (md : BfetMode) (h_m : storesWf m = true) :
    storesWf (setMode m md) = true := by
  unfold setMode
  dsimp only
  apply ladderApply_stores
  apply ite_stores
  · apply modChg_stores
    apply mk_stores
    apply ite_stores
    · apply fromSys_stores
      exact h_m
    · exact h_m
  · apply mk_stores
    apply ite_stores
    · apply fromSys_stores
      exact h_m
    · exact h_m

theorem bfetModeEval_stores (m : Mach) (v : Nat) (h_m : storesWf m = true) :
    storesWf (bfetModeEval m v) = true := by
  unfold bfetModeEval
  dsimp only
  apply ite_stores
  · apply mk_stores
    exact h_m
  · apply ite_stores
    · apply mk_stores
      exact h_m
    · apply ite_stores
      · apply bfetSelect_stores
        apply ite_stores
        · apply modBlk_stores
          apply mk_stores
          exact h_m
        · apply mk_stores
          exact h_m
      · apply ite_stores
        · apply ladderApply_stores
          apply mk_stores
          apply bfetSelect_stores
          apply ite_stores
          · apply modBlk_stores
            apply mk_stores
            exact h_m
          · apply mk_stores
            exact h_m
        · apply setMode_stores
          apply bfetSelect_stores
          apply ite_stores
          · apply modBlk_stores
            apply mk_stores
            exact h_m
          · apply mk_stores
            exact h_m

theorem execBfetModeEval_stores (vstsMv : Nat) (s : State) (h_s : storesWf s.m = true) :
    outStores (execBfetModeEval vstsMv s) := by
  unfold execBfetModeEval
  apply guardRead_stores
  · exact h_s
  · apply bfetModeEval_stores
    exact h_s

theorem execBfetTransitionDone_stores (s : State) (h_s : storesWf s.m = true) :
    outStores (execBfetTransitionDone s) := by
  unfold execBfetTransitionDone
  apply guardUnit_stores
  · exact h_s
  · apply when_stores
    · exact h_s
    · intro x0 h1
      apply fire_stores
      · exact h1
      · intro x2 h3
        apply setMode_stores
        exact h3

theorem execReverseComparator_stores (storeMa : Int) (s : State) (h_s : storesWf s.m = true) :
    outStores (execReverseComparator storeMa s) := by
  unfold execReverseComparator
  dsimp only
  apply guardUnit_stores
  · exact h_s
  · apply when_stores
    · exact h_s
    · intro x0 h1
      apply mk_stores
      apply modChg_stores
      exact h1

theorem linearUpdate_stores (m : Mach) (sys : Nat) (vst : Nat) (h_m : storesWf m = true) :
    storesWf (linearUpdate m sys vst) = true := by
  unfold linearUpdate
  dsimp only
  apply mk_stores
  exact h_m

theorem execLinearUpdate_stores (sysMv : Nat) (vstsMv : Nat) (storeMa : Int) (s : State) (h_s : storesWf s.m = true) :
    outStores (execLinearUpdate sysMv vstsMv storeMa s) := by
  unfold execLinearUpdate
  apply guardRead_stores
  · exact h_s
  · apply when_stores
    · exact h_s
    · intro x0 h1
      apply modChg_stores
      apply linearUpdate_stores
      exact h1

theorem donorLimitUpdate_stores (m : Mach) (loadsMa : Nat) (inputsMa : Nat) (h_m : storesWf m = true) :
    storesWf (donorLimitUpdate m loadsMa inputsMa) = true := by
  unfold donorLimitUpdate
  dsimp only
  apply forAll_stores
  · exact h_m
  · intro x0 x1 h2
    apply setRef_stores
    exact h2

theorem execDonorLimitUpdate_stores (loadsMa : Nat) (inputsMa : Nat) (s : State) (h_s : storesWf s.m = true) :
    outStores (execDonorLimitUpdate loadsMa inputsMa s) := by
  unfold execDonorLimitUpdate
  apply guardUnit_stores
  · exact h_s
  · apply when_stores
    · exact h_s
    · intro x0 h1
      apply donorLimitUpdate_stores
      exact h1

theorem lowSignal_stores (m : Mach) (p : Nat) (h_m : storesWf m = true) :
    storesWf (lowSignal m p) = true := by
  unfold lowSignal
  apply modPd_stores
  apply hardSignal_stores
  exact h_m

theorem sysLow_stores (m : Mach) (sys : Nat) (h_m : storesWf m = true) :
    storesWf (sysLow m sys) = true := by
  unfold sysLow
  dsimp only
  apply ite_stores
  · apply mk_stores
    exact h_m
  · apply ite_stores
    · apply detect_stores
      apply mk_stores
      exact h_m
    · apply mk_stores
      apply stopRun_stores
      apply forAll_stores
      · apply forAll_stores
        · apply forAll_stores
          · apply mk_stores
            apply detect_stores
            apply mk_stores
            exact h_m
          · intro x0 x1 h2
            apply stopRun_stores
            exact h2
        · intro x3 x4 h5
          apply modProt_stores
          exact h5
      · intro x6 x7 h8
        apply lowSignal_stores
        exact h8

theorem execSysLow_stores (sysMv : Nat) (s : State) (h_s : storesWf s.m = true) :
    outStores (execSysLow sysMv s) := by
  unfold execSysLow
  apply guardRead_stores
  · exact h_s
  · apply sysLow_stores
    exact h_s

theorem pathStatWrite_stores (m : Mach) (w : Nat) (h_m : storesWf m = true) :
    storesWf (pathStatWrite m w) = true := by
  unfold pathStatWrite
  dsimp only
  apply ite_stores
  · apply mk_stores
    exact h_m
  · exact h_m

theorem cmdSrcInputStatGet_stores (m : Mach) (w1 : Nat) (p : List Byte) (h_m : storesWf m = true) :
    ansStores (cmdSrcInputStatGet m w1 p) := by
  unfold cmdSrcInputStatGet
  dsimp only
  apply refuseFirst_stores
  simp only [ansStores]
  exact h_m

theorem execSrcInputStatGet_stores (slot : Nat) (s : State) (h_s : storesWf s.m = true) :
    outStores (execSrcInputStatGet slot s) := by
  unfold execSrcInputStatGet
  apply command_stores
  · intro x0 x1 x2 h3
    apply cmdSrcInputStatGet_stores
    exact h3
  · exact h_s

theorem learnMach_stores (m : Mach) (c : Nat) (h_m : storesWf m = true) :
    storesWf (learnMach m c) = true := by
  unfold learnMach
  apply forAll_stores
  · exact h_m
  · intro x0 x1 h2
    apply learnWrite_stores
    exact h2

theorem filterInit_stores (m : Mach) (x : Nat) (h_m : storesWf m = true) :
    storesWf (filterInit m x) = true := by
  unfold filterInit
  dsimp only
  apply modCtx_stores
  exact h_m

theorem ekfStep_stores (m : Mach) (o : EkfObs) (h_m : storesWf m = true) :
    storesWf (ekfStep m o) = true := by
  unfold ekfStep
  dsimp only
  apply ite_stores
  · exact h_m
  · apply modCtx_stores
    exact h_m

theorem takeAnchor_stores (m : Mach) (x : Nat) (k : AnchorKind) (soc : Rat) (sigma : Rat) (h_m : storesWf m = true) :
    storesWf (takeAnchor m x k soc sigma) = true := by
  unfold takeAnchor
  dsimp only
  apply modCtx_stores
  exact h_m

theorem fullAnchor_stores (m : Mach) (c : Nat) (h_m : storesWf m = true) :
    storesWf (fullAnchor m c) = true := by
  unfold fullAnchor
  apply forAll_stores
  · exact h_m
  · intro x0 x1 h2
    apply takeAnchor_stores
    exact h2

theorem ocvAnchor_stores (m : Mach) (x : Nat) (v : Rat) (h_m : storesWf m = true) :
    storesWf (ocvAnchor m x v) = true := by
  unfold ocvAnchor
  dsimp only
  apply ite_stores
  · apply modCtx_stores
    exact h_m
  · apply takeAnchor_stores
    apply ite_stores
    · apply modCtx_stores
      exact h_m
    · exact h_m

theorem reAnchor_stores (m : Mach) (x : Nat) (h_m : storesWf m = true) :
    storesWf (reAnchor m x) = true := by
  unfold reAnchor
  dsimp only
  apply ite_stores
  · apply ite_stores
    · apply mk_stores
      apply modCtx_stores
      exact h_m
    · apply modCtx_stores
      exact h_m
  · exact h_m

theorem countOne_stores (m : Mach) (o : CtxObs) (w2 : Int) (h_m : storesWf m = true) :
    storesWf (countOne m o w2) = true := by
  unfold countOne
  dsimp only
  apply ite_stores
  · exact h_m
  · apply ite_stores
    · apply ite_stores
      · apply modCtx_stores
        apply ocvAnchor_stores
        apply ite_stores
        · apply filterInit_stores
          apply modCtx_stores
          apply modCtx_stores
          exact h_m
        · apply modCtx_stores
          exact h_m
      · apply reAnchor_stores
        apply ocvAnchor_stores
        apply ite_stores
        · apply filterInit_stores
          apply modCtx_stores
          apply modCtx_stores
          exact h_m
        · apply modCtx_stores
          exact h_m
    · apply reAnchor_stores
      apply ite_stores
      · apply filterInit_stores
        apply modCtx_stores
        apply modCtx_stores
        exact h_m
      · apply modCtx_stores
        exact h_m

theorem activate_stores (m : Mach) (x : Nat) (qNom : Nat) (age : Nat) (known : Bool) (h_m : storesWf m = true) :
    storesWf (activate m x qNom age known) = true := by
  unfold activate
  dsimp only
  apply filterInit_stores
  apply modCtx_stores
  exact h_m

theorem deactivate_stores (m : Mach) (x : Nat) (h_m : storesWf m = true) :
    storesWf (deactivate m x) = true := by
  unfold deactivate
  apply modCtx_stores
  exact h_m

theorem activateStore_stores (m : Mach) (h_m : storesWf m = true) :
    storesWf (activateStore m) = true := by
  unfold activateStore
  apply forAll_stores
  · exact h_m
  · intro x0 x1 h2
    apply activate_stores
    exact h2

theorem storeLost_stores (m : Mach) (h_m : storesWf m = true) :
    storesWf (storeLost m) = true := by
  unfold storeLost
  dsimp only
  apply forAll_stores
  · apply forAll_stores
    · exact h_m
    · intro x0 x1 h2
      apply learnWrite_stores
      exact h2
  · intro x3 x4 h5
    apply deactivate_stores
    exact h5

theorem reopen_stores (m : Mach) (p : Nat) (h_m : storesWf m = true) :
    storesWf (reopen m p) = true := by
  unfold reopen
  dsimp only
  split
  · exact h_m
  · apply ite_stores
    · exact h_m
    · apply activate_stores
      exact h_m

theorem putProfile_stores (m : Mach) (x : Profile) (h_m : storesWf m = true) :
    storesWf (putProfile m x) = true := by
  unfold putProfile
  dsimp only
  apply ladderApply_stores
  apply ite_stores
  · apply forAll_stores
    · apply forAll_stores
      · apply pathDerive_stores
        apply modChg_stores
        exact h_m
      · intro x0 x1 h2
        apply deactivate_stores
        exact h2
    · intro x3 x4 h5
      apply activate_stores
      exact h5
  · apply pathDerive_stores
    apply modChg_stores
    exact h_m

theorem chgEnFollows_stores (m : Mach) (h_m : storesWf m = true) :
    storesWf (chgEnFollows m) = true := by
  unfold chgEnFollows
  dsimp only
  apply ite_stores
  · apply nvmConfig_stores
    exact h_m
  · exact h_m

theorem cmdStoProfileSet_stores (m : Mach) (w1 : Nat) (p : List Byte) (h_m : storesWf m = true) :
    ansStores (cmdStoProfileSet m w1 p) := by
  unfold cmdStoProfileSet
  apply refuseFirst_stores
  simp only [ansStores]
  apply chgEnFollows_stores
  apply nvmConfig_stores
  apply putProfile_stores
  exact h_m

theorem execStoProfileSet_stores (slot : Nat) (s : State) (h_s : storesWf s.m = true) :
    outStores (execStoProfileSet slot s) := by
  unfold execStoProfileSet
  apply command_stores
  · intro x0 x1 x2 h3
    apply cmdStoProfileSet_stores
    exact h3
  · exact h_s

theorem cmdStoTwinSet_stores (m : Mach) (w1 : Nat) (p : List Byte) (h_m : storesWf m = true) :
    ansStores (cmdStoTwinSet m w1 p) := by
  unfold cmdStoTwinSet
  dsimp only
  apply refuseFirst_stores
  simp only [ansStores]
  apply mk_stores
  exact h_m

theorem execStoTwinSet_stores (slot : Nat) (s : State) (h_s : storesWf s.m = true) :
    outStores (execStoTwinSet slot s) := by
  unfold execStoTwinSet
  apply command_stores
  · intro x0 x1 x2 h3
    apply cmdStoTwinSet_stores
    exact h3
  · exact h_s

theorem windowSample_stores (m : Mach) (c : Nat) (tMin : Int) (tMax : Int) (h_m : storesWf m = true) :
    storesWf (windowSample m c tMin tMax) = true := by
  unfold windowSample
  dsimp only
  apply modChg_stores
  exact h_m

theorem chgApply_stores (m : Mach) (c : Nat) (h_m : storesWf m = true) :
    storesWf (chgApply m c) = true := by
  unfold chgApply
  dsimp only
  apply ite_stores
  · exact h_m
  · apply ite_stores
    · apply ladderApply_stores
      apply modChg_stores
      exact h_m
    · apply ite_stores
      · apply modChg_stores
        exact h_m
      · apply ite_stores
        · apply ite_stores
          · apply setRef_stores
            apply modChg_stores
            exact h_m
          · apply modChg_stores
            exact h_m
        · apply ite_stores
          · apply setRef_stores
            apply setRef_stores
            apply modChg_stores
            exact h_m
          · apply ite_stores
            · apply requestStart_stores
              apply modChg_stores
              exact h_m
            · apply modChg_stores
              exact h_m

theorem vChgUpdate_stores (m : Mach) (c : Nat) (d : Int) (h_m : storesWf m = true) :
    storesWf (vChgUpdate m c d) = true := by
  unfold vChgUpdate
  dsimp only
  apply chgApply_stores
  apply modChg_stores
  exact h_m

theorem execVChgUpdate_stores (m : Nat) (dMv : Int) (s : State) (h_s : storesWf s.m = true) :
    outStores (execVChgUpdate m dMv s) := by
  unfold execVChgUpdate
  apply guardUnit_stores
  · exact h_s
  · apply when_stores
    · exact h_s
    · intro x0 h1
      apply vChgUpdate_stores
      exact h1

theorem imbTrimAdjust_stores (m : Mach) (h_m : storesWf m = true) :
    storesWf (imbTrimAdjust m) = true := by
  unfold imbTrimAdjust
  dsimp only
  apply ite_stores
  · apply modChg_stores
    exact h_m
  · exact h_m

theorem cycleStart_stores (m : Mach) (c : Nat) (h_m : storesWf m = true) :
    storesWf (cycleStart m c) = true := by
  unfold cycleStart
  apply modChg_stores
  exact h_m

theorem bayStop_stores (m : Mach) (c : Nat) (h_m : storesWf m = true) :
    storesWf (bayStop m c) = true := by
  unfold bayStop
  apply ite_stores
  · exact h_m
  · apply stopRun_stores
    exact h_m

theorem chgStop_stores (m : Mach) (c : Nat) (cause : Nat) (h_m : storesWf m = true) :
    storesWf (chgStop m c cause) = true := by
  unfold chgStop
  apply bayStop_stores
  apply modChg_stores
  apply chgEnter_stores
  exact h_m

theorem chgSuspend_stores (m : Mach) (c : Nat) (cause : Nat) (h_m : storesWf m = true) :
    storesWf (chgSuspend m c cause) = true := by
  unfold chgSuspend
  apply modChg_stores
  apply chgEnter_stores
  exact h_m

theorem terminate_stores (m : Mach) (c : Nat) (h_m : storesWf m = true) :
    storesWf (terminate m c) = true := by
  unfold terminate
  dsimp only
  apply bayStop_stores
  apply learnMach_stores
  apply ite_stores
  · apply modChg_stores
    apply chgEnter_stores
    exact h_m
  · apply fullAnchor_stores
    apply modChg_stores
    apply chgEnter_stores
    exact h_m

theorem chgStep_stores (m : Mach) (c : Nat) (h_m : storesWf m = true) :
    storesWf (chgStep m c) = true := by
  unfold chgStep
  dsimp only
  apply ite_stores
  · apply chgSuspend_stores
    exact h_m
  · split
    · apply ite_stores
      · apply chgSuspend_stores
        exact h_m
      · apply ite_stores
        · apply chgStop_stores
          apply note_stores
          exact h_m
        · apply ite_stores
          · apply chgSuspend_stores
            exact h_m
          · apply ite_stores
            · apply bayStop_stores
              apply chgEnter_stores
              exact h_m
            · apply ite_stores
              · apply chgEnter_stores
                exact h_m
              · apply chgEnter_stores
                exact h_m
    · apply ite_stores
      · apply chgSuspend_stores
        exact h_m
      · apply ite_stores
        · apply chgStop_stores
          apply note_stores
          exact h_m
        · apply ite_stores
          · apply chgSuspend_stores
            exact h_m
          · apply ite_stores
            · apply bayStop_stores
              apply chgEnter_stores
              exact h_m
            · apply ite_stores
              · apply chgEnter_stores
                exact h_m
              · apply chgEnter_stores
                exact h_m
    · apply ite_stores
      · apply modChg_stores
        exact h_m
      · apply ite_stores
        · apply chgEnter_stores
          exact h_m
        · apply modChg_stores
          exact h_m
    · apply ite_stores
      · apply chgEnter_stores
        apply ite_stores
        · apply modChg_stores
          exact h_m
        · apply ite_stores
          · apply chgEnter_stores
            exact h_m
          · apply modChg_stores
            exact h_m
      · apply ite_stores
        · apply modChg_stores
          exact h_m
        · apply ite_stores
          · apply chgEnter_stores
            exact h_m
          · apply modChg_stores
            exact h_m
    · apply ite_stores
      · apply chgEnter_stores
        apply ite_stores
        · apply modChg_stores
          exact h_m
        · apply ite_stores
          · apply chgEnter_stores
            exact h_m
          · apply modChg_stores
            exact h_m
      · apply ite_stores
        · apply modChg_stores
          exact h_m
        · apply ite_stores
          · apply chgEnter_stores
            exact h_m
          · apply modChg_stores
            exact h_m
    · apply ite_stores
      · apply ite_stores
        · apply chgEnter_stores
          exact h_m
        · apply terminate_stores
          exact h_m
      · apply ite_stores
        · apply modChg_stores
          exact h_m
        · apply ite_stores
          · apply chgEnter_stores
            exact h_m
          · apply modChg_stores
            exact h_m
    · apply ite_stores
      · apply terminate_stores
        exact h_m
      · exact h_m
    · apply ite_stores
      · apply chgEnter_stores
        apply cycleStart_stores
        exact h_m
      · apply ite_stores
        · apply chgEnter_stores
          exact h_m
        · apply ite_stores
          · apply modChg_stores
            exact h_m
          · apply ite_stores
            · apply chgEnter_stores
              apply cycleStart_stores
              exact h_m
            · apply modChg_stores
              exact h_m
    · apply ite_stores
      · apply chgEnter_stores
        apply cycleStart_stores
        exact h_m
      · apply ite_stores
        · apply ite_stores
          · apply modChg_stores
            exact h_m
          · exact h_m
        · apply ite_stores
          · apply modChg_stores
            exact h_m
          · apply ite_stores
            · apply modChg_stores
              exact h_m
            · apply modChg_stores
              exact h_m
    · apply ite_stores
      · apply chgEnter_stores
        exact h_m
      · exact h_m
    · exact h_m

theorem windowAct_stores (m : Mach) (c : Nat) (tMin : Int) (tMax : Int) (h_m : storesWf m = true) :
    storesWf (windowAct m c tMin tMax) = true := by
  unfold windowAct
  dsimp only
  apply ite_stores
  · apply windowSample_stores
    exact h_m
  · apply chgApply_stores
    apply ite_stores
    · apply chgStep_stores
      apply windowSample_stores
      exact h_m
    · apply windowSample_stores
      exact h_m

theorem trickleStep_stores (m : Mach) (p : Nat) (h_m : storesWf m = true) :
    storesWf (trickleStep m p) = true := by
  unfold trickleStep
  dsimp only
  apply ite_stores
  · exact h_m
  · apply ite_stores
    · apply stopRun_stores
      apply modBay_stores
      exact h_m
    · apply ite_stores
      · apply setRef_stores
        exact h_m
      · exact h_m

theorem chgEval_stores (m : Mach) (c : Nat) (vMv : Nat) (iMa : Int) (h_m : storesWf m = true) :
    storesWf (chgEval m c vMv iMa) = true := by
  unfold chgEval
  dsimp only
  apply ite_stores
  · exact h_m
  · apply chgApply_stores
    apply ite_stores
    · apply ite_stores
      · apply ite_stores
        · apply mk_stores
          apply modChg_stores
          exact h_m
        · apply modChg_stores
          exact h_m
      · apply ite_stores
        · apply ite_stores
          · apply ite_stores
            · apply mk_stores
              apply modChg_stores
              exact h_m
            · apply modChg_stores
              exact h_m
          · apply chgEnter_stores
            apply bayStop_stores
            apply ite_stores
            · apply mk_stores
              apply modChg_stores
              exact h_m
            · apply modChg_stores
              exact h_m
        · apply ite_stores
          · apply chgEnter_stores
            apply cycleStart_stores
            apply ite_stores
            · apply mk_stores
              apply modChg_stores
              exact h_m
            · apply modChg_stores
              exact h_m
          · apply chgStep_stores
            apply ite_stores
            · apply mk_stores
              apply modChg_stores
              exact h_m
            · apply modChg_stores
              exact h_m
    · apply trickleStep_stores
      apply ite_stores
      · apply ite_stores
        · apply mk_stores
          apply modChg_stores
          exact h_m
        · apply modChg_stores
          exact h_m
      · apply ite_stores
        · apply ite_stores
          · apply ite_stores
            · apply mk_stores
              apply modChg_stores
              exact h_m
            · apply modChg_stores
              exact h_m
          · apply chgEnter_stores
            apply bayStop_stores
            apply ite_stores
            · apply mk_stores
              apply modChg_stores
              exact h_m
            · apply modChg_stores
              exact h_m
        · apply ite_stores
          · apply chgEnter_stores
            apply cycleStart_stores
            apply ite_stores
            · apply mk_stores
              apply modChg_stores
              exact h_m
            · apply modChg_stores
              exact h_m
          · apply chgStep_stores
            apply ite_stores
            · apply mk_stores
              apply modChg_stores
              exact h_m
            · apply modChg_stores
              exact h_m

theorem execChgEval_stores (m : Nat) (vMv : Nat) (iMa : Int) (s : State) (h_s : storesWf s.m = true) :
    outStores (execChgEval m vMv iMa s) := by
  unfold execChgEval
  apply guardRead_stores
  · exact h_s
  · apply chgEval_stores
    exact h_s

theorem chgTimerSecond_stores (m : Mach) (c : Nat) (noFeeder : Bool) (feederIsrcFold : Bool) (iMa : Int) (vMv : Nat) (h_m : storesWf m = true) :
    storesWf (chgTimerSecond m c noFeeder feederIsrcFold iMa vMv) = true := by
  unfold chgTimerSecond
  dsimp only
  apply ite_stores
  · apply modChg_stores
    exact h_m
  · apply modChg_stores
    apply modChg_stores
    exact h_m

theorem execChgTimerSecond_stores (m : Nat) (noFeeder : Bool) (feederIsrcFold : Bool) (iMa : Int) (vMv : Nat) (s : State) (h_s : storesWf s.m = true) :
    outStores (execChgTimerSecond m noFeeder feederIsrcFold iMa vMv s) := by
  unfold execChgTimerSecond
  apply guardRead_stores
  · exact h_s
  · apply chgTimerSecond_stores
    exact h_s

theorem chgTimerExpire_stores (m : Mach) (c : Nat) (h_m : storesWf m = true) :
    storesWf (chgTimerExpire m c) = true := by
  unfold chgTimerExpire
  dsimp only
  apply ite_stores
  · exact h_m
  · apply ite_stores
    · apply chgApply_stores
      apply chgStep_stores
      apply modChg_stores
      exact h_m
    · apply ite_stores
      · apply chgApply_stores
        apply chgEnter_stores
        apply modChg_stores
        apply journal_stores
        apply note_stores
        exact h_m
      · apply chgApply_stores
        apply chgStop_stores
        apply journal_stores
        apply note_stores
        exact h_m

theorem execChgTimerExpire_stores (m : Nat) (s : State) (h_s : storesWf s.m = true) :
    outStores (execChgTimerExpire m s) := by
  unfold execChgTimerExpire
  apply guardUnit_stores
  · exact h_s
  · apply chgTimerExpire_stores
    exact h_s

theorem chgOc_stores (m : Mach) (c : Nat) (i : Int) (h_m : storesWf m = true) :
    storesWf (chgOc m c i) = true := by
  unfold chgOc
  dsimp only
  apply ite_stores
  · exact h_m
  · split
    · apply consequential_stores
      exact h_m
    · apply ite_stores
      · apply forAll_stores
        · apply modChg_stores
          apply setLive_stores
          apply detect_stores
          exact h_m
        · intro x0 x1 h2
          apply setRef_stores
          exact h2
      · apply modChg_stores
        apply setLive_stores
        apply detect_stores
        exact h_m

theorem execChgOc_stores (m : Nat) (iMa : Int) (s : State) (h_s : storesWf s.m = true) :
    outStores (execChgOc m iMa s) := by
  unfold execChgOc
  apply guardUnit_stores
  · exact h_s
  · apply chgOc_stores
    exact h_s

theorem chgOcPersist_stores (m : Mach) (c : Nat) (i : Int) (h_m : storesWf m = true) :
    storesWf (chgOcPersist m c i) = true := by
  unfold chgOcPersist
  dsimp only
  apply ite_stores
  · apply setLive_stores
    apply modChg_stores
    exact h_m
  · apply chgApply_stores
    apply ite_stores
    · apply chgStop_stores
      apply modChg_stores
      apply setLive_stores
      apply modChg_stores
      exact h_m
    · apply chgSuspend_stores
      apply modChg_stores
      apply setLive_stores
      apply modChg_stores
      exact h_m

theorem execChgOcPersist_stores (m : Nat) (iMa : Int) (s : State) (h_s : storesWf s.m = true) :
    outStores (execChgOcPersist m iMa s) := by
  unfold execChgOcPersist
  apply guardUnit_stores
  · exact h_s
  · apply fire_stores
    · exact h_s
    · intro x0 h1
      apply chgOcPersist_stores
      exact h1

theorem cellOv_stores (m : Mach) (c : Nat) (mv : Nat) (h_m : storesWf m = true) :
    storesWf (cellOv m c mv) = true := by
  unfold cellOv
  dsimp only
  apply ite_stores
  · exact h_m
  · apply ite_stores
    · apply note_stores
      exact h_m
    · apply chgApply_stores
      apply chgStop_stores
      apply learnMach_stores
      apply ite_stores
      · apply forAll_stores
        · apply note_stores
          exact h_m
        · intro x0 x1 h2
          apply modBlk_stores
          exact h2
      · apply note_stores
        exact h_m

theorem execCellOv_stores (m : Nat) (cellMv : Nat) (s : State) (h_s : storesWf s.m = true) :
    outStores (execCellOv m cellMv s) := by
  unfold execCellOv
  apply guardRead_stores
  · exact h_s
  · apply cellOv_stores
    exact h_s

theorem storeFence_stores (m : Mach) (c : Cause) (h_m : storesWf m = true) :
    storesWf (storeFence m c) = true := by
  unfold storeFence
  apply fenceStore_stores
  apply storeLost_stores
  exact h_m

theorem execLinOverload_stores (sysMv : Nat) (vstsMv : Nat) (storeMa : Int) (s : State) (h_s : storesWf s.m = true) :
    outStores (execLinOverload sysMv vstsMv storeMa s) := by
  unfold execLinOverload
  apply guardRead_stores
  · exact h_s
  · apply when_stores
    · exact h_s
    · intro x0 h1
      dsimp only
      apply ite_stores
      · apply storeFence_stores
        apply detect_stores
        exact h1
      · apply detect_stores
        exact h1

theorem dsgOc_stores (m : Mach) (i : Int) (h_m : storesWf m = true) :
    storesWf (dsgOc m i) = true := by
  unfold dsgOc
  dsimp only
  apply ite_stores
  · exact h_m
  · apply ite_stores
    · apply ite_stores
      · apply storeFence_stores
        apply setLive_stores
        apply detect_stores
        exact h_m
      · apply detect_stores
        exact h_m
    · apply ite_stores
      · apply ite_stores
        · exact h_m
        · apply setLive_stores
          apply detect_stores
          exact h_m
      · apply setLive_stores
        exact h_m

theorem execDsgOc_stores (iMa : Int) (s : State) (h_s : storesWf s.m = true) :
    outStores (execDsgOc iMa s) := by
  unfold execDsgOc
  apply guardUnit_stores
  · exact h_s
  · apply dsgOc_stores
    exact h_s

theorem laneEnter_stores (m : Mach) (h_m : storesWf m = true) :
    storesWf (laneEnter m) = true := by
  unfold laneEnter
  dsimp only
  apply ite_stores
  · apply mk_stores
    exact h_m
  · exact h_m

theorem cellTapFastLane_stores (m : Mach) (taps : List Nat) (h_m : storesWf m = true) :
    storesWf (cellTapFastLane m taps) = true := by
  unfold cellTapFastLane
  dsimp only
  apply ite_stores
  · apply laneEnter_stores
    exact h_m
  · apply mk_stores
    exact h_m

theorem execCellTapFastLane_stores (taps : List Nat) (s : State) (h_s : storesWf s.m = true) :
    outStores (execCellTapFastLane taps s) := by
  unfold execCellTapFastLane
  apply guardRead_stores
  · exact h_s
  · apply when_stores
    · exact h_s
    · intro x0 h1
      apply cellTapFastLane_stores
      exact h1

theorem setChgEn_stores (m : Mach) (p : List Byte) (h_m : storesWf m = true) :
    ansStores (setChgEn m p) := by
  unfold setChgEn
  simp only [ansStores]
  apply modChg_stores
  exact h_m

theorem cmdStoChgCtrl_stores (m : Mach) (w1 : Nat) (p : List Byte) (h_m : storesWf m = true) :
    ansStores (cmdStoChgCtrl m w1 p) := by
  unfold cmdStoChgCtrl
  dsimp only
  apply refuseFirst_stores
  apply iteAns_stores
  · apply iteAns_stores
    · apply persist_stores
      apply setChgEn_stores
      exact h_m
    · apply setChgEn_stores
      exact h_m
  · apply iteAns_stores
    · simp only [ansStores]
      apply chgEnter_stores
      apply cycleStart_stores
      exact h_m
    · simp only [ansStores]
      apply modChg_stores
      exact h_m

theorem execStoChgCtrl_stores (slot : Nat) (s : State) (h_s : storesWf s.m = true) :
    outStores (execStoChgCtrl slot s) := by
  unfold execStoChgCtrl
  apply command_stores
  · intro x0 x1 x2 h3
    apply cmdStoChgCtrl_stores
    exact h3
  · exact h_s

theorem cmdStoChgStatGet_stores (m : Mach) (w1 : Nat) (p : List Byte) (h_m : storesWf m = true) :
    ansStores (cmdStoChgStatGet m w1 p) := by
  unfold cmdStoChgStatGet
  dsimp only
  apply refuseFirst_stores
  simp only [ansStores]
  exact h_m

theorem execStoChgStatGet_stores (slot : Nat) (s : State) (h_s : storesWf s.m = true) :
    outStores (execStoChgStatGet slot s) := by
  unfold execStoChgStatGet
  apply command_stores
  · intro x0 x1 x2 h3
    apply cmdStoChgStatGet_stores
    exact h3
  · exact h_s

theorem storeRemoval_stores (m : Mach) (det : Nat) (sys : Nat) (vsts : Nat) (mean : Nat) (i : Int) (h_m : storesWf m = true) :
    storesWf (storeRemoval m det sys vsts mean i) = true := by
  unfold storeRemoval
  dsimp only
  apply ite_stores
  · exact h_m
  · split
    · apply consequential_stores
      exact h_m
    · apply ite_stores
      · apply detect_stores
        exact h_m
      · apply forAll_stores
        · apply ladderApply_stores
          apply journal_stores
          apply modChg_stores
          apply mk_stores
          apply storeFence_stores
          apply mk_stores
          apply detect_stores
          exact h_m
        · intro x0 x1 h2
          apply ite_stores
          · apply requestStart_stores
            apply modInp_stores
            exact h2
          · apply modInp_stores
            exact h2

theorem execStoreRemoval_stores (detector : Nat) (sysMv : Nat) (vstsMv : Nat) (meanSysMv : Nat) (storeMa : Int) (s : State) (h_s : storesWf s.m = true) :
    outStores (execStoreRemoval detector sysMv vstsMv meanSysMv storeMa s) := by
  unfold execStoreRemoval
  apply guardRead_stores
  · exact h_s
  · apply storeRemoval_stores
    exact h_s

theorem storeTaps_stores (m : Mach) (h_m : storesWf m = true) :
    storesWf (storeTaps m) = true := by
  unfold storeTaps
  dsimp only
  apply ite_stores
  · exact h_m
  · apply ite_stores
    · apply mk_stores
      exact h_m
    · apply ite_stores
      · apply storeFence_stores
        apply detect_stores
        apply mk_stores
        exact h_m
      · apply detect_stores
        apply mk_stores
        exact h_m

theorem storeAccept_stores (m : Mach) (vsts : Nat) (h_m : storesWf m = true) :
    storesWf (storeAccept m vsts) = true := by
  unfold storeAccept
  dsimp only
  apply ite_stores
  · exact h_m
  · apply ite_stores
    · apply ite_stores
      · apply storeFence_stores
        apply detect_stores
        exact h_m
      · apply detect_stores
        exact h_m
    · apply ladderApply_stores
      apply activateStore_stores
      apply mk_stores
      exact h_m

theorem execStoreAccept_stores (vstsMv : Nat) (s : State) (h_s : storesWf s.m = true) :
    outStores (execStoreAccept vstsMv s) := by
  unfold execStoreAccept
  apply guardRead_stores
  · exact h_s
  · apply storeAccept_stores
    exact h_s

theorem followReq_stores (m : Mach) (h : Nat) (req : Nat) (h_m : storesWf m = true) :
    storesWf (followReq m h req) = true := by
  unfold followReq
  dsimp only
  apply ite_stores
  · exact h_m
  · apply modHold_stores
    exact h_m

theorem snapshotReqs_stores (m : Mach) (h_m : storesWf m = true) :
    storesWf (snapshotReqs m) = true := by
  unfold snapshotReqs
  dsimp only
  apply mk_stores
  apply forAll_stores
  · apply followReq_stores
    exact h_m
  · intro x0 x1 h2
    apply followReq_stores
    exact h2

theorem excessFollow_stores (m : Mach) (h_m : storesWf m = true) :
    storesWf (excessFollow m) = true := by
  unfold excessFollow
  dsimp only
  apply forAll_stores
  · exact h_m
  · intro x0 x1 h2
    split
    · exact h2
    · apply modHold_stores
      exact h2

theorem cutHolder_stores (m : Mach) (h : Nat) (tgt : Nat) (level : Nat) (h_m : storesWf m = true) :
    storesWf (cutHolder m h tgt level) = true := by
  unfold cutHolder
  dsimp only
  apply modHold_stores
  apply mk_stores
  exact h_m

theorem reclaimStep_stores (m : Mach) (step : Nat) (h_m : storesWf m = true) :
    storesWf (reclaimStep m step) = true := by
  unfold reclaimStep
  dsimp only
  apply mk_stores
  exact h_m

theorem cutClass_stores (level : Nat) (fits : Mach → Bool) (m : Mach) (cls : Nat) (h_m : storesWf m = true) :
    storesWf (cutClass level fits m cls) = true := by
  unfold cutClass
  dsimp only
  apply forAll_stores
  · exact h_m
  · intro x0 x1 h2
    apply ite_stores
    · exact h2
    · apply ite_stores
      · apply reclaimStep_stores
        apply cutHolder_stores
        exact h2
      · exact h2

theorem cutPasses_stores (m : Mach) (fits : Mach → Bool) (h_m : storesWf m = true) :
    storesWf (cutPasses m fits) = true := by
  unfold cutPasses
  apply forAll_stores
  · apply forAll_stores
    · exact h_m
    · intro x0 x1 h2
      apply cutClass_stores
      exact h2
  · intro x3 x4 h5
    apply cutClass_stores
    exact h5

theorem eisFinish_stores (m : Mach) (c : Nat) (res : Nat) (h_m : storesWf m = true) :
    storesWf (eisFinish m c res) = true := by
  unfold eisFinish
  dsimp only
  apply forAll_stores
  · apply mk_stores
    apply modChg_stores
    apply forAll_stores
    · exact h_m
    · intro x0 x1 h2
      apply modCtx_stores
      exact h2
  · intro x3 x4 h5
    apply closeEntry_stores
    exact h5

theorem eisAbort_stores (m : Mach) (c : Nat) (h_m : storesWf m = true) :
    storesWf (eisAbort m c) = true := by
  unfold eisAbort
  dsimp only
  apply ite_stores
  · apply eisFinish_stores
    apply mk_stores
    exact h_m
  · exact h_m

theorem eisEndAll_stores (m : Mach) (h_m : storesWf m = true) :
    storesWf (eisEndAll m) = true := by
  unfold eisEndAll
  dsimp only
  apply mk_stores
  apply forAll_stores
  · exact h_m
  · intro x0 x1 h2
    apply eisAbort_stores
    exact h2

theorem restAbort_stores (m : Mach) (h_m : storesWf m = true) :
    storesWf (restAbort m) = true := by
  unfold restAbort
  dsimp only
  apply ite_stores
  · exact h_m
  · apply mk_stores
    apply forAll_stores
    · exact h_m
    · intro x0 x1 h2
      apply modCtx_stores
      exact h2

theorem liftReclaim_stores (m : Mach) (old : Nat) (s : Nat) (dmax : Nat) (h_m : storesWf m = true) :
    storesWf (liftReclaim m old s dmax) = true := by
  unfold liftReclaim
  dsimp only
  apply ite_stores
  · apply ite_stores
    · apply ite_stores
      · exact h_m
      · apply reclaimStep_stores
        apply eisEndAll_stores
        exact h_m
    · apply reclaimStep_stores
      apply restAbort_stores
      apply ite_stores
      · exact h_m
      · apply reclaimStep_stores
        apply eisEndAll_stores
        exact h_m
  · apply cutPasses_stores
    apply ite_stores
    · apply mk_stores
      apply ite_stores
      · apply ite_stores
        · exact h_m
        · apply reclaimStep_stores
          apply eisEndAll_stores
          exact h_m
      · apply reclaimStep_stores
        apply restAbort_stores
        apply ite_stores
        · exact h_m
        · apply reclaimStep_stores
          apply eisEndAll_stores
          exact h_m
    · apply reclaimStep_stores
      apply mk_stores
      apply ite_stores
      · apply ite_stores
        · exact h_m
        · apply reclaimStep_stores
          apply eisEndAll_stores
          exact h_m
      · apply reclaimStep_stores
        apply restAbort_stores
        apply ite_stores
        · exact h_m
        · apply reclaimStep_stores
          apply eisEndAll_stores
          exact h_m

theorem tryRestore_stores (m : Mach) (s : Nat) (dmax : Nat) (h_m : storesWf m = true) :
    storesWf (tryRestore m s dmax) = true := by
  unfold tryRestore
  dsimp only
  split
  · exact h_m
  · apply ite_stores
    · exact h_m
    · apply modHold_stores
      exact h_m

theorem admitHolder_stores (m : Mach) (h : Nat) (s : Nat) (dmax : Nat) (h_m : storesWf m = true) :
    storesWf (admitHolder m h s dmax) = true := by
  unfold admitHolder
  dsimp only
  split
  · exact h_m
  · apply modHold_stores
    exact h_m

theorem admitInOrder_stores (m : Mach) (s : Nat) (dmax : Nat) (h_m : storesWf m = true) :
    storesWf (admitInOrder m s dmax) = true := by
  unfold admitInOrder
  dsimp only
  apply forAll_stores
  · exact h_m
  · intro x0 x1 h2
    apply ite_stores
    · apply modHold_stores
      exact h2
    · apply admitHolder_stores
      exact h2

theorem restGrant_stores (m : Mach) (s : Nat) (h_m : storesWf m = true) :
    storesWf (restGrant m s) = true := by
  unfold restGrant
  dsimp only
  apply ite_stores
  · apply mk_stores
    apply forAll_stores
    · exact h_m
    · intro x0 x1 h2
      apply modCtx_stores
      exact h2
  · exact h_m

theorem eisGrant_stores (m : Mach) (s : Nat) (h_m : storesWf m = true) :
    storesWf (eisGrant m s) = true := by
  unfold eisGrant
  dsimp only
  apply forAll_stores
  · exact h_m
  · intro x0 x1 h2
    apply ite_stores
    · apply mk_stores
      exact h2
    · exact h2

theorem capPasses_stores (m : Mach) (h_m : storesWf m = true) :
    storesWf (capPasses m) = true := by
  unfold capPasses
  apply forAll_stores
  · exact h_m
  · intro x0 x1 h2
    split
    · apply ite_stores
      · apply cutHolder_stores
        exact h2
      · exact h2
    · exact h2

theorem deratePasses_stores (m : Mach) (h_m : storesWf m = true) :
    storesWf (deratePasses m) = true := by
  unfold deratePasses
  dsimp only
  apply forAll_stores
  · exact h_m
  · intro x0 x1 h2
    split
    · apply ite_stores
      · apply modHold_stores
        exact h2
      · exact h2
    · exact h2

theorem bibCheck_stores (m : Mach) (h_m : storesWf m = true) :
    storesWf (bibCheck m) = true := by
  unfold bibCheck
  apply forAll_stores
  · exact h_m
  · intro x0 x1 h2
    apply ite_stores
    · apply note_stores
      apply modProc_stores
      exact h2
    · exact h2

theorem liftPublish_stores (m : Mach) (h_m : storesWf m = true) :
    storesWf (liftPublish m) = true := by
  unfold liftPublish
  dsimp only
  apply mk_stores
  apply modHold_stores
  apply eisGrant_stores
  apply admitInOrder_stores
  split
  · apply ite_stores
    · apply cutPasses_stores
      apply ite_stores
      · apply liftReclaim_stores
        apply deratePasses_stores
        apply capPasses_stores
        apply mk_stores
        apply restGrant_stores
        apply snapshotReqs_stores
        apply excessFollow_stores
        apply mk_stores
        exact h_m
      · apply ite_stores
        · apply deratePasses_stores
          apply capPasses_stores
          apply mk_stores
          apply restGrant_stores
          apply snapshotReqs_stores
          apply excessFollow_stores
          apply mk_stores
          exact h_m
        · apply tryRestore_stores
          apply deratePasses_stores
          apply capPasses_stores
          apply mk_stores
          apply restGrant_stores
          apply snapshotReqs_stores
          apply excessFollow_stores
          apply mk_stores
          exact h_m
    · apply ite_stores
      · apply liftReclaim_stores
        apply deratePasses_stores
        apply capPasses_stores
        apply mk_stores
        apply restGrant_stores
        apply snapshotReqs_stores
        apply excessFollow_stores
        apply mk_stores
        exact h_m
      · apply ite_stores
        · apply deratePasses_stores
          apply capPasses_stores
          apply mk_stores
          apply restGrant_stores
          apply snapshotReqs_stores
          apply excessFollow_stores
          apply mk_stores
          exact h_m
        · apply tryRestore_stores
          apply deratePasses_stores
          apply capPasses_stores
          apply mk_stores
          apply restGrant_stores
          apply snapshotReqs_stores
          apply excessFollow_stores
          apply mk_stores
          exact h_m
  · apply ite_stores
    · apply liftReclaim_stores
      apply deratePasses_stores
      apply capPasses_stores
      apply mk_stores
      apply restGrant_stores
      apply snapshotReqs_stores
      apply excessFollow_stores
      apply mk_stores
      exact h_m
    · apply ite_stores
      · apply deratePasses_stores
        apply capPasses_stores
        apply mk_stores
        apply restGrant_stores
        apply snapshotReqs_stores
        apply excessFollow_stores
        apply mk_stores
        exact h_m
      · apply tryRestore_stores
        apply deratePasses_stores
        apply capPasses_stores
        apply mk_stores
        apply restGrant_stores
        apply snapshotReqs_stores
        apply excessFollow_stores
        apply mk_stores
        exact h_m

theorem donorWatch_stores (m : Mach) (h_m : storesWf m = true) :
    storesWf (donorWatch m) = true := by
  unfold donorWatch
  dsimp only
  apply mk_stores
  exact h_m

theorem liftCycle_stores (m : Mach) (published : Bool) (h_m : storesWf m = true) :
    storesWf (liftCycle m published) = true := by
  unfold liftCycle
  dsimp only
  apply ite_stores
  · exact h_m
  · apply ite_stores
    · apply liftPublish_stores
      apply donorWatch_stores
      apply bibCheck_stores
      apply mk_stores
      split
      · apply advanceTo_stores
        exact h_m
      · exact h_m
    · apply mk_stores
      apply donorWatch_stores
      apply bibCheck_stores
      apply mk_stores
      split
      · apply advanceTo_stores
        exact h_m
      · exact h_m

theorem execLiftCycle_stores (published : Bool) (s : State) (h_s : storesWf s.m = true) :
    outStores (execLiftCycle published s) := by
  unfold execLiftCycle
  apply guardUnit_stores
  · exact h_s
  · apply liftCycle_stores
    exact h_s

theorem passRequest_stores (m : Mach) (h : Nat) (mw : Nat) (h_m : storesWf m = true) :
    storesWf (passRequest m h mw) = true := by
  unfold passRequest
  dsimp only
  apply ite_stores
  · apply modHold_stores
    apply mk_stores
    exact h_m
  · apply modHold_stores
    exact h_m

theorem execPassRequest_stores (holder : Nat) (mw : Nat) (s : State) (h_s : storesWf s.m = true) :
    outStores (execPassRequest holder mw s) := by
  unfold execPassRequest
  apply guardUnit_stores
  · exact h_s
  · apply when_stores
    · exact h_s
    · intro x0 h1
      apply passRequest_stores
      exact h1

theorem passExcess_stores (m : Mach) (p : Nat) (mw : Nat) (h_m : storesWf m = true) :
    storesWf (passExcess m p mw) = true := by
  unfold passExcess
  dsimp only
  apply ite_stores
  · exact h_m
  · apply ite_stores
    · exact h_m
    · split
      · apply consequential_stores
        exact h_m
      · apply modHold_stores
        apply note_stores
        exact h_m

theorem execPassExcess_stores (port : Nat) (mw : Nat) (s : State) (h_s : storesWf s.m = true) :
    outStores (execPassExcess port mw s) := by
  unfold execPassExcess
  apply guardUnit_stores
  · exact h_s
  · apply passExcess_stores
    exact h_s

theorem execReclaimHardReset_stores (port : Nat) (s : State) (h_s : storesWf s.m = true) :
    outStores (execReclaimHardReset port s) := by
  unfold execReclaimHardReset
  apply guardUnit_stores
  · exact h_s
  · apply fire_stores
    · exact h_s
    · intro x0 h1
      apply hardSignal_stores
      exact h1

theorem restGrantEnd_stores (m : Mach) (sLow : Bool) (h_m : storesWf m = true) :
    storesWf (restGrantEnd m sLow) = true := by
  unfold restGrantEnd
  dsimp only
  split
  · exact h_m
  · apply ite_stores
    · apply fire_stores
      · exact h_m
      · intro x0 h1
        apply restAbort_stores
        exact h1
    · apply mk_stores
      apply advanceTo_stores
      exact h_m

theorem execRestGrantEnd_stores (sLow : Bool) (s : State) (h_s : storesWf s.m = true) :
    outStores (execRestGrantEnd sLow s) := by
  unfold execRestGrantEnd
  apply guardUnit_stores
  · exact h_s
  · apply restGrantEnd_stores
    exact h_s

theorem eisGrantEnd_stores (m : Mach) (c : Nat) (h_m : storesWf m = true) :
    storesWf (eisGrantEnd m c) = true := by
  unfold eisGrantEnd
  dsimp only
  split
  · exact h_m
  · apply mk_stores
    apply eisAbort_stores
    apply advanceTo_stores
    exact h_m

theorem execEisGrantEnd_stores (m : Nat) (s : State) (h_s : storesWf s.m = true) :
    outStores (execEisGrantEnd m s) := by
  unfold execEisGrantEnd
  apply guardUnit_stores
  · exact h_s
  · apply eisGrantEnd_stores
    exact h_s

theorem cmdLftCfg_stores (m : Mach) (w1 : Nat) (p : List Byte) (h_m : storesWf m = true) :
    ansStores (cmdLftCfg m w1 p) := by
  unfold cmdLftCfg
  dsimp only
  apply refuseFirst_stores
  simp only [ansStores]
  apply mk_stores
  exact h_m

theorem execLftCfg_stores (slot : Nat) (s : State) (h_s : storesWf s.m = true) :
    outStores (execLftCfg slot s) := by
  unfold execLftCfg
  apply command_stores
  · intro x0 x1 x2 h3
    apply cmdLftCfg_stores
    exact h3
  · exact h_s

theorem cmdLftClassSet_stores (m : Mach) (w1 : Nat) (p : List Byte) (h_m : storesWf m = true) :
    ansStores (cmdLftClassSet m w1 p) := by
  unfold cmdLftClassSet
  dsimp only
  apply refuseFirst_stores
  simp only [ansStores]
  apply mk_stores
  exact h_m

theorem execLftClassSet_stores (slot : Nat) (s : State) (h_s : storesWf s.m = true) :
    outStores (execLftClassSet slot s) := by
  unfold execLftClassSet
  apply command_stores
  · intro x0 x1 x2 h3
    apply cmdLftClassSet_stores
    exact h3
  · exact h_s

theorem cmdLftBudgetGet_stores (m : Mach) (w1 : Nat) (w2 : List Byte) (h_m : storesWf m = true) :
    ansStores (cmdLftBudgetGet m w1 w2) := by
  unfold cmdLftBudgetGet
  dsimp only
  simp only [ansStores]
  exact h_m

theorem execLftBudgetGet_stores (slot : Nat) (s : State) (h_s : storesWf s.m = true) :
    outStores (execLftBudgetGet slot s) := by
  unfold execLftBudgetGet
  apply command_stores
  · intro x0 x1 x2 h3
    apply cmdLftBudgetGet_stores
    exact h3
  · exact h_s

theorem cmdLftPassGet_stores (m : Mach) (w1 : Nat) (p : List Byte) (h_m : storesWf m = true) :
    ansStores (cmdLftPassGet m w1 p) := by
  unfold cmdLftPassGet
  dsimp only
  apply refuseFirst_stores
  simp only [ansStores]
  exact h_m

theorem execLftPassGet_stores (slot : Nat) (s : State) (h_s : storesWf s.m = true) :
    outStores (execLftPassGet slot s) := by
  unfold execLftPassGet
  apply command_stores
  · intro x0 x1 x2 h3
    apply cmdLftPassGet_stores
    exact h3
  · exact h_s

theorem lftStatWrite_stores (m : Mach) (w : Nat) (h_m : storesWf m = true) :
    storesWf (lftStatWrite m w) = true := by
  unfold lftStatWrite
  dsimp only
  apply ite_stores
  · apply mk_stores
    exact h_m
  · exact h_m

theorem auxRefs_stores (m : Mach) (h_m : storesWf m = true) :
    storesWf (auxRefs m) = true := by
  unfold auxRefs
  dsimp only
  exact setRef_stores _ _ _ _ (setRef_stores _ _ _ _ (setRef_stores _ _ _ _ (setRef_stores _ _ _ _ h_m)))

theorem auxGrant_stores (m : Mach) (h_m : storesWf m = true) :
    storesWf (auxGrant m) = true := by
  unfold auxGrant
  dsimp only
  apply ite_stores
  · apply mk_stores
    apply stopRun_stores
    exact h_m
  · apply ite_stores
    · apply setRef_stores
      exact h_m
    · apply ite_stores
      · exact h_m
      · apply requestStart_stores
        exact h_m

theorem auxEval_stores (m : Mach) (h_m : storesWf m = true) :
    storesWf (auxEval m) = true := by
  unfold auxEval
  dsimp only
  apply ite_stores
  · apply auxGrant_stores
    apply mk_stores
    exact h_m
  · apply ite_stores
    · apply mk_stores
      exact h_m
    · apply ite_stores
      · apply mk_stores
        exact h_m
      · exact h_m

theorem cmdStoAuxCfg_stores (m : Mach) (w1 : Nat) (p : List Byte) (h_m : storesWf m = true) :
    ansStores (cmdStoAuxCfg m w1 p) := by
  unfold cmdStoAuxCfg
  dsimp only
  apply refuseFirst_stores
  simp only [ansStores]
  apply ite_stores
  · apply auxRefs_stores
    apply auxEval_stores
    apply mk_stores
    exact h_m
  · apply auxEval_stores
    apply mk_stores
    exact h_m

theorem execStoAuxCfg_stores (slot : Nat) (s : State) (h_s : storesWf s.m = true) :
    outStores (execStoAuxCfg slot s) := by
  unfold execStoAuxCfg
  apply command_stores
  · intro x0 x1 x2 h3
    apply cmdStoAuxCfg_stores
    exact h3
  · exact h_s

theorem execAuxPolicyChange_stores (s : State) (h_s : storesWf s.m = true) :
    outStores (execAuxPolicyChange s) := by
  unfold execAuxPolicyChange
  apply guardUnit_stores
  · exact h_s
  · apply auxEval_stores
    exact h_s

theorem execAuxHoldExpire_stores (s : State) (h_s : storesWf s.m = true) :
    outStores (execAuxHoldExpire s) := by
  unfold execAuxHoldExpire
  dsimp only
  apply guardUnit_stores
  · exact h_s
  · apply fire_stores
    · exact h_s
    · intro x0 h1
      apply ite_stores
      · apply mk_stores
        exact h1
      · apply auxGrant_stores
        apply mk_stores
        exact h1

theorem setEstCfg_stores (m : Mach) (p : List Byte) (h_m : storesWf m = true) :
    ansStores (setEstCfg m p) := by
  unfold setEstCfg
  dsimp only
  apply refuseFirst_stores
  simp only [ansStores]
  apply mk_stores
  exact h_m

theorem storeQNom_stores (a : Ans) (h_a : ansStores a) :
    ansStores (storeQNom a) := by
  unfold storeQNom
  split
  · simp only [ansStores]
    apply forAll_stores
    · assumption
    · intro x0 x1 h2
      apply modCtx_stores
      exact h2
  · exact h_a

theorem cmdEstCfg_stores (m : Mach) (w1 : Nat) (p : List Byte) (h_m : storesWf m = true) :
    ansStores (cmdEstCfg m w1 p) := by
  unfold cmdEstCfg
  apply persist_stores
  apply storeQNom_stores
  apply setEstCfg_stores
  exact h_m

theorem execEstCfg_stores (slot : Nat) (s : State) (h_s : storesWf s.m = true) :
    outStores (execEstCfg slot s) := by
  unfold execEstCfg
  apply command_stores
  · intro x0 x1 x2 h3
    apply cmdEstCfg_stores
    exact h3
  · exact h_s

theorem putOcv_stores (m : Mach) (p : List Byte) (h_m : storesWf m = true) :
    storesWf (putOcv m p) = true := by
  unfold putOcv
  dsimp only
  apply mk_stores
  exact h_m

theorem cmdEstOcvSet_stores (m : Mach) (w1 : Nat) (p : List Byte) (h_m : storesWf m = true) :
    ansStores (cmdEstOcvSet m w1 p) := by
  unfold cmdEstOcvSet
  dsimp only
  apply refuseFirst_stores
  simp only [ansStores]
  apply nvmConfig_stores
  apply putOcv_stores
  exact h_m

theorem execEstOcvSet_stores (slot : Nat) (s : State) (h_s : storesWf s.m = true) :
    outStores (execEstOcvSet slot s) := by
  unfold execEstOcvSet
  apply command_stores
  · intro x0 x1 x2 h3
    apply cmdEstOcvSet_stores
    exact h3
  · exact h_s

theorem cmdEstOcvGet_stores (m : Mach) (w1 : Nat) (p : List Byte) (h_m : storesWf m = true) :
    ansStores (cmdEstOcvGet m w1 p) := by
  unfold cmdEstOcvGet
  dsimp only
  apply refuseFirst_stores
  simp only [ansStores]
  exact h_m

theorem execEstOcvGet_stores (slot : Nat) (s : State) (h_s : storesWf s.m = true) :
    outStores (execEstOcvGet slot s) := by
  unfold execEstOcvGet
  apply command_stores
  · intro x0 x1 x2 h3
    apply cmdEstOcvGet_stores
    exact h3
  · exact h_s

theorem cmdEstCtxGet_stores (m : Mach) (w1 : Nat) (p : List Byte) (h_m : storesWf m = true) :
    ansStores (cmdEstCtxGet m w1 p) := by
  unfold cmdEstCtxGet
  dsimp only
  apply refuseFirst_stores
  simp only [ansStores]
  exact h_m

theorem execEstCtxGet_stores (slot : Nat) (s : State) (h_s : storesWf s.m = true) :
    outStores (execEstCtxGet slot s) := by
  unfold execEstCtxGet
  apply command_stores
  · intro x0 x1 x2 h3
    apply cmdEstCtxGet_stores
    exact h3
  · exact h_s

theorem cmdEstCtxSet_stores (m : Mach) (s : Nat) (p : List Byte) (h_m : storesWf m = true) :
    ansStores (cmdEstCtxSet m s p) := by
  unfold cmdEstCtxSet
  dsimp only
  apply refuseFirst_stores
  simp only [ansStores]
  apply learnWrite_stores
  apply ite_stores
  · apply modCtx_stores
    apply modCtx_stores
    exact h_m
  · apply modCtx_stores
    exact h_m

theorem execEstCtxSet_stores (slot : Nat) (s : State) (h_s : storesWf s.m = true) :
    outStores (execEstCtxSet slot s) := by
  unfold execEstCtxSet
  apply command_stores
  · intro x0 x1 x2 h3
    apply cmdEstCtxSet_stores
    exact h3
  · exact h_s

theorem estStatWrite_stores (m : Mach) (w : Nat) (h_m : storesWf m = true) :
    storesWf (estStatWrite m w) = true := by
  unfold estStatWrite
  dsimp only
  apply mk_stores
  exact h_m

theorem accMove_stores (m : Mach) (obs : List CtxObs) (h_m : storesWf m = true) :
    storesWf (accMove m obs) = true := by
  unfold accMove
  dsimp only
  apply foldl_stores
  · exact h_m
  · intro x0 x1 h2
    apply ite_stores
    · apply mk_stores
      exact h2
    · exact h2

theorem ageOne_stores (m : Mach) (x : Nat) (h_m : storesWf m = true) :
    storesWf (ageOne m x) = true := by
  unfold ageOne
  apply modCtx_stores
  exact h_m

theorem socCount_stores (m : Mach) (obs : List CtxObs) (h_m : storesWf m = true) :
    storesWf (socCount m obs) = true := by
  unfold socCount
  dsimp only
  apply ite_stores
  · apply forAll_stores
    · apply accMove_stores
      apply forAll_stores
      · exact h_m
      · intro x0 x1 h2
        apply reopen_stores
        exact h2
    · intro x3 x4 h5
      apply ageOne_stores
      exact h5
  · apply mk_stores
    apply foldl_stores
    · apply accMove_stores
      apply forAll_stores
      · exact h_m
      · intro x6 x7 h8
        apply reopen_stores
        exact h8
    · intro x9 x10 h11
      apply ite_stores
      · apply modCtx_stores
        apply countOne_stores
        exact h11
      · apply countOne_stores
        exact h11

theorem execSocCount_stores (obs : List CtxObs) (s : State) (h_s : storesWf s.m = true) :
    outStores (execSocCount obs s) := by
  unfold execSocCount
  apply guardUnit_stores
  · exact h_s
  · apply when_stores
    · exact h_s
    · intro x0 h1
      apply socCount_stores
      exact h1

theorem execNoAnchor_stores (ctx : Nat) (s : State) (h_s : storesWf s.m = true) :
    outStores (execNoAnchor ctx s) := by
  unfold execNoAnchor
  apply guardUnit_stores
  · exact h_s
  · apply when_stores
    · exact h_s
    · intro x0 h1
      apply modCtx_stores
      exact h1

theorem execEkfStep_stores (obs : List EkfObs) (s : State) (h_s : storesWf s.m = true) :
    outStores (execEkfStep obs s) := by
  unfold execEkfStep
  apply guardUnit_stores
  · exact h_s
  · apply when_stores
    · exact h_s
    · intro x0 h1
      apply foldl_stores
      · exact h1
      · intro x2 x3 h4
        apply ekfStep_stores
        exact h4

theorem execFilterReset_stores (ctx : Nat) (s : State) (h_s : storesWf s.m = true) :
    outStores (execFilterReset ctx s) := by
  unfold execFilterReset
  dsimp only
  apply guardUnit_stores
  · exact h_s
  · apply when_stores
    · exact h_s
    · intro x0 h1
      apply note_stores
      apply mk_stores
      apply modCtx_stores
      apply filterInit_stores
      exact h1

theorem execStale_stores (ctx : Nat) (s : State) (h_s : storesWf s.m = true) :
    outStores (execStale ctx s) := by
  unfold execStale
  dsimp only
  apply guardUnit_stores
  · exact h_s
  · apply when_stores
    · exact h_s
    · intro x0 h1
      apply modCtx_stores
      apply advanceTo_stores
      exact h1

theorem execLearnedWriteDue_stores (ctx : Nat) (s : State) (h_s : storesWf s.m = true) :
    outStores (execLearnedWriteDue ctx s) := by
  unfold execLearnedWriteDue
  apply guardUnit_stores
  · exact h_s
  · apply when_stores
    · exact h_s
    · intro x0 h1
      apply learnWrite_stores
      exact h1

theorem fitAnchor_stores (m : Mach) (x : Nat) (w : Fit) (h_m : storesWf m = true) :
    storesWf (fitAnchor m x w) = true := by
  unfold fitAnchor
  dsimp only
  apply ite_stores
  · apply modCtx_stores
    apply modCtx_stores
    exact h_m
  · apply ite_stores
    · apply modCtx_stores
      apply modCtx_stores
      exact h_m
    · apply takeAnchor_stores
      apply modCtx_stores
      exact h_m

theorem execRelaxFit_stores (ctx : Nat) (s : State) (h_s : storesWf s.m = true) :
    outStores (execRelaxFit ctx s) := by
  unfold execRelaxFit
  dsimp only
  apply guardUnit_stores
  · exact h_s
  · split
    · exact h_s
    · apply when_stores
      · exact h_s
      · intro x0 h1
        apply fitAnchor_stores
        exact h1

theorem execRestRequest_stores (s : State) (h_s : storesWf s.m = true) :
    outStores (execRestRequest s) := by
  unfold execRestRequest
  dsimp only
  apply guardUnit_stores
  · exact h_s
  · apply mk_stores
    exact h_s

theorem cmdEstRestReq_stores (m : Mach) (w1 : Nat) (p : List Byte) (h_m : storesWf m = true) :
    ansStores (cmdEstRestReq m w1 p) := by
  unfold cmdEstRestReq
  dsimp only
  apply refuseFirst_stores
  apply iteAns_stores
  · simp only [ansStores]
    apply mk_stores
    exact h_m
  · simp only [ansStores]
    apply modChg_stores
    exact h_m

theorem execEstRestReq_stores (slot : Nat) (s : State) (h_s : storesWf s.m = true) :
    outStores (execEstRestReq slot s) := by
  unfold execEstRestReq
  apply command_stores
  · intro x0 x1 x2 h3
    apply cmdEstRestReq_stores
    exact h3
  · exact h_s

theorem cmdEstEisReq_stores (m : Mach) (s : Nat) (p : List Byte) (h_m : storesWf m = true) :
    ansStores (cmdEstEisReq m s p) := by
  unfold cmdEstEisReq
  dsimp only
  apply refuseFirst_stores
  simp only [ansStores]
  apply mk_stores
  exact h_m

theorem execEstEisReq_stores (slot : Nat) (s : State) (h_s : storesWf s.m = true) :
    outStores (execEstEisReq slot s) := by
  unfold execEstEisReq
  apply command_stores
  · intro x0 x1 x2 h3
    apply cmdEstEisReq_stores
    exact h3
  · exact h_s

theorem cmdEstEisGet_stores (m : Mach) (w1 : Nat) (p : List Byte) (h_m : storesWf m = true) :
    ansStores (cmdEstEisGet m w1 p) := by
  unfold cmdEstEisGet
  dsimp only
  apply refuseFirst_stores
  simp only [ansStores]
  exact h_m

theorem execEstEisGet_stores (slot : Nat) (s : State) (h_s : storesWf s.m = true) :
    outStores (execEstEisGet slot s) := by
  unfold execEstEisGet
  apply command_stores
  · intro x0 x1 x2 h3
    apply cmdEstEisGet_stores
    exact h3
  · exact h_s

theorem execEisDue_stores (ctx : Nat) (s : State) (h_s : storesWf s.m = true) :
    outStores (execEisDue ctx s) := by
  unfold execEisDue
  dsimp only
  apply guardUnit_stores
  · exact h_s
  · apply when_stores
    · exact h_s
    · intro x0 h1
      apply mk_stores
      exact h1

theorem eisRun_stores (m : Mach) (c : Nat) (h_m : storesWf m = true) :
    storesWf (eisRun m c) = true := by
  unfold eisRun
  dsimp only
  apply ite_stores
  · apply chgApply_stores
    apply modChg_stores
    apply mk_stores
    apply forAll_stores
    · exact h_m
    · intro x0 x1 h2
      apply modCtx_stores
      exact h2
  · exact h_m

theorem execEisRun_stores (m : Nat) (s : State) (h_s : storesWf s.m = true) :
    outStores (execEisRun m s) := by
  unfold execEisRun
  apply guardUnit_stores
  · exact h_s
  · apply eisRun_stores
    exact h_s

theorem eisAccept_stores (m : Mach) (x : Nat) (amp : Nat) (z : List Zpt) (h_m : storesWf m = true) :
    storesWf (eisAccept m x amp z) = true := by
  unfold eisAccept
  dsimp only
  apply modCtx_stores
  exact h_m

theorem eisFrequencyDone_stores (m : Mach) (r : EisRun) (meas : List EisMeas) (amp : Nat) (drop : Nat) (h_m : storesWf m = true) :
    storesWf (eisFrequencyDone m r meas amp drop) = true := by
  unfold eisFrequencyDone
  dsimp only
  apply ite_stores
  · apply ite_stores
    · apply eisFinish_stores
      apply advanceTo_stores
      exact h_m
    · apply mk_stores
      apply advanceTo_stores
      exact h_m
  · apply ite_stores
    · apply mk_stores
      apply advanceTo_stores
      exact h_m
    · apply chgApply_stores
      apply eisFinish_stores
      apply forAll_stores
      · apply advanceTo_stores
        exact h_m
      · intro x0 x1 h2
        apply ite_stores
        · apply eisAccept_stores
          exact h2
        · exact h2

theorem execEisFrequencyDone_stores (m : Nat) (meas : List EisMeas) (ampMa : Nat) (dropPermille : Nat) (s : State) (h_s : storesWf s.m = true) :
    outStores (execEisFrequencyDone m meas ampMa dropPermille s) := by
  unfold execEisFrequencyDone
  apply guardUnit_stores
  · exact h_s
  · split
    · exact h_s
    · apply eisFrequencyDone_stores
      exact h_s

theorem execEisAbort_stores (m : Nat) (s : State) (h_s : storesWf s.m = true) :
    outStores (execEisAbort m s) := by
  unfold execEisAbort
  apply guardUnit_stores
  · exact h_s
  · apply when_stores
    · exact h_s
    · intro x0 h1
      apply chgApply_stores
      apply eisAbort_stores
      exact h1

theorem modCap_stores (m : Mach) (sc : Nat) (f : ThmCap → ThmCap) (h_m : storesWf m = true) :
    storesWf (modCap m sc f) = true := by
  unfold modCap
  dsimp only
  apply mk_stores
  exact h_m

theorem capFollow_stores (m : Mach) (sc : Nat) (lvl : Nat) (h_m : storesWf m = true) :
    storesWf (capFollow m sc lvl) = true := by
  unfold capFollow
  dsimp only
  apply modCap_stores
  apply ite_stores
  · apply forAll_stores
    · exact h_m
    · intro x0 x1 h2
      apply modHold_stores
      exact h2
  · exact h_m

theorem halfRate_stores (m : Mach) (on : Bool) (h_m : storesWf m = true) :
    storesWf (halfRate m on) = true := by
  unfold halfRate
  dsimp only
  apply forAll_stores
  · exact h_m
  · intro x0 x1 h2
    apply ite_stores
    · apply ite_stores
      · apply modCv_stores
        exact h2
      · exact h2
    · apply ite_stores
      · apply modCv_stores
        exact h2
      · exact h2

theorem shedConv_stores (m : Mach) (k : Nat) (h_m : storesWf m = true) :
    storesWf (shedConv m k) = true := by
  unfold shedConv
  dsimp only
  apply ite_stores
  · exact h_m
  · apply ite_stores
    · apply ite_stores
      · apply modPd_stores
        apply modCv_stores
        apply shedLimits_stores
        apply modCv_stores
        split
        · apply ite_stores
          · apply setLive_stores
            apply modCv_stores
            exact h_m
          · exact h_m
        · exact h_m
      · apply modCv_stores
        apply shedLimits_stores
        apply modCv_stores
        split
        · apply ite_stores
          · apply setLive_stores
            apply modCv_stores
            exact h_m
          · exact h_m
        · exact h_m
    · apply shedLimits_stores
      apply modCv_stores
      split
      · apply ite_stores
        · apply setLive_stores
          apply modCv_stores
          exact h_m
        · exact h_m
      · exact h_m

theorem unshedConv_stores (m : Mach) (k : Nat) (h_m : storesWf m = true) :
    storesWf (unshedConv m k) = true := by
  unfold unshedConv
  dsimp only
  split
  · exact h_m
  · apply setRef_stores
    apply setLive_stores
    apply modCv_stores
    exact h_m

theorem thmCharge_stores (m : Mach) (h_m : storesWf m = true) :
    storesWf (thmCharge m) = true := by
  unfold thmCharge
  dsimp only
  apply forAll_stores
  · apply modChg_stores
    exact h_m
  · intro x0 x1 h2
    apply ite_stores
    · apply modChg_stores
      exact h2
    · exact h2

theorem scopeAct_stores (m : Mach) (sc : Nat) (old : Nat) (lvl : Nat) (h_m : storesWf m = true) :
    storesWf (scopeAct m sc old lvl) = true := by
  unfold scopeAct
  dsimp only
  apply ite_stores
  · exact h_m
  · apply ite_stores
    · apply halfRate_stores
      apply capFollow_stores
      exact h_m
    · apply ite_stores
      · apply ite_stores
        · apply forAll_stores
          · apply capFollow_stores
            exact h_m
          · intro x0 x1 h2
            apply ite_stores
            · exact h2
            · apply modPort_stores
              exact h2
        · apply capFollow_stores
          exact h_m
      · apply ite_stores
        · apply forAll_stores
          · exact h_m
          · intro x3 x4 h5
            apply ite_stores
            · apply ite_stores
              · apply shedConv_stores
                apply ite_stores
                · exact h5
                · apply modCv_stores
                  exact h5
              · apply ite_stores
                · exact h5
                · apply modCv_stores
                  exact h5
            · apply unshedConv_stores
              apply ite_stores
              · exact h5
              · apply modCv_stores
                exact h5
        · apply ite_stores
          · apply chgApply_stores
            apply thmCharge_stores
            apply capFollow_stores
            exact h_m
          · apply ite_stores
            · apply capFollow_stores
              exact h_m
            · apply chgApply_stores
              apply thmCharge_stores
              apply capFollow_stores
              exact h_m

theorem thmLive_stores (m : Mach) (h_m : storesWf m = true) :
    storesWf (thmLive m) = true := by
  unfold thmLive
  dsimp only
  apply setLive_stores
  apply setLive_stores
  apply setLive_stores
  apply setLive_stores
  exact h_m

theorem thmRead_stores (m : Mach) (x : Nat) (r : Int) (h_m : storesWf m = true) :
    storesWf (thmRead m x r) = true := by
  unfold thmRead
  dsimp only
  apply ite_stores
  · apply thmLive_stores
    apply ite_stores
    · apply note_stores
      apply modSens_stores
      apply ite_stores
      · apply tmonRead_stores
        exact h_m
      · exact h_m
    · apply modSens_stores
      apply ite_stores
      · apply tmonRead_stores
        exact h_m
      · exact h_m
  · apply scopeAct_stores
    apply thmLive_stores
    apply ite_stores
    · apply note_stores
      apply ite_stores
      · apply note_stores
        apply ite_stores
        · apply note_stores
          apply modSens_stores
          apply ite_stores
          · apply tmonRead_stores
            exact h_m
          · exact h_m
        · apply modSens_stores
          apply ite_stores
          · apply tmonRead_stores
            exact h_m
          · exact h_m
      · apply ite_stores
        · apply note_stores
          apply modSens_stores
          apply ite_stores
          · apply tmonRead_stores
            exact h_m
          · exact h_m
        · apply modSens_stores
          apply ite_stores
          · apply tmonRead_stores
            exact h_m
          · exact h_m
    · apply ite_stores
      · apply note_stores
        apply ite_stores
        · apply note_stores
          apply modSens_stores
          apply ite_stores
          · apply tmonRead_stores
            exact h_m
          · exact h_m
        · apply modSens_stores
          apply ite_stores
          · apply tmonRead_stores
            exact h_m
          · exact h_m
      · apply ite_stores
        · apply note_stores
          apply modSens_stores
          apply ite_stores
          · apply tmonRead_stores
            exact h_m
          · exact h_m
        · apply modSens_stores
          apply ite_stores
          · apply tmonRead_stores
            exact h_m
          · exact h_m

theorem windowRead_stores (m : Mach) (x : Nat) (t : Int) (h_m : storesWf m = true) :
    storesWf (windowRead m x t) = true := by
  unfold windowRead
  dsimp only
  apply ite_stores
  · apply ite_stores
    · apply windowAct_stores
      exact h_m
    · exact h_m
  · apply ite_stores
    · split
      · exact h_m
      · apply windowAct_stores
        exact h_m
    · exact h_m

theorem execThmSample_stores (sensor : Nat) (t : Int) (s : State) (h_s : storesWf s.m = true) :
    outStores (execThmSample sensor t s) := by
  unfold execThmSample
  apply guardUnit_stores
  · exact h_s
  · apply when_stores
    · exact h_s
    · intro x0 h1
      apply windowRead_stores
      apply thmRead_stores
      exact h1

theorem execLaneChange_stores (sensor : Nat) (s : State) (h_s : storesWf s.m = true) :
    outStores (execLaneChange sensor s) := by
  unfold execLaneChange
  dsimp only
  apply guardUnit_stores
  · exact h_s
  · apply ite_stores
    · apply when_stores
      · exact h_s
      · intro x0 h1
        apply modSens_stores
        exact h1
    · apply when_stores
      · exact h_s
      · intro x2 h3
        apply modSens_stores
        exact h3

theorem execHover_stores (sensor : Nat) (level : Nat) (s : State) (h_s : storesWf s.m = true) :
    outStores (execHover sensor level s) := by
  unfold execHover
  dsimp only
  apply guardUnit_stores
  · exact h_s
  · apply when_stores
    · exact h_s
    · intro x0 h1
      apply setLive_stores
      apply note_stores
      apply mk_stores
      exact h1

theorem thmCapLift_stores (m : Mach) (sc : Nat) (h_m : storesWf m = true) :
    storesWf (thmCapLift m sc) = true := by
  unfold thmCapLift
  dsimp only
  split
  · apply ite_stores
    · apply ite_stores
      · apply chgApply_stores
        apply thmCharge_stores
        apply forAll_stores
        · apply modCap_stores
          apply advanceTo_stores
          exact h_m
        · intro x0 x1 h2
          apply ite_stores
          · apply modHold_stores
            exact h2
          · exact h2
      · apply thmCharge_stores
        apply forAll_stores
        · apply modCap_stores
          apply advanceTo_stores
          exact h_m
        · intro x3 x4 h5
          apply ite_stores
          · apply modHold_stores
            exact h5
          · exact h5
    · apply ite_stores
      · apply chgApply_stores
        apply thmCharge_stores
        apply forAll_stores
        · apply modCap_stores
          apply advanceTo_stores
          exact h_m
        · intro x6 x7 h8
          apply ite_stores
          · apply modHold_stores
            exact h8
          · exact h8
      · apply thmCharge_stores
        apply forAll_stores
        · apply modCap_stores
          apply advanceTo_stores
          exact h_m
        · intro x9 x10 h11
          apply ite_stores
          · apply modHold_stores
            exact h11
          · exact h11
  · apply ite_stores
    · apply chgApply_stores
      apply thmCharge_stores
      apply forAll_stores
      · apply modCap_stores
        apply advanceTo_stores
        exact h_m
      · intro x12 x13 h14
        apply ite_stores
        · apply modHold_stores
          exact h14
        · exact h14
    · apply thmCharge_stores
      apply forAll_stores
      · apply modCap_stores
        apply advanceTo_stores
        exact h_m
      · intro x15 x16 h17
        apply ite_stores
        · apply modHold_stores
          exact h17
        · exact h17
  · apply ite_stores
    · apply chgApply_stores
      apply thmCharge_stores
      apply forAll_stores
      · apply modCap_stores
        apply advanceTo_stores
        exact h_m
      · intro x18 x19 h20
        apply ite_stores
        · apply modHold_stores
          exact h20
        · exact h20
    · apply thmCharge_stores
      apply forAll_stores
      · apply modCap_stores
        apply advanceTo_stores
        exact h_m
      · intro x21 x22 h23
        apply ite_stores
        · apply modHold_stores
          exact h23
        · exact h23
  · exact h_m

theorem execThmCapLift_stores (scope : Nat) (s : State) (h_s : storesWf s.m = true) :
    outStores (execThmCapLift scope s) := by
  unfold execThmCapLift
  apply guardUnit_stores
  · exact h_s
  · apply thmCapLift_stores
    exact h_s

theorem execPulseSkipEntry_stores (conv : Nat) (ma : Nat) (s : State) (h_s : storesWf s.m = true) :
    outStores (execPulseSkipEntry conv ma s) := by
  unfold execPulseSkipEntry
  dsimp only
  apply guardUnit_stores
  · exact h_s
  · apply when_stores
    · exact h_s
    · intro x0 h1
      apply modCv_stores
      exact h1

theorem execPulseSkipExit_stores (conv : Nat) (ma : Nat) (s : State) (h_s : storesWf s.m = true) :
    outStores (execPulseSkipExit conv ma s) := by
  unfold execPulseSkipExit
  dsimp only
  apply guardUnit_stores
  · exact h_s
  · apply when_stores
    · exact h_s
    · intro x0 h1
      apply modCv_stores
      exact h1

theorem sensDrop_stores (m : Mach) (x : Nat) (h_m : storesWf m = true) :
    storesWf (sensDrop m x) = true := by
  unfold sensDrop
  dsimp only
  apply ite_stores
  · exact h_m
  · apply scopeAct_stores
    apply thmLive_stores
    apply modSens_stores
    exact h_m

theorem housekeepingRound_stores (m : Mach) (r : Round) (h_m : storesWf m = true) :
    storesWf (housekeepingRound m r) = true := by
  unfold housekeepingRound
  dsimp only
  apply setLive_stores
  apply forAll_stores
  · split
    · apply windowRead_stores
      apply forAll_stores
      · apply ite_stores
        · apply mk_stores
          apply apDrops_stores
          exact h_m
        · apply imbTrimAdjust_stores
          apply storeTaps_stores
          apply laneEnter_stores
          apply mk_stores
          apply apDrops_stores
          exact h_m
      · intro x0 x1 h2
        apply ite_stores
        · apply thmRead_stores
          exact h2
        · apply sensDrop_stores
          exact h2
    · apply forAll_stores
      · apply ite_stores
        · apply mk_stores
          apply apDrops_stores
          exact h_m
        · apply imbTrimAdjust_stores
          apply storeTaps_stores
          apply laneEnter_stores
          apply mk_stores
          apply apDrops_stores
          exact h_m
      · intro x3 x4 h5
        apply ite_stores
        · apply thmRead_stores
          exact h5
        · apply sensDrop_stores
          exact h5
  · intro x6 x7 h8
    apply windowRead_stores
    exact h8

theorem execHousekeepingRound_stores (round : Round) (s : State) (h_s : storesWf s.m = true) :
    outStores (execHousekeepingRound round s) := by
  unfold execHousekeepingRound
  apply guardRead_stores
  · exact h_s
  · apply when_stores
    · exact h_s
    · intro x0 h1
      apply housekeepingRound_stores
      exact h1

theorem setThmCfg_stores (m : Mach) (p : List Byte) (h_m : storesWf m = true) :
    ansStores (setThmCfg m p) := by
  unfold setThmCfg
  dsimp only
  apply refuseFirst_stores
  simp only [ansStores]
  apply thmLive_stores
  apply forAll_stores
  · apply mk_stores
    exact h_m
  · intro x0 x1 h2
    apply scopeAct_stores
    apply modSens_stores
    exact h2

theorem cmdThmCfg_stores (m : Mach) (w1 : Nat) (p : List Byte) (h_m : storesWf m = true) :
    ansStores (cmdThmCfg m w1 p) := by
  unfold cmdThmCfg
  apply persist_stores
  apply setThmCfg_stores
  exact h_m

theorem execThmCfg_stores (slot : Nat) (s : State) (h_s : storesWf s.m = true) :
    outStores (execThmCfg slot s) := by
  unfold execThmCfg
  apply command_stores
  · intro x0 x1 x2 h3
    apply cmdThmCfg_stores
    exact h3
  · exact h_s

theorem cmdThmGroupsGet_stores (m : Mach) (w1 : Nat) (w2 : List Byte) (h_m : storesWf m = true) :
    ansStores (cmdThmGroupsGet m w1 w2) := by
  unfold cmdThmGroupsGet
  simp only [ansStores]
  exact h_m

theorem execThmGroupsGet_stores (slot : Nat) (s : State) (h_s : storesWf s.m = true) :
    outStores (execThmGroupsGet slot s) := by
  unfold execThmGroupsGet
  apply command_stores
  · intro x0 x1 x2 h3
    apply cmdThmGroupsGet_stores
    exact h3
  · exact h_s

theorem cmdThmSensorGet_stores (m : Mach) (w1 : Nat) (p : List Byte) (h_m : storesWf m = true) :
    ansStores (cmdThmSensorGet m w1 p) := by
  unfold cmdThmSensorGet
  dsimp only
  apply refuseFirst_stores
  simp only [ansStores]
  exact h_m

theorem execThmSensorGet_stores (slot : Nat) (s : State) (h_s : storesWf s.m = true) :
    outStores (execThmSensorGet slot s) := by
  unfold execThmSensorGet
  apply command_stores
  · intro x0 x1 x2 h3
    apply cmdThmSensorGet_stores
    exact h3
  · exact h_s

theorem thmStatWrite_stores (m : Mach) (w : Nat) (h_m : storesWf m = true) :
    storesWf (thmStatWrite m w) = true := by
  unfold thmStatWrite
  dsimp only
  apply mk_stores
  exact h_m

theorem goUnattached_stores (m : Mach) (p : Nat) (h_m : storesWf m = true) :
    storesWf (goUnattached m p) = true := by
  unfold goUnattached
  dsimp only
  apply modPort_stores
  exact h_m

theorem startCheck_stores (m : Mach) (p : Nat) (kind : Nat) (h_m : storesWf m = true) :
    storesWf (startCheck m p kind) = true := by
  unfold startCheck
  apply modPort_stores
  exact h_m

theorem sourceBegin_stores (m : Mach) (p : Nat) (h_m : storesWf m = true) :
    storesWf (sourceBegin m p) = true := by
  unfold sourceBegin
  dsimp only
  apply ite_stores
  · exact h_m
  · apply ite_stores
    · apply passRequest_stores
      apply requestStart_stores
      apply modCv_stores
      apply modPort_stores
      apply modPd_stores
      apply parkPass_stores
      exact h_m
    · apply ite_stores
      · apply passRequest_stores
        apply requestStart_stores
        apply modCv_stores
        apply modPort_stores
        apply modPd_stores
        apply parkPass_stores
        exact h_m
      · apply requestStart_stores
        apply modCv_stores
        apply modPort_stores
        apply modPd_stores
        apply parkPass_stores
        exact h_m

theorem shortReleased_stores (m : Mach) (p : Nat) (h_m : storesWf m = true) :
    storesWf (shortReleased m p) = true := by
  unfold shortReleased
  apply ite_stores
  · apply modBlk_stores
    apply modBlk_stores
    exact h_m
  · exact h_m

theorem sourceAttach_stores (m : Mach) (p : Nat) (h_m : storesWf m = true) :
    storesWf (sourceAttach m p) = true := by
  unfold sourceAttach
  dsimp only
  apply sourceBegin_stores
  apply ite_stores
  · apply mk_stores
    apply modPort_stores
    apply shortReleased_stores
    exact h_m
  · apply modPort_stores
    apply shortReleased_stores
    exact h_m

theorem execAttachedSrc_stores (port : Nat) (s : State) (h_s : storesWf s.m = true) :
    outStores (execAttachedSrc port s) := by
  unfold execAttachedSrc
  dsimp only
  apply guardUnit_stores
  · exact h_s
  · apply when_stores
    · exact h_s
    · intro x0 h1
      apply sourceAttach_stores
      exact h1

theorem loseAttachment_stores (m : Mach) (p : Nat) (abort : Nat) (reason : Nat) (h_m : storesWf m = true) :
    storesWf (loseAttachment m p abort reason) = true := by
  unfold loseAttachment
  dsimp only
  apply modPort_stores
  apply ite_stores
  · apply mk_stores
    apply ite_stores
    · apply endLink_stores
      apply dropPass_stores
      apply closeSession_stores
      apply setLive_stores
      apply modCv_stores
      apply stopRun_stores
      apply abortBy_stores
      exact h_m
    · apply dropPass_stores
      apply closeSession_stores
      apply setLive_stores
      apply modCv_stores
      apply stopRun_stores
      apply abortBy_stores
      exact h_m
  · apply ite_stores
    · apply endLink_stores
      apply dropPass_stores
      apply closeSession_stores
      apply setLive_stores
      apply modCv_stores
      apply stopRun_stores
      apply abortBy_stores
      exact h_m
    · apply dropPass_stores
      apply closeSession_stores
      apply setLive_stores
      apply modCv_stores
      apply stopRun_stores
      apply abortBy_stores
      exact h_m

theorem sourceStop_stores (m : Mach) (p : Nat) (abort : Nat) (reason : Nat) (h_m : storesWf m = true) :
    storesWf (sourceStop m p abort reason) = true := by
  unfold sourceStop
  apply goUnattached_stores
  apply loseAttachment_stores
  exact h_m

theorem sourceDetach_stores (m : Mach) (p : Nat) (h_m : storesWf m = true) :
    storesWf (sourceDetach m p) = true := by
  unfold sourceDetach
  split
  · apply sourceStop_stores
    exact h_m
  · apply goUnattached_stores
    exact h_m
  · apply goUnattached_stores
    exact h_m
  · apply goUnattached_stores
    exact h_m
  · exact h_m

theorem execSourceDetach_stores (port : Nat) (s : State) (h_s : storesWf s.m = true) :
    outStores (execSourceDetach port s) := by
  unfold execSourceDetach
  apply guardUnit_stores
  · exact h_s
  · apply sourceDetach_stores
    exact h_s

theorem rdDetect_stores (m : Mach) (p : Nat) (cc : Nat) (ra : Bool) (h_m : storesWf m = true) :
    storesWf (rdDetect m p cc ra) = true := by
  unfold rdDetect
  dsimp only
  split
  · apply modPort_stores
    exact h_m
  · apply modPort_stores
    exact h_m
  · apply modPort_stores
    exact h_m
  · exact h_m

theorem execRdDetect_stores (port : Nat) (cc : Nat) (ra : Bool) (s : State) (h_s : storesWf s.m = true) :
    outStores (execRdDetect port cc ra s) := by
  unfold execRdDetect
  apply guardUnit_stores
  · exact h_s
  · apply when_stores
    · exact h_s
    · intro x0 h1
      apply rdDetect_stores
      exact h1

theorem sinkAttachDone_stores (m : Mach) (p : Nat) (h_m : storesWf m = true) :
    storesWf (sinkAttachDone m p) = true := by
  unfold sinkAttachDone
  dsimp only
  apply ite_stores
  · apply modPort_stores
    exact h_m
  · apply ite_stores
    · apply modPd_stores
      apply ite_stores
      · apply mk_stores
        apply modPort_stores
        apply shortReleased_stores
        exact h_m
      · apply modPort_stores
        apply shortReleased_stores
        exact h_m
    · apply requestStart_stores
      apply modCv_stores
      apply mk_stores
      apply modPd_stores
      apply ite_stores
      · apply mk_stores
        apply modPort_stores
        apply shortReleased_stores
        exact h_m
      · apply modPort_stores
        apply shortReleased_stores
        exact h_m

theorem sinkAttach_stores (m : Mach) (p : Nat) (cc : Nat) (rp : Nat) (h_m : storesWf m = true) :
    storesWf (sinkAttach m p cc rp) = true := by
  unfold sinkAttach
  split
  · apply startCheck_stores
    apply modPort_stores
    exact h_m
  · apply startCheck_stores
    apply modPort_stores
    exact h_m
  · apply startCheck_stores
    apply modPort_stores
    exact h_m
  · exact h_m

theorem execSinkAttach_stores (port : Nat) (cc : Nat) (rp : Nat) (s : State) (h_s : storesWf s.m = true) :
    outStores (execSinkAttach port cc rp s) := by
  unfold execSinkAttach
  apply guardUnit_stores
  · exact h_s
  · apply when_stores
    · exact h_s
    · intro x0 h1
      apply sinkAttach_stores
      exact h1

theorem ccDebounce_stores (m : Mach) (p : Nat) (h_m : storesWf m = true) :
    storesWf (ccDebounce m p) = true := by
  unfold ccDebounce
  dsimp only
  split
  · apply ite_stores
    · apply modPort_stores
      apply modPort_stores
      exact h_m
    · apply ite_stores
      · apply modPort_stores
        apply modPort_stores
        exact h_m
      · apply startCheck_stores
        apply modPort_stores
        exact h_m
  · apply startCheck_stores
    apply modPort_stores
    exact h_m
  · apply startCheck_stores
    apply modPort_stores
    exact h_m
  · apply ite_stores
    · apply sinkAttachDone_stores
      apply modPort_stores
      apply modPort_stores
      exact h_m
    · apply modPort_stores
      apply modPort_stores
      exact h_m
  · apply ite_stores
    · apply sinkAttachDone_stores
      apply modPort_stores
      apply modPort_stores
      exact h_m
    · apply modPort_stores
      apply modPort_stores
      exact h_m
  · apply ite_stores
    · apply sinkAttachDone_stores
      apply modPort_stores
      apply modPort_stores
      exact h_m
    · apply modPort_stores
      apply modPort_stores
      exact h_m
  · apply modPort_stores
    exact h_m

theorem execCcDebounce_stores (port : Nat) (s : State) (h_s : storesWf s.m = true) :
    outStores (execCcDebounce port s) := by
  unfold execCcDebounce
  apply guardUnit_stores
  · exact h_s
  · apply fire_stores
    · exact h_s
    · intro x0 h1
      apply ccDebounce_stores
      exact h1

theorem sinkStop_stores (m : Mach) (p : Nat) (abort : Nat) (reason : Nat) (h_m : storesWf m = true) :
    storesWf (sinkStop m p abort reason) = true := by
  unfold sinkStop
  dsimp only
  apply goUnattached_stores
  apply ladderApply_stores
  apply rankRecompute_stores
  apply ite_stores
  · apply mk_stores
    apply modPort_stores
    apply modCv_stores
    apply loseAttachment_stores
    exact h_m
  · apply mk_stores
    apply modPort_stores
    apply modCv_stores
    apply loseAttachment_stores
    exact h_m

theorem sinkDetach_stores (m : Mach) (p : Nat) (vbs : Nat) (rpAbsent : Bool) (h_m : storesWf m = true) :
    storesWf (sinkDetach m p vbs rpAbsent) = true := by
  unfold sinkDetach
  dsimp only
  split
  · apply ite_stores
    · apply sinkStop_stores
      apply modPort_stores
      exact h_m
    · apply modPort_stores
      exact h_m
  · apply ite_stores
    · apply goUnattached_stores
      apply modPort_stores
      exact h_m
    · apply modPort_stores
      exact h_m
  · apply ite_stores
    · apply goUnattached_stores
      apply modPort_stores
      exact h_m
    · apply modPort_stores
      exact h_m
  · apply ite_stores
    · apply goUnattached_stores
      apply modPort_stores
      exact h_m
    · apply modPort_stores
      exact h_m
  · apply modPort_stores
    exact h_m

theorem execSinkDetach_stores (port : Nat) (vbsMv : Nat) (rpAbsent : Bool) (s : State) (h_s : storesWf s.m = true) :
    outStores (execSinkDetach port vbsMv rpAbsent s) := by
  unfold execSinkDetach
  apply guardRead_stores
  · exact h_s
  · apply sinkDetach_stores
    exact h_s

theorem drpToggle_stores (m : Mach) (p : Nat) (h_m : storesWf m = true) :
    storesWf (drpToggle m p) = true := by
  unfold drpToggle
  dsimp only
  apply ite_stores
  · apply modPort_stores
    exact h_m
  · apply modPort_stores
    exact h_m

theorem execDrpToggle_stores (port : Nat) (s : State) (h_s : storesWf s.m = true) :
    outStores (execDrpToggle port s) := by
  unfold execDrpToggle
  apply guardUnit_stores
  · exact h_s
  · apply fire_stores
    · exact h_s
    · intro x0 h1
      apply drpToggle_stores
      exact h1

theorem tryTimeout_stores (m : Mach) (p : Nat) (h_m : storesWf m = true) :
    storesWf (tryTimeout m p) = true := by
  unfold tryTimeout
  dsimp only
  split
  · apply modPort_stores
    apply modPort_stores
    exact h_m
  · apply modPort_stores
    apply modPort_stores
    exact h_m
  · apply goUnattached_stores
    apply modPort_stores
    exact h_m
  · apply goUnattached_stores
    apply modPort_stores
    exact h_m
  · apply modPort_stores
    exact h_m

theorem execTryTimeout_stores (port : Nat) (s : State) (h_s : storesWf s.m = true) :
    outStores (execTryTimeout port s) := by
  unfold execTryTimeout
  apply guardUnit_stores
  · exact h_s
  · apply fire_stores
    · exact h_s
    · intro x0 h1
      apply tryTimeout_stores
      exact h1

theorem errorRecovery_stores (m : Mach) (p : Nat) (h_m : storesWf m = true) :
    storesWf (errorRecovery m p) = true := by
  unfold errorRecovery
  apply modPort_stores
  exact h_m

theorem execErrorRecoveryEnd_stores (port : Nat) (s : State) (h_s : storesWf s.m = true) :
    outStores (execErrorRecoveryEnd port s) := by
  unfold execErrorRecoveryEnd
  apply guardUnit_stores
  · exact h_s
  · apply fire_stores
    · exact h_s
    · intro x0 h1
      apply goUnattached_stores
      exact h1

theorem accessoryDetect_stores (m : Mach) (p : Nat) (present : Bool) (h_m : storesWf m = true) :
    storesWf (accessoryDetect m p present) = true := by
  unfold accessoryDetect
  dsimp only
  apply ite_stores
  · exact h_m
  · apply setLive_stores
    apply modPort_stores
    apply ite_stores
    · apply note_stores
      exact h_m
    · exact h_m

theorem execAccessoryDetect_stores (port : Nat) (present : Bool) (s : State) (h_s : storesWf s.m = true) :
    outStores (execAccessoryDetect port present s) := by
  unfold execAccessoryDetect
  apply guardUnit_stores
  · exact h_s
  · apply accessoryDetect_stores
    exact h_s

theorem recordCheck_stores (m : Mach) (p : Nat) (pins : List PinMeas) (h_m : storesWf m = true) :
    storesWf (recordCheck m p pins) = true := by
  unfold recordCheck
  dsimp only
  apply ite_stores
  · apply setLive_stores
    apply setLive_stores
    apply setLive_stores
    split
    · apply modPort_stores
      exact h_m
    · apply note_stores
      apply modPort_stores
      exact h_m
    · apply note_stores
      apply modPort_stores
      exact h_m
    · apply note_stores
      apply modPort_stores
      exact h_m
  · apply forAll_stores
    · apply mk_stores
      apply setLive_stores
      apply setLive_stores
      apply setLive_stores
      split
      · apply modPort_stores
        exact h_m
      · apply note_stores
        apply modPort_stores
        exact h_m
      · apply note_stores
        apply modPort_stores
        exact h_m
      · apply note_stores
        apply modPort_stores
        exact h_m
    · intro x0 x1 h2
      apply modPort_stores
      exact h2

theorem checkEffect_stores (m : Mach) (p : Nat) (kind : Nat) (h_m : storesWf m = true) :
    storesWf (checkEffect m p kind) = true := by
  unfold checkEffect
  dsimp only
  apply ite_stores
  · apply ite_stores
    · apply ite_stores
      · apply endLink_stores
        exact h_m
      · exact h_m
    · apply ite_stores
      · apply modPort_stores
        apply ite_stores
        · apply endLink_stores
          exact h_m
        · exact h_m
      · apply ite_stores
        · apply goUnattached_stores
          apply ite_stores
          · apply endLink_stores
            exact h_m
          · exact h_m
        · apply ite_stores
          · apply endLink_stores
            exact h_m
          · exact h_m
  · apply ite_stores
    · apply modPort_stores
      apply ite_stores
      · apply endLink_stores
        exact h_m
      · exact h_m
    · apply ite_stores
      · apply sinkAttachDone_stores
        apply modPort_stores
        apply ite_stores
        · apply endLink_stores
          exact h_m
        · exact h_m
      · apply modPort_stores
        apply ite_stores
        · apply endLink_stores
          exact h_m
        · exact h_m

theorem moistClear_stores (m : Mach) (p : Nat) (h_m : storesWf m = true) :
    storesWf (moistClear m p) = true := by
  unfold moistClear
  dsimp only
  apply ite_stores
  · apply startCheck_stores
    apply modPort_stores
    exact h_m
  · apply modPort_stores
    exact h_m

theorem moistureCheckDone_stores (m : Mach) (p : Nat) (pins : List PinMeas) (h_m : storesWf m = true) :
    storesWf (moistureCheckDone m p pins) = true := by
  unfold moistureCheckDone
  dsimp only
  apply ite_stores
  · apply moistClear_stores
    apply checkEffect_stores
    apply recordCheck_stores
    exact h_m
  · apply checkEffect_stores
    apply recordCheck_stores
    exact h_m

theorem execMoistureCheckDone_stores (port : Nat) (pins : List PinMeas) (s : State) (h_s : storesWf s.m = true) :
    outStores (execMoistureCheckDone port pins s) := by
  unfold execMoistureCheckDone
  apply guardUnit_stores
  · exact h_s
  · apply fire_stores
    · exact h_s
    · intro x0 h1
      apply moistureCheckDone_stores
      exact h1

theorem execMoistureCheck_stores (port : Nat) (s : State) (h_s : storesWf s.m = true) :
    outStores (execMoistureCheck port s) := by
  unfold execMoistureCheck
  dsimp only
  apply guardUnit_stores
  · exact h_s
  · apply when_stores
    · exact h_s
    · intro x0 h1
      apply fire_stores
      · exact h1
      · intro x2 h3
        apply startCheck_stores
        exact h3

theorem cmdPrtMoistClear_stores (m : Mach) (s : Nat) (p : List Byte) (h_m : storesWf m = true) :
    ansStores (cmdPrtMoistClear m s p) := by
  unfold cmdPrtMoistClear
  dsimp only
  apply refuseFirst_stores
  simp only [ansStores]
  apply forAll_stores
  · exact h_m
  · intro x0 x1 h2
    apply ite_stores
    · exact h2
    · apply ite_stores
      · apply modPort_stores
        exact h2
      · apply moistClear_stores
        exact h2

theorem execPrtMoistClear_stores (slot : Nat) (s : State) (h_s : storesWf s.m = true) :
    outStores (execPrtMoistClear slot s) := by
  unfold execPrtMoistClear
  apply command_stores
  · intro x0 x1 x2 h3
    apply cmdPrtMoistClear_stores
    exact h3
  · exact h_s

theorem cmdPrtMoistGet_stores (m : Mach) (w1 : Nat) (p : List Byte) (h_m : storesWf m = true) :
    ansStores (cmdPrtMoistGet m w1 p) := by
  unfold cmdPrtMoistGet
  dsimp only
  apply refuseFirst_stores
  simp only [ansStores]
  exact h_m

theorem execPrtMoistGet_stores (slot : Nat) (s : State) (h_s : storesWf s.m = true) :
    outStores (execPrtMoistGet slot s) := by
  unfold execPrtMoistGet
  apply command_stores
  · intro x0 x1 x2 h3
    apply cmdPrtMoistGet_stores
    exact h3
  · exact h_s

theorem washPort_stores (m : Mach) (p : Nat) (h_m : storesWf m = true) :
    storesWf (washPort m p) = true := by
  unfold washPort
  dsimp only
  apply ite_stores
  · exact h_m
  · apply ite_stores
    · apply modBay_stores
      apply stopRun_stores
      exact h_m
    · apply goUnattached_stores
      split
      · apply sourceStop_stores
        exact h_m
      · apply sinkStop_stores
        exact h_m
      · exact h_m

theorem washEnter_stores (m : Mach) (h_m : storesWf m = true) :
    storesWf (washEnter m) = true := by
  unfold washEnter
  dsimp only
  apply forAll_stores
  · apply ite_stores
    · apply endLink_stores
      apply mk_stores
      exact h_m
    · apply mk_stores
      exact h_m
  · intro x0 x1 h2
    apply washPort_stores
    exact h2

theorem washLeave_stores (m : Mach) (auto : Bool) (h_m : storesWf m = true) :
    storesWf (washLeave m auto) = true := by
  unfold washLeave
  dsimp only
  apply forAll_stores
  · apply mk_stores
    exact h_m
  · intro x0 x1 h2
    apply ite_stores
    · apply goUnattached_stores
      exact h2
    · apply ite_stores
      · apply chgApply_stores
        apply modBay_stores
        exact h2
      · apply ite_stores
        · apply requestStart_stores
          exact h2
        · exact h2

theorem cmdPrtWashdown_stores (m : Mach) (w1 : Nat) (p : List Byte) (h_m : storesWf m = true) :
    ansStores (cmdPrtWashdown m w1 p) := by
  unfold cmdPrtWashdown
  dsimp only
  apply refuseFirst_stores
  simp only [ansStores]
  apply ite_stores
  · apply washEnter_stores
    exact h_m
  · apply washLeave_stores
    exact h_m

theorem execPrtWashdown_stores (slot : Nat) (s : State) (h_s : storesWf s.m = true) :
    outStores (execPrtWashdown slot s) := by
  unfold execPrtWashdown
  apply command_stores
  · intro x0 x1 x2 h3
    apply cmdPrtWashdown_stores
    exact h3
  · exact h_s

theorem execWashdownAutoExit_stores (s : State) (h_s : storesWf s.m = true) :
    outStores (execWashdownAutoExit s) := by
  unfold execWashdownAutoExit
  apply next_stores
  apply when_stores
  · exact h_s
  · intro x0 h1
    apply washLeave_stores
    apply advanceTo_stores
    exact h1

theorem washStatWrite_stores (m : Mach) (w : Nat) (h_m : storesWf m = true) :
    storesWf (washStatWrite m w) = true := by
  unfold washStatWrite
  dsimp only
  apply ite_stores
  · apply mk_stores
    exact h_m
  · exact h_m

theorem ccOvervoltage_stores (m : Mach) (p : Nat) (pin : Nat) (mv : Nat) (h_m : storesWf m = true) :
    storesWf (ccOvervoltage m p pin mv) = true := by
  unfold ccOvervoltage
  dsimp only
  apply ite_stores
  · exact h_m
  · split
    · apply sourceStop_stores
      apply note_stores
      apply modPort_stores
      exact h_m
    · apply sinkStop_stores
      apply note_stores
      apply modPort_stores
      exact h_m
    · apply modCv_stores
      apply stopRun_stores
      apply note_stores
      apply modPort_stores
      exact h_m
    · apply note_stores
      apply modPort_stores
      exact h_m
    · apply note_stores
      apply modPort_stores
      exact h_m
    · apply note_stores
      apply modPort_stores
      exact h_m
    · apply goUnattached_stores
      apply note_stores
      apply modPort_stores
      exact h_m

theorem execCcOvervoltage_stores (port : Nat) (pin : Nat) (mv : Nat) (s : State) (h_s : storesWf s.m = true) :
    outStores (execCcOvervoltage port pin mv s) := by
  unfold execCcOvervoltage
  apply guardRead_stores
  · exact h_s
  · apply ccOvervoltage_stores
    exact h_s

theorem execCcPinReconnect_stores (port : Nat) (pin : Nat) (mv : Nat) (s : State) (h_s : storesWf s.m = true) :
    outStores (execCcPinReconnect port pin mv s) := by
  unfold execCcPinReconnect
  apply guardRead_stores
  · exact h_s
  · apply when_stores
    · exact h_s
    · intro x0 h1
      apply modPort_stores
      exact h1

theorem cmdPrtStatGet_stores (m : Mach) (w1 : Nat) (p : List Byte) (h_m : storesWf m = true) :
    ansStores (cmdPrtStatGet m w1 p) := by
  unfold cmdPrtStatGet
  dsimp only
  apply refuseFirst_stores
  simp only [ansStores]
  exact h_m

theorem execPrtStatGet_stores (slot : Nat) (s : State) (h_s : storesWf s.m = true) :
    outStores (execPrtStatGet slot s) := by
  unfold execPrtStatGet
  apply command_stores
  · intro x0 x1 x2 h3
    apply cmdPrtStatGet_stores
    exact h3
  · exact h_s

theorem drSwapOut_stores (m : Mach) (p : Nat) (toUfp : Bool) (h_m : storesWf m = true) :
    storesWf (drSwapOut m p toUfp) = true := by
  unfold drSwapOut
  dsimp only
  apply ite_stores
  · exact h_m
  · apply ite_stores
    · apply modPd_stores
      exact h_m
    · apply modPd_stores
      exact h_m

theorem stavskaKick_stores (m : Mach) (p : Nat) (h_m : storesWf m = true) :
    storesWf (stavskaKick m p) = true := by
  unfold stavskaKick
  dsimp only
  apply ite_stores
  · apply drSwapOut_stores
    apply mk_stores
    exact h_m
  · exact h_m

theorem stavskaEnd_stores (m : Mach) (reason : Nat) (h_m : storesWf m = true) :
    storesWf (stavskaEnd m reason) = true := by
  unfold stavskaEnd
  dsimp only
  apply ite_stores
  · apply dcpEval_stores
    apply ite_stores
    · apply drSwapOut_stores
      apply endLink_stores
      exact h_m
    · apply endLink_stores
      exact h_m
  · apply endLink_stores
    exact h_m

theorem arm_stores (m : Mach) (p : Nat) (h_m : storesWf m = true) :
    storesWf (arm m p) = true := by
  unfold arm
  dsimp only
  apply stavskaKick_stores
  apply mk_stores
  exact h_m

theorem execArmExpire_stores (s : State) (h_s : storesWf s.m = true) :
    outStores (execArmExpire s) := by
  unfold execArmExpire
  dsimp only
  apply guardUnit_stores
  · exact h_s
  · apply fire_stores
    · exact h_s
    · intro x0 h1
      apply mk_stores
      exact h1

theorem report_stores (m : Mach) (p : Nat) (gesture : Nat) (timeMs : Nat) (armed : Bool) (h_m : storesWf m = true) :
    storesWf (report m p gesture timeMs armed) = true := by
  unfold report
  dsimp only
  apply mk_stores
  exact h_m

theorem closeWindow_stores (m : Mach) (p : Nat) (h_m : storesWf m = true) :
    storesWf (closeWindow m p) = true := by
  unfold closeWindow
  dsimp only
  apply modKey_stores
  apply foldl_stores
  · exact h_m
  · intro x0 x1 h2
    apply report_stores
    exact h2

theorem tap_stores (m : Mach) (p : Nat) (h_m : storesWf m = true) :
    storesWf (tap m p) = true := by
  unfold tap
  dsimp only
  apply ite_stores
  · apply report_stores
    exact h_m
  · apply ite_stores
    · apply modKey_stores
      exact h_m
    · apply ite_stores
      · apply report_stores
        apply modKey_stores
        exact h_m
      · apply report_stores
        apply arm_stores
        apply modKey_stores
        exact h_m

theorem releaseKey_stores (m : Mach) (p : Nat) (h_m : storesWf m = true) :
    storesWf (releaseKey m p) = true := by
  unfold releaseKey
  dsimp only
  apply ite_stores
  · apply modKey_stores
    exact h_m
  · apply ite_stores
    · apply tap_stores
      apply modKey_stores
      exact h_m
    · apply ite_stores
      · apply modKey_stores
        apply report_stores
        apply modKey_stores
        exact h_m
      · apply report_stores
        apply modKey_stores
        exact h_m

theorem keyStep_stores (m : Mach) (n : Nat) (p : Nat) (cap : Nat) (h_m : storesWf m = true) :
    storesWf (keyStep m n p cap) = true := by
  unfold keyStep
  dsimp only
  apply ite_stores
  · exact h_m
  · apply ite_stores
    · apply modKey_stores
      exact h_m
    · apply ite_stores
      · apply ite_stores
        · apply releaseKey_stores
          exact h_m
        · apply modKey_stores
          exact h_m
      · apply ite_stores
        · exact h_m
        · apply ite_stores
          · apply modKey_stores
            apply modKey_stores
            exact h_m
          · apply modKey_stores
            apply modKey_stores
            exact h_m

theorem waterCheck_stores (m : Mach) (die : Nat) (h_m : storesWf m = true) :
    storesWf (waterCheck m die) = true := by
  unfold waterCheck
  dsimp only
  apply ite_stores
  · exact h_m
  · apply forAll_stores
    · exact h_m
    · intro x0 x1 h2
      apply report_stores
      apply modKey_stores
      exact h2

theorem toFrame_stores (m : Mach) (h_m : storesWf m = true) :
    storesWf (toFrame m) = true := by
  unfold toFrame
  split
  · apply advanceTo_stores
    exact h_m
  · exact h_m

theorem uiFrame_stores (m : Mach) (caps : List Nat) (h_m : storesWf m = true) :
    storesWf (uiFrame m caps) = true := by
  unfold uiFrame
  dsimp only
  apply ite_stores
  · apply mk_stores
    apply toFrame_stores
    exact h_m
  · apply waterCheck_stores
    apply waterCheck_stores
    apply foldl_stores
    · apply mk_stores
      apply toFrame_stores
      exact h_m
    · intro x0 x1 h2
      apply keyStep_stores
      exact h2

theorem execUiFrame_stores (caps : List Nat) (s : State) (h_s : storesWf s.m = true) :
    outStores (execUiFrame caps s) := by
  unfold execUiFrame
  apply guardRead_stores
  · exact h_s
  · apply when_stores
    · exact h_s
    · intro x0 h1
      apply uiFrame_stores
      exact h1

theorem execHoldReached_stores (port : Nat) (s : State) (h_s : storesWf s.m = true) :
    outStores (execHoldReached port s) := by
  unfold execHoldReached
  dsimp only
  apply guardUnit_stores
  · exact h_s
  · apply when_stores
    · exact h_s
    · intro x0 h1
      apply fire_stores
      · exact h1
      · intro x2 h3
        apply report_stores
        apply modKey_stores
        apply closeWindow_stores
        exact h3

theorem execLongHoldReached_stores (port : Nat) (s : State) (h_s : storesWf s.m = true) :
    outStores (execLongHoldReached port s) := by
  unfold execLongHoldReached
  apply guardUnit_stores
  · exact h_s
  · apply when_stores
    · exact h_s
    · intro x0 h1
      apply fire_stores
      · exact h1
      · intro x2 h3
        apply report_stores
        apply modKey_stores
        exact h3

theorem execStuck_stores (port : Nat) (s : State) (h_s : storesWf s.m = true) :
    outStores (execStuck port s) := by
  unfold execStuck
  apply guardUnit_stores
  · exact h_s
  · apply when_stores
    · exact h_s
    · intro x0 h1
      apply fire_stores
      · exact h1
      · intro x2 h3
        apply modKey_stores
        apply releaseKey_stores
        apply report_stores
        exact h3

theorem execServiceWindowEnd_stores (port : Nat) (s : State) (h_s : storesWf s.m = true) :
    outStores (execServiceWindowEnd port s) := by
  unfold execServiceWindowEnd
  apply guardUnit_stores
  · exact h_s
  · apply fire_stores
    · exact h_s
    · intro x0 h1
      apply closeWindow_stores
      exact h1

theorem execBaselineReseed_stores (port : Nat) (cap : Nat) (s : State) (h_s : storesWf s.m = true) :
    outStores (execBaselineReseed port cap s) := by
  unfold execBaselineReseed
  apply guardRead_stores
  · exact h_s
  · apply when_stores
    · exact h_s
    · intro x0 h1
      apply modKey_stores
      exact h1

theorem cmdPrtUiCfg_stores (m : Mach) (w1 : Nat) (p : List Byte) (h_m : storesWf m = true) :
    ansStores (cmdPrtUiCfg m w1 p) := by
  unfold cmdPrtUiCfg
  dsimp only
  apply refuseFirst_stores
  simp only [ansStores]
  apply forAll_stores
  · exact h_m
  · intro x0 x1 h2
    apply modKey_stores
    exact h2

theorem execPrtUiCfg_stores (slot : Nat) (s : State) (h_s : storesWf s.m = true) :
    outStores (execPrtUiCfg slot s) := by
  unfold execPrtUiCfg
  apply command_stores
  · intro x0 x1 x2 h3
    apply cmdPrtUiCfg_stores
    exact h3
  · exact h_s

theorem cmdPrtUiEventGet_stores (m : Mach) (w1 : Nat) (w2 : List Byte) (h_m : storesWf m = true) :
    ansStores (cmdPrtUiEventGet m w1 w2) := by
  unfold cmdPrtUiEventGet
  dsimp only
  simp only [ansStores]
  apply mk_stores
  exact h_m

theorem execPrtUiEventGet_stores (slot : Nat) (s : State) (h_s : storesWf s.m = true) :
    outStores (execPrtUiEventGet slot s) := by
  unfold execPrtUiEventGet
  apply command_stores
  · intro x0 x1 x2 h3
    apply cmdPrtUiEventGet_stores
    exact h3
  · exact h_s

theorem cmdPrtLedSet_stores (m : Mach) (w1 : Nat) (p : List Byte) (h_m : storesWf m = true) :
    ansStores (cmdPrtLedSet m w1 p) := by
  unfold cmdPrtLedSet
  dsimp only
  apply refuseFirst_stores
  simp only [ansStores]
  apply modKey_stores
  exact h_m

theorem execPrtLedSet_stores (slot : Nat) (s : State) (h_s : storesWf s.m = true) :
    outStores (execPrtLedSet slot s) := by
  unfold execPrtLedSet
  apply command_stores
  · intro x0 x1 x2 h3
    apply cmdPrtLedSet_stores
    exact h3
  · exact h_s

theorem rpAvoid_stores (m : Mach) (p : Nat) (h_m : storesWf m = true) :
    storesWf (rpAvoid m p) = true := by
  unfold rpAvoid
  dsimp only
  apply ite_stores
  · apply modPort_stores
    exact h_m
  · exact h_m

theorem pdRow_stores (port : Nat) (s : State) (f : Mach → Mach) (h_s : storesWf s.m = true) (h_f : ∀ m, storesWf m = true → storesWf (f m ) = true) :
    outStores (pdRow port s f) := by
  unfold pdRow
  exact guardUnit_stores _ _ _ h_s (when_stores _ _ _ h_s fun m h => dcpEval_stores _ _ (rpAvoid_stores _ _ (h_f m h)))

theorem holdRx_stores (m : Mach) (p : Nat) (i : PdRx) (h_m : storesWf m = true) :
    storesWf (holdRx m p i) = true := by
  unfold holdRx
  apply modPd_stores
  exact h_m

theorem eccDiscard_stores (m : Mach) (core : Nat) (h_m : storesWf m = true) :
    storesWf (eccDiscard m core) = true := by
  unfold eccDiscard
  dsimp only
  apply note_stores
  apply mkMbx_stores
  · exact h_m
  · refine mbxWf_of ?_ ?_
    · dsimp only
      apply mem_of_mbx
      apply mbx_of_stores
      exact h_m
    · dsimp only
      apply ring_of_mbx
      apply mbx_of_stores
      exact h_m

theorem rxRow_stores (i : PdRx) (port : Nat) (s : State) (f : Mach → Mach) (h_s : storesWf s.m = true) (h_f : ∀ m, storesWf m = true → storesWf (f m ) = true) :
    outStores (rxRow i port s f) := by
  unfold rxRow
  refine pdRow_stores _ _ _ h_s fun m h => ?_
  split
  · exact h
  · split
    · exact eccDiscard_stores _ _ h
    · split
      · exact h
      · exact h_f m h

theorem rxd_stores (m : Mach) (p : Nat) (h_m : storesWf m = true) :
    storesWf (rxd m p) = true := by
  unfold rxd
  apply modPd_stores
  exact h_m

theorem sendCaps_stores (m : Mach) (p : Nat) (ceil : Option Nat) (h_m : storesWf m = true) :
    storesWf (sendCaps m p ceil) = true := by
  unfold sendCaps
  dsimp only
  apply modPd_stores
  split
  · apply closeEntry_stores
    exact h_m
  · exact h_m

theorem sinkHard_stores (m : Mach) (p : Nat) (h_m : storesWf m = true) :
    storesWf (sinkHard m p) = true := by
  unfold sinkHard
  dsimp only
  apply modPd_stores
  apply modPort_stores
  apply stopRun_stores
  apply closeSession_closeOutcomes_stores
  exact h_m

theorem sinkSignal_stores (m : Mach) (p : Nat) (h_m : storesWf m = true) :
    storesWf (sinkSignal m p) = true := by
  unfold sinkSignal
  apply modPd_stores
  apply sinkHard_stores
  exact h_m

theorem hardSend_stores (m : Mach) (p : Nat) (h_m : storesWf m = true) :
    storesWf (hardSend m p) = true := by
  unfold hardSend
  dsimp only
  apply ite_stores
  · apply ite_stores
    · apply errorRecovery_stores
      apply modCv_stores
      apply loseAttachment_stores
      exact h_m
    · apply sinkSignal_stores
      exact h_m
  · apply ite_stores
    · apply modPd_stores
      apply closeSession_closeOutcomes_stores
      exact h_m
    · apply hardSignal_stores
      exact h_m

theorem pdTimeout_stores (m : Mach) (p : Nat) (f : Mach → Mach) (h_m : storesWf m = true) (h_f : ∀ m, storesWf m = true → storesWf (f m ) = true) :
    storesWf (pdTimeout m p f) = true := by
  unfold pdTimeout
  split
  · apply consequential_stores
    exact h_m
  · apply h_f
    exact h_m

theorem hardRx_stores (m : Mach) (p : Nat) (h_m : storesWf m = true) :
    storesWf (hardRx m p) = true := by
  unfold hardRx
  apply modPd_stores
  apply hardResetOut_stores
  exact h_m

theorem execPdHardReset_stores (port : Nat) (sent : Bool) (s : State) (h_s : storesWf s.m = true) :
    outStores (execPdHardReset port sent s) := by
  unfold execPdHardReset
  apply guardUnit_stores
  · exact h_s
  · apply when_stores
    · exact h_s
    · intro x0 h1
      apply ite_stores
      · apply hardSend_stores
        exact h1
      · apply ite_stores
        · apply holdRx_stores
          exact h1
        · apply hardRx_stores
          exact h1

theorem execHardResetStop_stores (port : Nat) (s : State) (h_s : storesWf s.m = true) :
    outStores (execHardResetStop port s) := by
  unfold execHardResetStop
  dsimp only
  apply guardUnit_stores
  · exact h_s
  · apply fire_stores
    · exact h_s
    · intro x0 h1
      apply modPd_stores
      apply modPort_stores
      apply stopRun_stores
      exact h1

theorem execSrcRecover_stores (port : Nat) (s : State) (h_s : storesWf s.m = true) :
    outStores (execSrcRecover port s) := by
  unfold execSrcRecover
  dsimp only
  apply guardUnit_stores
  · exact h_s
  · apply fire_stores
    · exact h_s
    · intro x0 h1
      apply ite_stores
      · apply mk_stores
        apply modPd_stores
        exact h1
      · apply requestStart_stores
        apply modPd_stores
        apply modPort_stores
        split
        · apply modPd_stores
          apply closeEntry_stores
          apply modPd_stores
          exact h1
        · apply modPd_stores
          exact h1

theorem derateEnd_stores (m : Mach) (p : Nat) (req : Mach → Nat → Mach) (h_m : storesWf m = true) (h_req : ∀ m i0, storesWf m = true → storesWf (req m i0) = true) :
    storesWf (derateEnd m p req) = true := by
  unfold derateEnd
  dsimp only
  apply ite_stores
  · apply h_req
    apply modProt_stores
    exact h_m
  · apply ite_stores
    · apply hardSend_stores
      apply modProt_stores
      exact h_m
    · apply modProt_stores
      exact h_m

theorem acceptReq_stores (m : Mach) (p : Nat) (r : PdReq) (h_m : storesWf m = true) :
    storesWf (acceptReq m p r) = true := by
  unfold acceptReq
  apply modPd_stores
  exact h_m

theorem rejectReq_stores (m : Mach) (p : Nat) (h_m : storesWf m = true) :
    storesWf (rejectReq m p) = true := by
  unfold rejectReq
  apply modPd_stores
  exact h_m

theorem pdRequestRx_stores (m : Mach) (p : Nat) (r : PdReq) (h_m : storesWf m = true) :
    storesWf (pdRequestRx m p r) = true := by
  unfold pdRequestRx
  dsimp only
  apply ite_stores
  · apply rxd_stores
    exact h_m
  · apply ite_stores
    · apply hardSend_stores
      apply rxd_stores
      exact h_m
    · apply ite_stores
      · apply rxd_stores
        exact h_m
      · split
        · apply rejectReq_stores
          apply modPd_stores
          apply rxd_stores
          exact h_m
        · apply ite_stores
          · apply rejectReq_stores
            apply modPd_stores
            apply rxd_stores
            exact h_m
          · apply passRequest_stores
            apply modPd_stores
            apply modPd_stores
            apply rxd_stores
            exact h_m

theorem execPdRequestRx_stores (port : Nat) (req : PdReq) (s : State) (h_s : storesWf s.m = true) :
    outStores (execPdRequestRx port req s) := by
  unfold execPdRequestRx
  apply rxRow_stores
  · exact h_s
  · intro x0 h1
    apply pdRequestRx_stores
    exact h1

theorem discover_stores (m : Mach) (p : Nat) (h_m : storesWf m = true) :
    storesWf (discover m p) = true := by
  unfold discover
  dsimp only
  apply ite_stores
  · apply modPd_stores
    exact h_m
  · exact h_m

theorem leaveEpr_stores (m : Mach) (p : Nat) (h_m : storesWf m = true) :
    storesWf (leaveEpr m p) = true := by
  unfold leaveEpr
  dsimp only
  apply ite_stores
  · apply sendCaps_stores
    apply modPd_stores
    exact h_m
  · exact h_m

theorem psRdy_stores (m : Mach) (p : Nat) (h_m : storesWf m = true) :
    storesWf (psRdy m p) = true := by
  unfold psRdy
  dsimp only
  split
  · exact h_m
  · apply ite_stores
    · apply sendCaps_stores
      apply stavskaKick_stores
      apply leaveEpr_stores
      apply discover_stores
      apply modProt_stores
      apply modHold_stores
      apply modPd_stores
      exact h_m
    · apply stavskaKick_stores
      apply leaveEpr_stores
      apply discover_stores
      apply modProt_stores
      apply modHold_stores
      apply modPd_stores
      exact h_m

theorem srcTransitionStart_stores (m : Mach) (p : Nat) (h_m : storesWf m = true) :
    storesWf (srcTransitionStart m p) = true := by
  unfold srcTransitionStart
  dsimp only
  split
  · exact h_m
  · apply ite_stores
    · apply psRdy_stores
      apply modPd_stores
      apply setRef_stores
      apply setRef_stores
      exact h_m
    · apply modPd_stores
      apply setRef_stores
      apply setRef_stores
      exact h_m

theorem execSrcTransitionStart_stores (port : Nat) (s : State) (h_s : storesWf s.m = true) :
    outStores (execSrcTransitionStart port s) := by
  unfold execSrcTransitionStart
  apply pdRow_stores
  · exact h_s
  · intro x0 h1
    apply when_stores
    · exact h1
    · intro x2 h3
      apply fire_stores
      · exact h3
      · intro x4 h5
        apply srcTransitionStart_stores
        exact h5

theorem execTransitionSettled_stores (port : Nat) (vcsMv : Nat) (s : State) (h_s : storesWf s.m = true) :
    outStores (execTransitionSettled port vcsMv s) := by
  unfold execTransitionSettled
  dsimp only
  apply guardRead_stores
  · exact h_s
  · apply when_stores
    · exact h_s
    · intro x0 h1
      apply dcpEval_stores
      apply rpAvoid_stores
      apply psRdy_stores
      exact h1

theorem execSendSourceCap_stores (port : Nat) (s : State) (h_s : storesWf s.m = true) :
    outStores (execSendSourceCap port s) := by
  unfold execSendSourceCap
  dsimp only
  apply pdRow_stores
  · exact h_s
  · intro x0 h1
    apply when_stores
    · exact h1
    · intro x2 h3
      apply fire_stores
      · exact h3
      · intro x4 h5
        apply ite_stores
        · apply modPd_stores
          exact h5
        · apply sendCaps_stores
          apply modPd_stores
          apply modPort_stores
          exact h5

theorem execPpsUndervoltage_stores (port : Nat) (vcsMv : Nat) (s : State) (h_s : storesWf s.m = true) :
    outStores (execPpsUndervoltage port vcsMv s) := by
  unfold execPpsUndervoltage
  dsimp only
  apply guardRead_stores
  · exact h_s
  · apply when_stores
    · exact h_s
    · intro x0 h1
      apply hardSend_stores
      exact h1

theorem portGrant_stores (m : Mach) (p : Nat) (answers : Bool) (h_m : storesWf m = true) :
    storesWf (portGrant m p answers) = true := by
  unfold portGrant
  dsimp only
  split
  · apply ite_stores
    · apply modPd_stores
      exact h_m
    · apply ite_stores
      · apply acceptReq_stores
        apply modPd_stores
        exact h_m
      · apply sendCaps_stores
        apply rejectReq_stores
        apply modPd_stores
        exact h_m
  · apply ite_stores
    · apply ite_stores
      · apply modPd_stores
        apply ite_stores
        · apply pdTell_stores
          apply modPd_stores
          exact h_m
        · apply modPd_stores
          exact h_m
      · apply sendCaps_stores
        apply ite_stores
        · apply pdTell_stores
          apply modPd_stores
          exact h_m
        · apply modPd_stores
          exact h_m
    · apply typeCSettle_stores
      apply ite_stores
      · apply passRequest_stores
        apply modHold_stores
        apply modPd_stores
        exact h_m
      · apply modHold_stores
        apply modPd_stores
        exact h_m

theorem grantDelivery_stores (m : Mach) (h : Nat) (h_m : storesWf m = true) :
    storesWf (grantDelivery m h) = true := by
  unfold grantDelivery
  dsimp only
  apply ite_stores
  · exact h_m
  · apply ite_stores
    · apply chgApply_stores
      apply modHold_stores
      exact h_m
    · apply ite_stores
      · apply auxGrant_stores
        apply modHold_stores
        exact h_m
      · apply ite_stores
        · apply ite_stores
          · apply ite_stores
            · apply setRef_stores
              apply modHold_stores
              exact h_m
            · apply ite_stores
              · apply requestStart_stores
                apply modHold_stores
                exact h_m
              · apply modHold_stores
                exact h_m
          · apply chgApply_stores
            apply modHold_stores
            exact h_m
        · apply ite_stores
          · apply rpAvoid_stores
            apply dcpEval_stores
            apply portGrant_stores
            apply modHold_stores
            exact h_m
          · apply modHold_stores
            exact h_m

theorem execGrantDelivery_stores (holder : Nat) (s : State) (h_s : storesWf s.m = true) :
    outStores (execGrantDelivery holder s) := by
  unfold execGrantDelivery
  apply guardUnit_stores
  · exact h_s
  · apply grantDelivery_stores
    exact h_s

theorem eprLeave_stores (m : Mach) (p : Nat) (h_m : storesWf m = true) :
    storesWf (eprLeave m p) = true := by
  unfold eprLeave
  dsimp only
  apply ite_stores
  · exact h_m
  · apply ite_stores
    · apply leaveEpr_stores
      apply modPd_stores
      exact h_m
    · apply ite_stores
      · apply modPd_stores
        apply modPd_stores
        exact h_m
      · apply sendCaps_stores
        apply modPd_stores
        exact h_m

theorem vconnOcAct_stores (m : Mach) (p : Nat) (ma : Nat) (atLimit : Bool) (h_m : storesWf m = true) :
    storesWf (vconnOcAct m p ma atLimit) = true := by
  unfold vconnOcAct
  dsimp only
  apply ite_stores
  · apply modPort_stores
    exact h_m
  · apply ite_stores
    · apply eprLeave_stores
      apply modPd_stores
      apply note_stores
      apply modPort_stores
      apply modPort_stores
      exact h_m
    · apply modPd_stores
      apply note_stores
      apply modPort_stores
      apply modPort_stores
      exact h_m

theorem execVconnOc_stores (port : Nat) (ma : Nat) (atLimit : Bool) (s : State) (h_s : storesWf s.m = true) :
    outStores (execVconnOc port ma atLimit s) := by
  unfold execVconnOc
  apply guardUnit_stores
  · exact h_s
  · apply vconnOcAct_stores
    exact h_s

theorem cableIdentity_stores (m : Mach) (p : Nat) (ma : Nat) (vmax : Nat) (epr : Bool) (h_m : storesWf m = true) :
    storesWf (cableIdentity m p ma vmax epr) = true := by
  unfold cableIdentity
  dsimp only
  apply ite_stores
  · exact h_m
  · apply ite_stores
    · apply modPd_stores
      exact h_m
    · apply ite_stores
      · apply modPd_stores
        apply modPd_stores
        exact h_m
      · apply sendCaps_stores
        apply modPd_stores
        exact h_m

theorem execPdCableIdentityRx_stores (port : Nat) (ma : Nat) (vmaxMv : Nat) (eprCable : Bool) (s : State) (h_s : storesWf s.m = true) :
    outStores (execPdCableIdentityRx port ma vmaxMv eprCable s) := by
  unfold execPdCableIdentityRx
  apply pdRow_stores
  · exact h_s
  · intro x0 h1
    apply cableIdentity_stores
    exact h1

theorem execDiscoverIdentityRetry_stores (port : Nat) (s : State) (h_s : storesWf s.m = true) :
    outStores (execDiscoverIdentityRetry port s) := by
  unfold execDiscoverIdentityRetry
  apply pdRow_stores
  · exact h_s
  · intro x0 h1
    apply fire_stores
    · exact h1
    · intro x2 h3
      apply discover_stores
      apply modPd_stores
      exact h3

theorem eprModeRx_stores (m : Mach) (p : Nat) (enter : Bool) (h_m : storesWf m = true) :
    storesWf (eprModeRx m p enter) = true := by
  unfold eprModeRx
  dsimp only
  apply ite_stores
  · apply ite_stores
    · apply ite_stores
      · apply sendCaps_stores
        apply modPd_stores
        apply rxd_stores
        exact h_m
      · apply pdTell_stores
        apply rxd_stores
        exact h_m
    · apply ite_stores
      · apply ite_stores
        · apply hardSend_stores
          apply rxd_stores
          exact h_m
        · apply sendCaps_stores
          apply modPd_stores
          apply rxd_stores
          exact h_m
      · apply rxd_stores
        exact h_m
  · apply modPd_stores
    apply rxd_stores
    exact h_m

theorem execPdEprModeRx_stores (port : Nat) (enter : Bool) (s : State) (h_s : storesWf s.m = true) :
    outStores (execPdEprModeRx port enter s) := by
  unfold execPdEprModeRx
  apply rxRow_stores
  · exact h_s
  · intro x0 h1
    apply eprModeRx_stores
    exact h1

theorem keepaliveRx_stores (m : Mach) (p : Nat) (h_m : storesWf m = true) :
    storesWf (keepaliveRx m p) = true := by
  unfold keepaliveRx
  dsimp only
  apply ite_stores
  · apply pdTell_stores
    apply rxd_stores
    exact h_m
  · apply rxd_stores
    exact h_m

theorem execPdEprKeepaliveRx_stores (port : Nat) (s : State) (h_s : storesWf s.m = true) :
    outStores (execPdEprKeepaliveRx port s) := by
  unfold execPdEprKeepaliveRx
  apply rxRow_stores
  · exact h_s
  · intro x0 h1
    apply keepaliveRx_stores
    exact h1

theorem execSourceEprKeepaliveTimeout_stores (port : Nat) (s : State) (h_s : storesWf s.m = true) :
    outStores (execSourceEprKeepaliveTimeout port s) := by
  unfold execSourceEprKeepaliveTimeout
  apply pdRow_stores
  · exact h_s
  · intro x0 h1
    apply when_stores
    · exact h1
    · intro x2 h3
      apply fire_stores
      · exact h3
      · intro x4 h5
        apply pdTimeout_stores
        · apply modPd_stores
          exact h5
        · intro x6 h7
          apply hardSend_stores
          exact h7

theorem execPpsTimeout_stores (port : Nat) (s : State) (h_s : storesWf s.m = true) :
    outStores (execPpsTimeout port s) := by
  unfold execPpsTimeout
  apply pdRow_stores
  · exact h_s
  · intro x0 h1
    apply when_stores
    · exact h1
    · intro x2 h3
      apply fire_stores
      · exact h3
      · intro x4 h5
        apply pdTimeout_stores
        · apply modPd_stores
          exact h5
        · intro x6 h7
          apply hardSend_stores
          exact h7

theorem requestOut_stores (m : Mach) (p : Nat) (r : PdReq) (starts : Bool) (h_m : storesWf m = true) :
    storesWf (requestOut m p r starts) = true := by
  unfold requestOut
  dsimp only
  apply ite_stores
  · apply modPd_stores
    exact h_m
  · apply modPd_stores
    exact h_m

theorem reRequest_stores (m : Mach) (p : Nat) (h_m : storesWf m = true) :
    storesWf (reRequest m p) = true := by
  unfold reRequest
  dsimp only
  apply ite_stores
  · apply requestOut_stores
    apply modPd_stores
    exact h_m
  · apply modPd_stores
    exact h_m

theorem reRequestDue_stores (m : Mach) (p : Nat) (h_m : storesWf m = true) :
    storesWf (reRequestDue m p) = true := by
  unfold reRequestDue
  dsimp only
  apply ite_stores
  · apply reRequest_stores
    exact h_m
  · exact h_m

theorem sourceCapsRx_stores (m : Mach) (p : Nat) (objs : List PdObj) (epr : Bool) (eprCapable : Bool) (rev2 : Bool) (h_m : storesWf m = true) :
    storesWf (sourceCapsRx m p objs epr eprCapable rev2) = true := by
  unfold sourceCapsRx
  dsimp only
  apply ite_stores
  · apply rxd_stores
    exact h_m
  · apply requestOut_stores
    apply ite_stores
    · apply mk_stores
      apply modPd_stores
      apply rxd_stores
      exact h_m
    · apply modPd_stores
      apply rxd_stores
      exact h_m

theorem execPdSourceCapabilitiesRx_stores (port : Nat) (objs : List PdObj) (epr : Bool) (eprCapable : Bool) (rev2 : Bool) (s : State) (h_s : storesWf s.m = true) :
    outStores (execPdSourceCapabilitiesRx port objs epr eprCapable rev2 s) := by
  unfold execPdSourceCapabilitiesRx
  apply rxRow_stores
  · exact h_s
  · intro x0 h1
    apply sourceCapsRx_stores
    exact h1

theorem acceptRx_stores (m : Mach) (p : Nat) (h_m : storesWf m = true) :
    storesWf (acceptRx m p) = true := by
  unfold acceptRx
  dsimp only
  apply ite_stores
  · apply reRequestDue_stores
    apply modPd_stores
    split
    · apply closeEntry_stores
      apply rxd_stores
      exact h_m
    · apply rxd_stores
      exact h_m
  · apply ite_stores
    · apply modPd_stores
      split
      · apply closeEntry_stores
        apply rxd_stores
        exact h_m
      · apply rxd_stores
        exact h_m
    · apply ite_stores
      · apply modPd_stores
        apply setRef_stores
        apply rxd_stores
        exact h_m
      · apply rxd_stores
        exact h_m

theorem acceptRoleRx_stores (m : Mach) (p : Nat) (sameRole : Bool) (h_m : storesWf m = true) :
    storesWf (acceptRoleRx m p sameRole) = true := by
  unfold acceptRoleRx
  apply ite_stores
  · apply acceptRx_stores
    exact h_m
  · apply softResetOut_stores
    apply ite_stores
    · apply acceptRx_stores
      exact h_m
    · apply rxd_stores
      exact h_m

theorem execPdAcceptRx_stores (port : Nat) (sameRole : Bool) (s : State) (h_s : storesWf s.m = true) :
    outStores (execPdAcceptRx port sameRole s) := by
  unfold execPdAcceptRx
  apply rxRow_stores
  · exact h_s
  · intro x0 h1
    apply acceptRoleRx_stores
    exact h1

theorem drRefused_stores (m : Mach) (p : Nat) (h_m : storesWf m = true) :
    storesWf (drRefused m p) = true := by
  unfold drRefused
  dsimp only
  apply ite_stores
  · apply ite_stores
    · apply mk_stores
      apply modPd_stores
      split
      · apply closeEntry_stores
        exact h_m
      · exact h_m
    · apply mk_stores
      apply modPd_stores
      split
      · apply closeEntry_stores
        exact h_m
      · exact h_m
  · apply modPd_stores
    split
    · apply closeEntry_stores
      exact h_m
    · exact h_m

theorem rejectRx_stores (m : Mach) (p : Nat) (h_m : storesWf m = true) :
    storesWf (rejectRx m p) = true := by
  unfold rejectRx
  dsimp only
  apply ite_stores
  · apply drRefused_stores
    apply rxd_stores
    exact h_m
  · apply ite_stores
    · apply reRequestDue_stores
      apply modPd_stores
      apply rxd_stores
      exact h_m
    · apply rxd_stores
      exact h_m

theorem rejectWaitRx_stores (m : Mach) (p : Nat) (wait : Bool) (h_m : storesWf m = true) :
    storesWf (rejectWaitRx m p wait) = true := by
  unfold rejectWaitRx
  dsimp only
  apply ite_stores
  · apply modPd_stores
    apply rejectRx_stores
    exact h_m
  · apply rejectRx_stores
    exact h_m

theorem execPdRejectRx_stores (port : Nat) (wait : Bool) (s : State) (h_s : storesWf s.m = true) :
    outStores (execPdRejectRx port wait s) := by
  unfold execPdRejectRx
  apply rxRow_stores
  · exact h_s
  · intro x0 h1
    apply rejectWaitRx_stores
    exact h1

theorem psRdyRx_stores (m : Mach) (p : Nat) (h_m : storesWf m = true) :
    storesWf (psRdyRx m p) = true := by
  unfold psRdyRx
  dsimp only
  apply ite_stores
  · apply rxd_stores
    exact h_m
  · split
    · apply rxd_stores
      exact h_m
    · apply stavskaKick_stores
      apply reRequestDue_stores
      apply ite_stores
      · apply pdTell_stores
        apply ite_stores
        · apply requestStart_stores
          apply setRef_stores
          apply setRef_stores
          apply modPd_stores
          apply rxd_stores
          exact h_m
        · apply setRef_stores
          apply setRef_stores
          apply modPd_stores
          apply rxd_stores
          exact h_m
      · apply ite_stores
        · apply requestStart_stores
          apply setRef_stores
          apply setRef_stores
          apply modPd_stores
          apply rxd_stores
          exact h_m
        · apply setRef_stores
          apply setRef_stores
          apply modPd_stores
          apply rxd_stores
          exact h_m

theorem execPdPsRdyRx_stores (port : Nat) (s : State) (h_s : storesWf s.m = true) :
    outStores (execPdPsRdyRx port s) := by
  unfold execPdPsRdyRx
  apply rxRow_stores
  · exact h_s
  · intro x0 h1
    apply psRdyRx_stores
    exact h1

theorem execPsTransitionTimeout_stores (port : Nat) (s : State) (h_s : storesWf s.m = true) :
    outStores (execPsTransitionTimeout port s) := by
  unfold execPsTransitionTimeout
  apply pdRow_stores
  · exact h_s
  · intro x0 h1
    apply when_stores
    · exact h1
    · intro x2 h3
      apply fire_stores
      · exact h3
      · intro x4 h5
        apply pdTimeout_stores
        · apply modPd_stores
          exact h5
        · intro x6 h7
          apply hardSend_stores
          exact h7

theorem sinkHardRx_stores (m : Mach) (p : Nat) (h_m : storesWf m = true) :
    storesWf (sinkHardRx m p) = true := by
  unfold sinkHardRx
  apply modPd_stores
  apply sinkHard_stores
  exact h_m

theorem execSinkHardReset_stores (port : Nat) (s : State) (h_s : storesWf s.m = true) :
    outStores (execSinkHardReset port s) := by
  unfold execSinkHardReset
  apply guardUnit_stores
  · exact h_s
  · apply when_stores
    · exact h_s
    · intro x0 h1
      apply ite_stores
      · apply holdRx_stores
        exact h1
      · apply sinkHardRx_stores
        exact h1

theorem sinkRestored_stores (m : Mach) (p : Nat) (vbs : Nat) (h_m : storesWf m = true) :
    storesWf (sinkRestored m p vbs) = true := by
  unfold sinkRestored
  dsimp only
  apply ite_stores
  · apply modPd_stores
    apply modPort_stores
    split
    · apply closeEntry_stores
      exact h_m
    · assumption
  · apply requestStart_stores
    apply modPd_stores
    apply modPort_stores
    split
    · apply closeEntry_stores
      exact h_m
    · assumption

theorem execSinkVbusRestored_stores (port : Nat) (vbsMv : Nat) (s : State) (h_s : storesWf s.m = true) :
    outStores (execSinkVbusRestored port vbsMv s) := by
  unfold execSinkVbusRestored
  apply guardRead_stores
  · exact h_s
  · apply when_stores
    · exact h_s
    · intro x0 h1
      apply ite_stores
      · apply sinkRestored_stores
        exact h1
      · apply fire_stores
        · exact h1
        · intro x2 h3
          apply sinkRestored_stores
          exact h3

theorem execSinkEprKeepalive_stores (port : Nat) (s : State) (h_s : storesWf s.m = true) :
    outStores (execSinkEprKeepalive port s) := by
  unfold execSinkEprKeepalive
  apply pdRow_stores
  · exact h_s
  · intro x0 h1
    apply when_stores
    · exact h1
    · intro x2 h3
      apply fire_stores
      · exact h3
      · intro x4 h5
        apply pdTell_stores
        exact h5

theorem execPpsRequestRepeat_stores (port : Nat) (s : State) (h_s : storesWf s.m = true) :
    outStores (execPpsRequestRepeat port s) := by
  unfold execPpsRequestRepeat
  dsimp only
  apply pdRow_stores
  · exact h_s
  · intro x0 h1
    apply when_stores
    · exact h1
    · intro x2 h3
      apply fire_stores
      · exact h3
      · intro x4 h5
        split
        · apply requestOut_stores
          apply modPd_stores
          exact h5
        · apply modPd_stores
          exact h5

theorem sinkRpChange_stores (m : Mach) (p : Nat) (ok : Bool) (h_m : storesWf m = true) :
    storesWf (sinkRpChange m p ok) = true := by
  unfold sinkRpChange
  dsimp only
  apply ite_stores
  · apply modPd_stores
    apply modPort_stores
    exact h_m
  · split
    · apply requestOut_stores
      apply modPd_stores
      apply modPort_stores
      exact h_m
    · apply drSwapOut_stores
      apply modPd_stores
      apply modPort_stores
      exact h_m
    · apply modPd_stores
      apply modPort_stores
      exact h_m

theorem execSinkRpChange_stores (port : Nat) (txOk : Bool) (s : State) (h_s : storesWf s.m = true) :
    outStores (execSinkRpChange port txOk s) := by
  unfold execSinkRpChange
  apply guardUnit_stores
  · exact h_s
  · apply when_stores
    · exact h_s
    · intro x0 h1
      apply sinkRpChange_stores
      exact h1

theorem execDonorWithdraw_stores (port : Nat) (s : State) (h_s : storesWf s.m = true) :
    outStores (execDonorWithdraw port s) := by
  unfold execDonorWithdraw
  dsimp only
  apply guardUnit_stores
  · exact h_s
  · apply when_stores
    · exact h_s
    · intro x0 h1
      apply fire_stores
      · exact h1
      · intro x2 h3
        apply reRequest_stores
        apply setRef_stores
        apply mk_stores
        exact h3

theorem execBootCapsTimeout_stores (port : Nat) (s : State) (h_s : storesWf s.m = true) :
    outStores (execBootCapsTimeout port s) := by
  unfold execBootCapsTimeout
  dsimp only
  apply guardUnit_stores
  · exact h_s
  · apply when_stores
    · exact h_s
    · intro x0 h1
      apply fire_stores
      · exact h1
      · intro x2 h3
        apply ite_stores
        · apply mk_stores
          exact h3
        · apply requestStart_stores
          apply mk_stores
          exact h3

theorem execDerateEnd_stores (port : Nat) (s : State) (h_s : storesWf s.m = true) :
    outStores (execDerateEnd port s) := by
  unfold execDerateEnd
  apply guardUnit_stores
  · exact h_s
  · apply fire_stores
    · exact h_s
    · intro x0 h1
      apply derateEnd_stores
      · exact h1
      · intro x2 x3 h4
        apply reRequest_stores
        exact h4

theorem softResetRx_stores (m : Mach) (p : Nat) (h_m : storesWf m = true) :
    storesWf (softResetRx m p) = true := by
  unfold softResetRx
  dsimp only
  apply reRequestDue_stores
  apply modPd_stores
  apply closeSwap_stores
  apply rxd_stores
  exact h_m

theorem execPdSoftResetRx_stores (port : Nat) (s : State) (h_s : storesWf s.m = true) :
    outStores (execPdSoftResetRx port s) := by
  unfold execPdSoftResetRx
  apply rxRow_stores
  · exact h_s
  · intro x0 h1
    apply softResetRx_stores
    exact h1

theorem drSwapRx_stores (m : Mach) (p : Nat) (h_m : storesWf m = true) :
    storesWf (drSwapRx m p) = true := by
  unfold drSwapRx
  dsimp only
  apply ite_stores
  · apply hardSend_stores
    apply rxd_stores
    exact h_m
  · apply ite_stores
    · apply pdTell_stores
      apply rxd_stores
      exact h_m
    · split
      · apply modPd_stores
        apply closeEntry_stores
        apply ite_stores
        · apply modPd_stores
          apply ite_stores
          · apply modPd_stores
            apply rxd_stores
            exact h_m
          · apply rxd_stores
            exact h_m
        · apply pdTell_stores
          apply ite_stores
          · apply modPd_stores
            apply rxd_stores
            exact h_m
          · apply rxd_stores
            exact h_m
      · apply ite_stores
        · apply modPd_stores
          apply ite_stores
          · apply modPd_stores
            apply rxd_stores
            exact h_m
          · apply rxd_stores
            exact h_m
        · apply pdTell_stores
          apply ite_stores
          · apply modPd_stores
            apply rxd_stores
            exact h_m
          · apply rxd_stores
            exact h_m

theorem execPdDrSwapRx_stores (port : Nat) (s : State) (h_s : storesWf s.m = true) :
    outStores (execPdDrSwapRx port s) := by
  unfold execPdDrSwapRx
  apply rxRow_stores
  · exact h_s
  · intro x0 h1
    apply drSwapRx_stores
    exact h1

theorem getCapRx_stores (m : Mach) (p : Nat) (sinkCap : Bool) (h_m : storesWf m = true) :
    storesWf (getCapRx m p sinkCap) = true := by
  unfold getCapRx
  dsimp only
  apply ite_stores
  · apply ite_stores
    · apply pdTell_stores
      apply rxd_stores
      exact h_m
    · apply pdTell_stores
      apply rxd_stores
      exact h_m
  · apply ite_stores
    · apply pdTell_stores
      apply rxd_stores
      exact h_m
    · apply ite_stores
      · apply modPd_stores
        apply rxd_stores
        exact h_m
      · apply ite_stores
        · apply sendCaps_stores
          apply rxd_stores
          exact h_m
        · apply rxd_stores
          exact h_m

theorem execPdGetCapRx_stores (port : Nat) (sinkCap : Bool) (epr : Bool) (s : State) (h_s : storesWf s.m = true) :
    outStores (execPdGetCapRx port sinkCap epr s) := by
  unfold execPdGetCapRx
  apply rxRow_stores
  · exact h_s
  · intro x0 h1
    apply getCapRx_stores
    exact h1

theorem infoQueryRx_stores (m : Mach) (p : Nat) (q : PdQuery) (h_m : storesWf m = true) :
    storesWf (infoQueryRx m p q) = true := by
  unfold infoQueryRx
  apply pdTell_stores
  apply rxd_stores
  exact h_m

theorem execPdInfoQueryRx_stores (port : Nat) (q : PdQuery) (s : State) (h_s : storesWf s.m = true) :
    outStores (execPdInfoQueryRx port q s) := by
  unfold execPdInfoQueryRx
  apply rxRow_stores
  · exact h_s
  · intro x0 h1
    apply infoQueryRx_stores
    exact h1

theorem unsupportedRx_stores (m : Mach) (p : Nat) (h_m : storesWf m = true) :
    storesWf (unsupportedRx m p) = true := by
  unfold unsupportedRx
  apply pdTell_stores
  apply rxd_stores
  exact h_m

theorem execPdUnsupportedRx_stores (port : Nat) (s : State) (h_s : storesWf s.m = true) :
    outStores (execPdUnsupportedRx port s) := by
  unfold execPdUnsupportedRx
  apply rxRow_stores
  · exact h_s
  · intro x0 h1
    apply unsupportedRx_stores
    exact h1

theorem alertRx_stores (m : Mach) (p : Nat) (bits : Nat) (h_m : storesWf m = true) :
    storesWf (alertRx m p bits) = true := by
  unfold alertRx
  apply pdTell_stores
  apply modPd_stores
  apply rxd_stores
  exact h_m

theorem execPdAlertRx_stores (port : Nat) (bits : Nat) (s : State) (h_s : storesWf s.m = true) :
    outStores (execPdAlertRx port bits s) := by
  unfold execPdAlertRx
  apply rxRow_stores
  · exact h_s
  · intro x0 h1
    apply alertRx_stores
    exact h1

theorem vendorRx_stores (m : Mach) (p : Nat) (discoverIdentity : Bool) (h_m : storesWf m = true) :
    storesWf (vendorRx m p discoverIdentity) = true := by
  unfold vendorRx
  apply pdTell_stores
  apply rxd_stores
  exact h_m

theorem execPdVendorDefinedRx_stores (port : Nat) (discoverIdentity : Bool) (s : State) (h_s : storesWf s.m = true) :
    outStores (execPdVendorDefinedRx port discoverIdentity s) := by
  unfold execPdVendorDefinedRx
  apply rxRow_stores
  · exact h_s
  · intro x0 h1
    apply vendorRx_stores
    exact h1

theorem bistRx_stores (m : Mach) (p : Nat) (mode : Nat) (vbusMv : Nat) (h_m : storesWf m = true) :
    storesWf (bistRx m p mode vbusMv) = true := by
  unfold bistRx
  dsimp only
  apply ite_stores
  · apply modPd_stores
    apply rxd_stores
    exact h_m
  · apply rxd_stores
    exact h_m

theorem execPdBistRx_stores (port : Nat) (mode : Nat) (vbusMv : Nat) (s : State) (h_s : storesWf s.m = true) :
    outStores (execPdBistRx port mode vbusMv s) := by
  unfold execPdBistRx
  apply rxRow_stores
  · exact h_s
  · intro x0 h1
    apply bistRx_stores
    exact h1

theorem sinkCapsRx_stores (m : Mach) (p : Nat) (objs : List PdObj) (h_m : storesWf m = true) :
    storesWf (sinkCapsRx m p objs) = true := by
  unfold sinkCapsRx
  apply modPd_stores
  apply rxd_stores
  exact h_m

theorem execPdSinkCapabilitiesRx_stores (port : Nat) (objs : List PdObj) (s : State) (h_s : storesWf s.m = true) :
    outStores (execPdSinkCapabilitiesRx port objs s) := by
  unfold execPdSinkCapabilitiesRx
  apply rxRow_stores
  · exact h_s
  · intro x0 h1
    apply sinkCapsRx_stores
    exact h1

theorem execCableResetRx_stores (port : Nat) (s : State) (h_s : storesWf s.m = true) :
    outStores (execCableResetRx port s) := by
  unfold execCableResetRx
  apply guardUnit_stores
  · exact h_s
  · apply modPd_stores
    exact h_s

theorem execPdRetransmit_stores (port : Nat) (s : State) (h_s : storesWf s.m = true) :
    outStores (execPdRetransmit port s) := by
  unfold execPdRetransmit
  dsimp only
  apply guardUnit_stores
  · exact h_s
  · apply when_stores
    · exact h_s
    · intro x0 h1
      apply fire_stores
      · exact h1
      · intro x2 h3
        apply modPd_stores
        exact h3

theorem txFail_stores (m : Mach) (p : Nat) (h_m : storesWf m = true) :
    storesWf (txFail m p) = true := by
  unfold txFail
  dsimp only
  apply ite_stores
  · apply hardSend_stores
    apply modPd_stores
    exact h_m
  · apply ite_stores
    · apply modPd_stores
      apply modPd_stores
      exact h_m
    · apply softResetOut_stores
      apply modPd_stores
      exact h_m

theorem execPdTxFail_stores (port : Nat) (s : State) (h_s : storesWf s.m = true) :
    outStores (execPdTxFail port s) := by
  unfold execPdTxFail
  dsimp only
  apply pdRow_stores
  · exact h_s
  · intro x0 h1
    apply when_stores
    · exact h1
    · intro x2 h3
      apply pdTimeout_stores
      · exact h3
      · intro x4 h5
        apply txFail_stores
        exact h5

theorem execSenderResponseTimeout_stores (port : Nat) (s : State) (h_s : storesWf s.m = true) :
    outStores (execSenderResponseTimeout port s) := by
  unfold execSenderResponseTimeout
  apply pdRow_stores
  · exact h_s
  · intro x0 h1
    apply fire_stores
    · exact h1
    · intro x2 h3
      apply pdTimeout_stores
      · apply modPd_stores
        exact h3
      · intro x4 h5
        apply ite_stores
        · apply drRefused_stores
          exact h5
        · apply hardSend_stores
          exact h5

theorem execNoResponseTimeout_stores (port : Nat) (s : State) (h_s : storesWf s.m = true) :
    outStores (execNoResponseTimeout port s) := by
  unfold execNoResponseTimeout
  apply pdRow_stores
  · exact h_s
  · intro x0 h1
    apply fire_stores
    · exact h1
    · intro x2 h3
      apply pdTimeout_stores
      · apply modPd_stores
        exact h3
      · intro x4 h5
        apply hardSend_stores
        exact h5

theorem persistPorts_stores (code : Nat) (p : List Byte) (a : Ans) (h_a : ansStores a) :
    ansStores (persistPorts code p a) := by
  unfold persistPorts
  split
  · simp only [ansStores]
    apply forAll_stores
    · assumption
    · intro x0 x1 h2
      apply nvmConfig_stores
      exact h2
  · exact h_a

theorem setPdSrcCfg_stores (m : Mach) (p : List Byte) (h_m : storesWf m = true) :
    ansStores (setPdSrcCfg m p) := by
  unfold setPdSrcCfg
  dsimp only
  apply refuseFirst_stores
  simp only [ansStores]
  apply forAll_stores
  · exact h_m
  · intro x0 x1 h2
    apply ite_stores
    · apply modPd_stores
      exact h2
    · apply modPd_stores
      apply ite_stores
      · apply modHold_stores
        apply ite_stores
        · apply modPd_stores
          apply modPd_stores
          exact h2
        · apply modPd_stores
          exact h2
      · apply ite_stores
        · apply modPd_stores
          apply modPd_stores
          exact h2
        · apply modPd_stores
          exact h2

theorem cmdPdSrcCfg_stores (m : Mach) (w1 : Nat) (p : List Byte) (h_m : storesWf m = true) :
    ansStores (cmdPdSrcCfg m w1 p) := by
  unfold cmdPdSrcCfg
  apply persistPorts_stores
  apply setPdSrcCfg_stores
  exact h_m

theorem execPdSrcCfg_stores (slot : Nat) (s : State) (h_s : storesWf s.m = true) :
    outStores (execPdSrcCfg slot s) := by
  unfold execPdSrcCfg
  apply command_stores
  · intro x0 x1 x2 h3
    apply cmdPdSrcCfg_stores
    exact h3
  · exact h_s

theorem setPdSnkCfg_stores (m : Mach) (p : List Byte) (h_m : storesWf m = true) :
    ansStores (setPdSnkCfg m p) := by
  unfold setPdSnkCfg
  dsimp only
  apply refuseFirst_stores
  simp only [ansStores]
  apply forAll_stores
  · exact h_m
  · intro x0 x1 h2
    apply modPd_stores
    exact h2

theorem cmdPdSnkCfg_stores (m : Mach) (w1 : Nat) (p : List Byte) (h_m : storesWf m = true) :
    ansStores (cmdPdSnkCfg m w1 p) := by
  unfold cmdPdSnkCfg
  apply persistPorts_stores
  apply setPdSnkCfg_stores
  exact h_m

theorem execPdSnkCfg_stores (slot : Nat) (s : State) (h_s : storesWf s.m = true) :
    outStores (execPdSnkCfg slot s) := by
  unfold execPdSnkCfg
  apply command_stores
  · intro x0 x1 x2 h3
    apply cmdPdSnkCfg_stores
    exact h3
  · exact h_s

theorem cmdPdStatGet_stores (m : Mach) (w1 : Nat) (p : List Byte) (h_m : storesWf m = true) :
    ansStores (cmdPdStatGet m w1 p) := by
  unfold cmdPdStatGet
  dsimp only
  apply refuseFirst_stores
  simp only [ansStores]
  exact h_m

theorem execPdStatGet_stores (slot : Nat) (s : State) (h_s : storesWf s.m = true) :
    outStores (execPdStatGet slot s) := by
  unfold execPdStatGet
  apply command_stores
  · intro x0 x1 x2 h3
    apply cmdPdStatGet_stores
    exact h3
  · exact h_s

theorem cmdPdDrSwapReq_stores (m : Mach) (s : Nat) (p : List Byte) (h_m : storesWf m = true) :
    ansStores (cmdPdDrSwapReq m s p) := by
  unfold cmdPdDrSwapReq
  dsimp only
  apply refuseFirst_stores
  simp only [ansStores]
  apply drSwapOut_stores
  apply modPd_stores
  exact h_m

theorem execPdDrSwapReq_stores (slot : Nat) (s : State) (h_s : storesWf s.m = true) :
    outStores (execPdDrSwapReq slot s) := by
  unfold execPdDrSwapReq
  apply command_stores
  · intro x0 x1 x2 h3
    apply cmdPdDrSwapReq_stores
    exact h3
  · exact h_s

theorem cmdPdReset_stores (m : Mach) (s : Nat) (p : List Byte) (h_m : storesWf m = true) :
    ansStores (cmdPdReset m s p) := by
  unfold cmdPdReset
  dsimp only
  apply refuseFirst_stores
  simp only [ansStores]
  apply ite_stores
  · apply modPd_stores
    apply softResetOut_stores
    exact h_m
  · apply ite_stores
    · apply modPd_stores
      apply ite_stores
      · apply sinkSignal_stores
        exact h_m
      · apply hardSignal_stores
        exact h_m
    · apply modPd_stores
      apply modPd_stores
      exact h_m

theorem execPdReset_stores (slot : Nat) (s : State) (h_s : storesWf s.m = true) :
    outStores (execPdReset slot s) := by
  unfold execPdReset
  apply command_stores
  · intro x0 x1 x2 h3
    apply cmdPdReset_stores
    exact h3
  · exact h_s

theorem heldOne_stores (p : Nat) (m : Mach) (w2 : PdRx) (h_m : storesWf m = true) :
    storesWf (heldOne p m w2) = true := by
  unfold heldOne
  split
  · apply pdRequestRx_stores
    exact h_m
  · apply eprModeRx_stores
    exact h_m
  · apply keepaliveRx_stores
    exact h_m
  · apply sourceCapsRx_stores
    exact h_m
  · apply acceptRoleRx_stores
    exact h_m
  · apply rejectWaitRx_stores
    exact h_m
  · apply psRdyRx_stores
    exact h_m
  · apply softResetRx_stores
    exact h_m
  · apply drSwapRx_stores
    exact h_m
  · apply getCapRx_stores
    exact h_m
  · apply infoQueryRx_stores
    exact h_m
  · apply unsupportedRx_stores
    exact h_m
  · apply alertRx_stores
    exact h_m
  · apply vendorRx_stores
    exact h_m
  · apply bistRx_stores
    exact h_m
  · apply sinkCapsRx_stores
    exact h_m
  · apply ite_stores
    · apply hardRx_stores
      exact h_m
    · exact h_m
  · apply ite_stores
    · apply sinkHardRx_stores
      exact h_m
    · exact h_m

theorem thaw_stores (m : Mach) (p : Nat) (h_m : storesWf m = true) :
    storesWf (thaw m p) = true := by
  unfold thaw
  dsimp only
  apply ite_stores
  · exact h_m
  · apply dcpEval_stores
    apply rpAvoid_stores
    apply foldl_stores
    · apply modPd_stores
      exact h_m
    · intro x0 x1 h2
      apply heldOne_stores
      exact h2

theorem migrationLeft_stores (m : Mach) (p : Nat) (h_m : storesWf m = true) :
    storesWf (migrationLeft m p) = true := by
  unfold migrationLeft
  dsimp only
  apply thaw_stores
  apply migrationDone_stores
  apply modCore_stores
  apply note_stores
  apply modPd_stores
  exact h_m

theorem takeOver_stores (m : Mach) (p : Nat) (k : Nat) (h_m : storesWf m = true) :
    storesWf (takeOver m p k) = true := by
  unfold takeOver
  dsimp only
  apply modPd_stores
  apply bayRestart_stores
  apply serveBy_stores
  exact h_m

theorem pdMigration_stores (m : Mach) (p : Nat) (h_m : storesWf m = true) :
    storesWf (pdMigration m p) = true := by
  unfold pdMigration
  dsimp only
  split
  · exact h_m
  · apply ite_stores
    · exact h_m
    · apply ite_stores
      · apply migrationLeft_stores
        exact h_m
      · apply thaw_stores
        apply migrationDone_stores
        apply takeOver_stores
        exact h_m

theorem coreFence_stores (m : Mach) (k : Nat) (code : Nat) (h_m : storesWf m = true) :
    storesWf (coreFence m k code) = true := by
  unfold coreFence
  apply forAll_stores
  · apply fenceCore_stores
    exact h_m
  · intro x0 x1 h2
    apply thaw_stores
    exact h2

theorem execPdMigration_stores (port : Nat) (s : State) (h_s : storesWf s.m = true) :
    outStores (execPdMigration port s) := by
  unfold execPdMigration
  apply guardUnit_stores
  · exact h_s
  · apply pdMigration_stores
    exact h_s

theorem execMigrationAbandon_stores (port : Nat) (s : State) (h_s : storesWf s.m = true) :
    outStores (execMigrationAbandon port s) := by
  unfold execMigrationAbandon
  apply guardUnit_stores
  · exact h_s
  · apply fire_stores
    · exact h_s
    · intro x0 h1
      apply migrationLeft_stores
      exact h1

theorem execPdCoreFence_stores (core : Nat) (s : State) (h_s : storesWf s.m = true) :
    outStores (execPdCoreFence core s) := by
  unfold execPdCoreFence
  dsimp only
  apply guardUnit_stores
  · exact h_s
  · apply ite_stores
    · apply movePorts_stores
      exact h_s
    · apply ite_stores
      · apply detect_stores
        exact h_s
      · apply coreFence_stores
        apply ite_stores
        · apply mk_stores
          apply detect_stores
          exact h_s
        · apply detect_stores
          exact h_s

theorem migrateAll_stores (m : Mach) (src : Nat) (dst : Nat) (seq : Option Nat) (h_m : storesWf m = true) :
    storesWf (migrateAll m src dst seq) = true := by
  unfold migrateAll
  dsimp only
  apply modCore_stores
  apply forAll_stores
  · exact h_m
  · intro x0 x1 h2
    apply modPd_stores
    exact h2

theorem cmdPdMigrate_stores (m : Mach) (s : Nat) (p : List Byte) (h_m : storesWf m = true) :
    ansStores (cmdPdMigrate m s p) := by
  unfold cmdPdMigrate
  dsimp only
  apply refuseFirst_stores
  simp only [ansStores]
  apply migrateAll_stores
  exact h_m

theorem execPdMigrate_stores (slot : Nat) (s : State) (h_s : storesWf s.m = true) :
    outStores (execPdMigrate slot s) := by
  unfold execPdMigrate
  apply command_stores
  · intro x0 x1 x2 h3
    apply cmdPdMigrate_stores
    exact h3
  · exact h_s

theorem cmdPdCoreStatGet_stores (m : Mach) (w1 : Nat) (w2 : List Byte) (h_m : storesWf m = true) :
    ansStores (cmdPdCoreStatGet m w1 w2) := by
  unfold cmdPdCoreStatGet
  dsimp only
  simp only [ansStores]
  exact h_m

theorem execPdCoreStatGet_stores (slot : Nat) (s : State) (h_s : storesWf s.m = true) :
    outStores (execPdCoreStatGet slot s) := by
  unfold execPdCoreStatGet
  apply command_stores
  · intro x0 x1 x2 h3
    apply cmdPdCoreStatGet_stores
    exact h3
  · exact h_s

theorem modRec_stores (m : Mach) (x : Nat) (f : PackRec → PackRec) (h_m : storesWf m = true) :
    storesWf (modRec m x f) = true := by
  unfold modRec
  apply mk_stores
  exact h_m

theorem recSave_stores (m : Mach) (x : Nat) (h_m : storesWf m = true) :
    storesWf (recSave m x) = true := by
  unfold recSave
  dsimp only
  apply nvmConfig_stores
  exact h_m

theorem recTake_stores (m : Mach) (p : Nat) (id : List Byte) (key : Nat) (prof : List Byte) (fresh : Bool) (h_m : storesWf m = true) :
    storesWf (recTake m p id key prof fresh) = true := by
  unfold recTake
  dsimp only
  apply recSave_stores
  apply modBay_stores
  split
  · apply ite_stores
    · apply modRec_stores
      apply ite_stores
      · apply journal_stores
        apply modCtx_stores
        exact h_m
      · exact h_m
    · apply modRec_stores
      apply modRec_stores
      apply ite_stores
      · apply journal_stores
        apply modCtx_stores
        exact h_m
      · exact h_m
  · apply modRec_stores
    apply ite_stores
    · apply journal_stores
      apply modCtx_stores
      exact h_m
    · exact h_m

theorem recRelease_stores (m : Mach) (p : Nat) (h_m : storesWf m = true) :
    storesWf (recRelease m p) = true := by
  unfold recRelease
  dsimp only
  split
  · exact h_m
  · apply recSave_stores
    apply modBay_stores
    apply modRec_stores
    apply ite_stores
    · apply deactivate_stores
      apply learnWrite_stores
      exact h_m
    · exact h_m

theorem bayAsk_stores (m : Mach) (p : Nat) (type : Nat) (h_m : storesWf m = true) :
    storesWf (bayAsk m p type) = true := by
  unfold bayAsk
  apply modBay_stores
  exact h_m

theorem bayAttempt_stores (m : Mach) (p : Nat) (h_m : storesWf m = true) :
    storesWf (bayAttempt m p) = true := by
  unfold bayAttempt
  dsimp only
  apply bayAsk_stores
  apply modBay_stores
  exact h_m

theorem bayOff_stores (m : Mach) (p : Nat) (h_m : storesWf m = true) :
    storesWf (bayOff m p) = true := by
  unfold bayOff
  dsimp only
  apply chgEnter_stores
  apply modChg_stores
  apply stopRun_stores
  apply eisAbort_stores
  exact h_m

theorem bayReject_stores (m : Mach) (p : Nat) (h_m : storesWf m = true) :
    storesWf (bayReject m p) = true := by
  unfold bayReject
  apply modBay_stores
  apply bayOff_stores
  exact h_m

theorem attemptFail_stores (m : Mach) (p : Nat) (v : Nat) (h_m : storesWf m = true) :
    storesWf (attemptFail m p v) = true := by
  unfold attemptFail
  dsimp only
  apply ite_stores
  · apply bayReject_stores
    apply modBay_stores
    exact h_m
  · apply ite_stores
    · apply modBay_stores
      exact h_m
    · apply ite_stores
      · apply modBay_stores
        apply ite_stores
        · apply modBay_stores
          apply stopRun_stores
          apply modBay_stores
          exact h_m
        · apply modBay_stores
          exact h_m
      · apply ite_stores
        · apply bayReject_stores
          apply ite_stores
          · apply modBay_stores
            apply stopRun_stores
            apply modBay_stores
            exact h_m
          · apply modBay_stores
            exact h_m
        · apply modBay_stores
          apply ite_stores
          · apply modBay_stores
            apply stopRun_stores
            apply modBay_stores
            exact h_m
          · apply modBay_stores
            exact h_m

theorem linkFail_stores (m : Mach) (p : Nat) (h_m : storesWf m = true) :
    storesWf (linkFail m p) = true := by
  unfold linkFail
  dsimp only
  apply ite_stores
  · apply modBay_stores
    apply modBay_stores
    exact h_m
  · apply ite_stores
    · apply chgApply_stores
      apply ite_stores
      · apply chgSuspend_stores
        apply modChg_stores
        apply modBay_stores
        apply note_stores
        apply modBay_stores
        exact h_m
      · apply modChg_stores
        apply modBay_stores
        apply note_stores
        apply modBay_stores
        exact h_m
    · apply attemptFail_stores
      apply modBay_stores
      exact h_m

theorem bayStatus_stores (m : Mach) (p : Nat) (pl : List Byte) (h_m : storesWf m = true) :
    storesWf (bayStatus m p pl) = true := by
  unfold bayStatus
  dsimp only
  apply ite_stores
  · apply ite_stores
    · apply terminate_stores
      split
      · apply modRec_stores
        apply modBay_stores
        exact h_m
      · apply modBay_stores
        exact h_m
    · apply chgApply_stores
      apply ite_stores
      · apply chgSuspend_stores
        apply ite_stores
        · apply learnMach_stores
          apply note_stores
          apply modChg_stores
          split
          · apply modRec_stores
            apply modBay_stores
            exact h_m
          · apply modBay_stores
            exact h_m
        · apply modChg_stores
          split
          · apply modRec_stores
            apply modBay_stores
            exact h_m
          · apply modBay_stores
            exact h_m
      · apply ite_stores
        · apply learnMach_stores
          apply note_stores
          apply modChg_stores
          split
          · apply modRec_stores
            apply modBay_stores
            exact h_m
          · apply modBay_stores
            exact h_m
        · apply modChg_stores
          split
          · apply modRec_stores
            apply modBay_stores
            exact h_m
          · apply modBay_stores
            exact h_m
  · apply ite_stores
    · apply modChg_stores
      split
      · apply modRec_stores
        apply modBay_stores
        exact h_m
      · apply modBay_stores
        exact h_m
    · split
      · apply modRec_stores
        apply modBay_stores
        exact h_m
      · apply modBay_stores
        exact h_m

theorem bayLinkReply_stores (m : Mach) (p : Nat) (type : Nat) (pl : List Byte) (crcOk : Bool) (h_m : storesWf m = true) :
    storesWf (bayLinkReply m p type pl crcOk) = true := by
  unfold bayLinkReply
  dsimp only
  apply ite_stores
  · apply linkFail_stores
    exact h_m
  · split
    · apply bayAsk_stores
      apply modBay_stores
      exact h_m
    · apply bayAsk_stores
      apply modBay_stores
      apply draw_stores
      exact h_m
    · apply modBay_stores
      apply mk_stores
      exact h_m
    · apply bayStatus_stores
      exact h_m

theorem execBayLinkReply_stores (port : Nat) (type : Nat) (payload : List Nat) (crcOk : Bool) (s : State) (h_s : storesWf s.m = true) :
    outStores (execBayLinkReply port type payload crcOk s) := by
  unfold execBayLinkReply
  apply guardUnit_stores
  · exact h_s
  · apply when_stores
    · exact h_s
    · intro x0 h1
      apply bayLinkReply_stores
      exact h1

theorem execBayReplyTimeout_stores (port : Nat) (s : State) (h_s : storesWf s.m = true) :
    outStores (execBayReplyTimeout port s) := by
  unfold execBayReplyTimeout
  apply guardUnit_stores
  · exact h_s
  · apply fire_stores
    · exact h_s
    · intro x0 h1
      apply linkFail_stores
      exact h1

theorem bayVerified_stores (m : Mach) (p : Nat) (h_m : storesWf m = true) :
    storesWf (bayVerified m p) = true := by
  unfold bayVerified
  dsimp only
  apply reopen_stores
  apply ite_stores
  · apply modBay_stores
    apply modChg_stores
    apply modBay_stores
    apply recTake_stores
    apply ite_stores
    · apply stopRun_stores
      exact h_m
    · exact h_m
  · apply modChg_stores
    apply modBay_stores
    apply recTake_stores
    apply ite_stores
    · apply stopRun_stores
      exact h_m
    · exact h_m

theorem authVerdict_stores (m : Mach) (p : Nat) (h_m : storesWf m = true) :
    storesWf (authVerdict m p) = true := by
  unfold authVerdict
  dsimp only
  apply ite_stores
  · apply bayVerified_stores
    exact h_m
  · apply attemptFail_stores
    apply ite_stores
    · apply journal_stores
      exact h_m
    · exact h_m

theorem execAuthVerdict_stores (port : Nat) (s : State) (h_s : storesWf s.m = true) :
    outStores (execAuthVerdict port s) := by
  unfold execAuthVerdict
  apply guardUnit_stores
  · exact h_s
  · apply fire_stores
    · exact h_s
    · intro x0 h1
      apply authVerdict_stores
      exact h1

theorem execAuthRetry_stores (port : Nat) (s : State) (h_s : storesWf s.m = true) :
    outStores (execAuthRetry port s) := by
  unfold execAuthRetry
  apply guardUnit_stores
  · exact h_s
  · apply fire_stores
    · exact h_s
    · intro x0 h1
      apply bayAttempt_stores
      exact h1

theorem execBayStatusPoll_stores (port : Nat) (s : State) (h_s : storesWf s.m = true) :
    outStores (execBayStatusPoll port s) := by
  unfold execBayStatusPoll
  dsimp only
  apply guardUnit_stores
  · exact h_s
  · apply fire_stores
    · exact h_s
    · intro x0 h1
      apply ite_stores
      · apply bayAsk_stores
        apply modBay_stores
        exact h1
      · apply modBay_stores
        exact h1

theorem execTrickleRetry_stores (port : Nat) (s : State) (h_s : storesWf s.m = true) :
    outStores (execTrickleRetry port s) := by
  unfold execTrickleRetry
  dsimp only
  apply guardUnit_stores
  · exact h_s
  · apply fire_stores
    · exact h_s
    · intro x0 h1
      apply ite_stores
      · apply bayAttempt_stores
        apply modBay_stores
        exact h1
      · apply modBay_stores
        exact h1

theorem execTrickleExpire_stores (port : Nat) (s : State) (h_s : storesWf s.m = true) :
    outStores (execTrickleExpire port s) := by
  unfold execTrickleExpire
  apply guardUnit_stores
  · exact h_s
  · apply fire_stores
    · exact h_s
    · intro x0 h1
      apply bayReject_stores
      apply modBay_stores
      exact h1

theorem bayGone_stores (m : Mach) (p : Nat) (h_m : storesWf m = true) :
    storesWf (bayGone m p) = true := by
  unfold bayGone
  dsimp only
  apply modCv_stores
  apply dropPass_stores
  apply modBay_stores
  apply modChg_stores
  apply recRelease_stores
  apply stopRun_stores
  apply eisAbort_stores
  exact h_m

theorem packRemoval_stores (m : Mach) (p : Nat) (det : Nat) (vbs : Nat) (i : Nat) (h_m : storesWf m = true) :
    storesWf (packRemoval m p det vbs i) = true := by
  unfold packRemoval
  dsimp only
  apply ite_stores
  · exact h_m
  · apply journal_stores
    apply bayGone_stores
    apply modBay_stores
    exact h_m

theorem execPackRemoval_stores (port : Nat) (detector : Nat) (vbsMv : Nat) (iMa : Nat) (s : State) (h_s : storesWf s.m = true) :
    outStores (execPackRemoval port detector vbsMv iMa s) := by
  unfold execPackRemoval
  apply guardRead_stores
  · exact h_s
  · apply when_stores
    · exact h_s
    · intro x0 h1
      apply packRemoval_stores
      exact h1

theorem bayIdRead_stores (m : Mach) (p : Nat) (mv : Nat) (h_m : storesWf m = true) :
    storesWf (bayIdRead m p mv) = true := by
  unfold bayIdRead
  dsimp only
  apply ite_stores
  · split
    · apply modCv_stores
      apply modBay_stores
      apply ite_stores
      · apply setLive_stores
        apply modBay_stores
        exact h_m
      · apply modBay_stores
        exact h_m
    · apply modCv_stores
      apply modBay_stores
      apply ite_stores
      · apply setLive_stores
        apply modBay_stores
        exact h_m
      · apply modBay_stores
        exact h_m
    · apply modCv_stores
      apply modBay_stores
      apply ite_stores
      · apply setLive_stores
        apply modBay_stores
        exact h_m
      · apply modBay_stores
        exact h_m
    · apply packRemoval_stores
      apply modBay_stores
      exact h_m
  · apply ite_stores
    · apply modBay_stores
      exact h_m
    · apply ite_stores
      · split
        · apply modBay_stores
          exact h_m
        · apply setLive_stores
          apply note_stores
          apply modBay_stores
          apply modBay_stores
          exact h_m
        · apply setLive_stores
          apply note_stores
          apply modBay_stores
          apply modBay_stores
          exact h_m
        · apply setLive_stores
          apply note_stores
          apply modBay_stores
          apply journal_stores
          apply bayGone_stores
          apply modBay_stores
          exact h_m
      · split
        · apply modCv_stores
          apply modBay_stores
          apply ite_stores
          · apply setLive_stores
            apply modBay_stores
            exact h_m
          · apply modBay_stores
            exact h_m
        · apply modCv_stores
          apply modBay_stores
          apply ite_stores
          · apply setLive_stores
            apply modBay_stores
            exact h_m
          · apply modBay_stores
            exact h_m
        · apply modBay_stores
          exact h_m

theorem execBayIdRead_stores (port : Nat) (cc1Mv : Nat) (s : State) (h_s : storesWf s.m = true) :
    outStores (execBayIdRead port cc1Mv s) := by
  unfold execBayIdRead
  dsimp only
  apply guardRead_stores
  · exact h_s
  · apply when_stores
    · exact h_s
    · intro x0 h1
      apply bayIdRead_stores
      exact h1

theorem execPackInsert_stores (port : Nat) (s : State) (h_s : storesWf s.m = true) :
    outStores (execPackInsert port s) := by
  unfold execPackInsert
  apply guardUnit_stores
  · exact h_s
  · apply fire_stores
    · exact h_s
    · intro x0 h1
      apply bayAttempt_stores
      apply modBay_stores
      exact h1

theorem bayStart_stores (m : Mach) (p : Nat) (vcs : Nat) (vbs : Nat) (h_m : storesWf m = true) :
    storesWf (bayStart m p vcs vbs) = true := by
  unfold bayStart
  dsimp only
  apply ite_stores
  · apply ite_stores
    · apply setRef_stores
      apply setRef_stores
      apply modBay_stores
      apply modCv_stores
      exact h_m
    · apply chgApply_stores
      apply modChg_stores
      apply setRef_stores
      apply modBay_stores
      apply modBay_stores
      apply modCv_stores
      exact h_m
  · apply fire_stores
    · exact h_m
    · intro x0 h1
      apply refuseStart_stores
      apply note_stores
      apply modBay_stores
      exact h1

theorem execBayStart_stores (port : Nat) (vcsMv : Nat) (vbsMv : Nat) (s : State) (h_s : storesWf s.m = true) :
    outStores (execBayStart port vcsMv vbsMv s) := by
  unfold execBayStart
  apply guardRead_stores
  · exact h_s
  · apply when_stores
    · exact h_s
    · intro x0 h1
      apply bayStart_stores
      exact h1

theorem execBayDoneRead_stores (port : Nat) (vbsMv : Nat) (s : State) (h_s : storesWf s.m = true) :
    outStores (execBayDoneRead port vbsMv s) := by
  unfold execBayDoneRead
  dsimp only
  apply guardRead_stores
  · exact h_s
  · apply when_stores
    · exact h_s
    · intro x0 h1
      apply fire_stores
      · exact h1
      · intro x2 h3
        apply forAll_stores
        · apply modChg_stores
          apply modBay_stores
          exact h3
        · intro x4 x5 h6
          apply modCtx_stores
          exact h6

theorem proofingPause_stores (m : Mach) (p : Nat) (h_m : storesWf m = true) :
    storesWf (proofingPause m p) = true := by
  unfold proofingPause
  dsimp only
  apply forAll_stores
  · apply modBay_stores
    apply modChg_stores
    apply stopRun_stores
    apply eisAbort_stores
    exact h_m
  · intro x0 x1 h2
    apply modCtx_stores
    exact h2

theorem execProofingPause_stores (port : Nat) (s : State) (h_s : storesWf s.m = true) :
    outStores (execProofingPause port s) := by
  unfold execProofingPause
  dsimp only
  apply guardUnit_stores
  · exact h_s
  · apply when_stores
    · exact h_s
    · intro x0 h1
      apply proofingPause_stores
      exact h1

theorem proofingPauseEnd_stores (m : Mach) (p : Nat) (h_m : storesWf m = true) :
    storesWf (proofingPauseEnd m p) = true := by
  unfold proofingPauseEnd
  dsimp only
  apply chgApply_stores
  apply modChg_stores
  apply modBay_stores
  apply forAll_stores
  · exact h_m
  · intro x0 x1 h2
    split
    · apply ite_stores
      · apply fitAnchor_stores
        exact h2
      · apply modCtx_stores
        exact h2
    · exact h2

theorem execProofingPauseEnd_stores (port : Nat) (s : State) (h_s : storesWf s.m = true) :
    outStores (execProofingPauseEnd port s) := by
  unfold execProofingPauseEnd
  apply guardUnit_stores
  · exact h_s
  · apply fire_stores
    · exact h_s
    · intro x0 h1
      apply proofingPauseEnd_stores
      exact h1

theorem putKey_stores (m : Mach) (p : List Byte) (h_m : storesWf m = true) :
    storesWf (putKey m p) = true := by
  unfold putKey
  apply mk_stores
  exact h_m

theorem setBayKey_stores (m : Mach) (s : Nat) (p : List Byte) (h_m : storesWf m = true) :
    ansStores (setBayKey m s p) := by
  unfold setBayKey
  dsimp only
  apply refuseFirst_stores
  simp only [ansStores]
  apply ite_stores
  · apply putKey_stores
    exact h_m
  · apply forAll_stores
    · apply putKey_stores
      exact h_m
    · intro x0 x1 h2
      apply ite_stores
      · apply attemptFail_stores
        exact h2
      · apply ite_stores
        · apply modBay_stores
          exact h2
        · exact h2

theorem cmdBayKeySet_stores (m : Mach) (s : Nat) (p : List Byte) (h_m : storesWf m = true) :
    ansStores (cmdBayKeySet m s p) := by
  unfold cmdBayKeySet
  apply persist_stores
  apply setBayKey_stores
  exact h_m

theorem execBayKeySet_stores (slot : Nat) (s : State) (h_s : storesWf s.m = true) :
    outStores (execBayKeySet slot s) := by
  unfold execBayKeySet
  apply command_stores
  · intro x0 x1 x2 h3
    apply cmdBayKeySet_stores
    exact h3
  · exact h_s

theorem bayAgain_stores (m : Mach) (p : Nat) (h_m : storesWf m = true) :
    storesWf (bayAgain m p) = true := by
  unfold bayAgain
  dsimp only
  apply bayAttempt_stores
  apply modBay_stores
  apply chgApply_stores
  apply ite_stores
  · apply chgSuspend_stores
    apply modChg_stores
    exact h_m
  · apply modChg_stores
    exact h_m

theorem execKeyRevokeReauth_stores (port : Nat) (s : State) (h_s : storesWf s.m = true) :
    outStores (execKeyRevokeReauth port s) := by
  unfold execKeyRevokeReauth
  apply guardUnit_stores
  · exact h_s
  · apply fire_stores
    · exact h_s
    · intro x0 h1
      apply bayAgain_stores
      apply modBay_stores
      exact h1

theorem cmdBayKeyGet_stores (m : Mach) (w1 : Nat) (w2 : List Byte) (h_m : storesWf m = true) :
    ansStores (cmdBayKeyGet m w1 w2) := by
  unfold cmdBayKeyGet
  dsimp only
  simp only [ansStores]
  exact h_m

theorem execBayKeyGet_stores (slot : Nat) (s : State) (h_s : storesWf s.m = true) :
    outStores (execBayKeyGet slot s) := by
  unfold execBayKeyGet
  apply command_stores
  · intro x0 x1 x2 h3
    apply cmdBayKeyGet_stores
    exact h3
  · exact h_s

theorem cmdBayCfg_stores (m : Mach) (w1 : Nat) (p : List Byte) (h_m : storesWf m = true) :
    ansStores (cmdBayCfg m w1 p) := by
  unfold cmdBayCfg
  dsimp only
  apply refuseFirst_stores
  simp only [ansStores]
  apply forAll_stores
  · exact h_m
  · intro x0 x1 h2
    apply modBay_stores
    exact h2

theorem execBayCfg_stores (slot : Nat) (s : State) (h_s : storesWf s.m = true) :
    outStores (execBayCfg slot s) := by
  unfold execBayCfg
  apply command_stores
  · intro x0 x1 x2 h3
    apply cmdBayCfg_stores
    exact h3
  · exact h_s

theorem cmdBayReauth_stores (m : Mach) (w1 : Nat) (p : List Byte) (h_m : storesWf m = true) :
    ansStores (cmdBayReauth m w1 p) := by
  unfold cmdBayReauth
  dsimp only
  apply refuseFirst_stores
  simp only [ansStores]
  apply ite_stores
  · apply bayAgain_stores
    apply modBay_stores
    exact h_m
  · apply modBay_stores
    exact h_m

theorem execBayReauth_stores (slot : Nat) (s : State) (h_s : storesWf s.m = true) :
    outStores (execBayReauth slot s) := by
  unfold execBayReauth
  apply command_stores
  · intro x0 x1 x2 h3
    apply cmdBayReauth_stores
    exact h3
  · exact h_s

theorem cmdBayStatGet_stores (m : Mach) (w1 : Nat) (p : List Byte) (h_m : storesWf m = true) :
    ansStores (cmdBayStatGet m w1 p) := by
  unfold cmdBayStatGet
  dsimp only
  apply refuseFirst_stores
  simp only [ansStores]
  exact h_m

theorem execBayStatGet_stores (slot : Nat) (s : State) (h_s : storesWf s.m = true) :
    outStores (execBayStatGet slot s) := by
  unfold execBayStatGet
  apply command_stores
  · intro x0 x1 x2 h3
    apply cmdBayStatGet_stores
    exact h3
  · exact h_s

theorem cmdBayRecordGet_stores (m : Mach) (w1 : Nat) (p : List Byte) (h_m : storesWf m = true) :
    ansStores (cmdBayRecordGet m w1 p) := by
  unfold cmdBayRecordGet
  dsimp only
  apply refuseFirst_stores
  simp only [ansStores]
  exact h_m

theorem execBayRecordGet_stores (slot : Nat) (s : State) (h_s : storesWf s.m = true) :
    outStores (execBayRecordGet slot s) := by
  unfold execBayRecordGet
  apply command_stores
  · intro x0 x1 x2 h3
    apply cmdBayRecordGet_stores
    exact h3
  · exact h_s

theorem cmdBayRecordForget_stores (m : Mach) (s : Nat) (p : List Byte) (h_m : storesWf m = true) :
    ansStores (cmdBayRecordForget m s p) := by
  unfold cmdBayRecordForget
  dsimp only
  apply refuseFirst_stores
  simp only [ansStores]
  apply nvmConfig_stores
  apply modCtx_stores
  apply modRec_stores
  exact h_m

theorem execBayRecordForget_stores (slot : Nat) (s : State) (h_s : storesWf s.m = true) :
    outStores (execBayRecordForget slot s) := by
  unfold execBayRecordForget
  apply command_stores
  · intro x0 x1 x2 h3
    apply cmdBayRecordForget_stores
    exact h3
  · exact h_s

theorem putPrtCfg_stores (m : Mach) (p : List Byte) (h_m : storesWf m = true) :
    storesWf (putPrtCfg m p) = true := by
  unfold putPrtCfg
  dsimp only
  apply goUnattached_stores
  apply modPort_stores
  apply ite_stores
  · apply stopRun_stores
    apply ite_stores
    · apply bayGone_stores
      exact h_m
    · exact h_m
  · apply ite_stores
    · apply bayGone_stores
      exact h_m
    · exact h_m

theorem setPrtCfg_stores (m : Mach) (p : List Byte) (h_m : storesWf m = true) :
    ansStores (setPrtCfg m p) := by
  unfold setPrtCfg
  dsimp only
  apply refuseFirst_stores
  simp only [ansStores]
  apply putPrtCfg_stores
  exact h_m

theorem cmdPrtCfg_stores (m : Mach) (w1 : Nat) (p : List Byte) (h_m : storesWf m = true) :
    ansStores (cmdPrtCfg m w1 p) := by
  unfold cmdPrtCfg
  apply persist_stores
  apply setPrtCfg_stores
  exact h_m

theorem execPrtCfg_stores (slot : Nat) (s : State) (h_s : storesWf s.m = true) :
    outStores (execPrtCfg slot s) := by
  unfold execPrtCfg
  apply command_stores
  · intro x0 x1 x2 h3
    apply cmdPrtCfg_stores
    exact h3
  · exact h_s

theorem resetNvm_stores (m : Mach) (k : RKind) (h_m : storesWf m = true) :
    storesWf (resetNvm m k) = true := by
  unfold resetNvm
  dsimp only
  apply ite_stores
  · apply mkNvm_stores
    · exact h_m
    · apply nvMk_stores
      apply nv_of_stores
      exact h_m
  · apply mkNvm_stores
    · apply tearWrite_stores
      exact h_m
    · apply nvMk_stores
      apply nv_of_stores
      apply tearWrite_stores
      exact h_m

theorem liveAgain_stores (m : Mach) (h_m : storesWf m = true) :
    storesWf (liveAgain m) = true := by
  unfold liveAgain
  dsimp only
  apply ite_stores
  · apply note_stores
    apply ite_stores
    · apply setLive_stores
      apply ite_stores
      · apply setLive_stores
        apply forAll_stores
        · exact h_m
        · intro x0 x1 h2
          apply ite_stores
          · apply setLive_stores
            exact h2
          · exact h2
      · apply forAll_stores
        · exact h_m
        · intro x3 x4 h5
          apply ite_stores
          · apply setLive_stores
            exact h5
          · exact h5
    · apply ite_stores
      · apply setLive_stores
        apply forAll_stores
        · exact h_m
        · intro x6 x7 h8
          apply ite_stores
          · apply setLive_stores
            exact h8
          · exact h8
      · apply forAll_stores
        · exact h_m
        · intro x9 x10 h11
          apply ite_stores
          · apply setLive_stores
            exact h11
          · exact h11
  · apply ite_stores
    · apply setLive_stores
      apply ite_stores
      · apply setLive_stores
        apply forAll_stores
        · exact h_m
        · intro x12 x13 h14
          apply ite_stores
          · apply setLive_stores
            exact h14
          · exact h14
      · apply forAll_stores
        · exact h_m
        · intro x15 x16 h17
          apply ite_stores
          · apply setLive_stores
            exact h17
          · exact h17
    · apply ite_stores
      · apply setLive_stores
        apply forAll_stores
        · exact h_m
        · intro x18 x19 h20
          apply ite_stores
          · apply setLive_stores
            exact h20
          · exact h20
      · apply forAll_stores
        · exact h_m
        · intro x21 x22 h23
          apply ite_stores
          · apply setLive_stores
            exact h23
          · exact h23

theorem stopPins_stores (m : Mach) (h_m : storesWf m = true) :
    storesWf (stopPins m) = true := by
  unfold stopPins
  apply forAll_stores
  · exact h_m
  · intro x0 x1 h2
    apply stopConv_stores
    exact h2

theorem stationReset_stores (m0 : Mach) (k : RKind) (rails : Bool) (h_m0 : storesWf m0 = true) :
    storesWf (stationReset m0 k rails) = true := by
  unfold stationReset
  dsimp only
  apply liveAgain_stores
  have hx : storesWf (resetNvm (endLink (stopPins m0) 9) k) = true := by
    apply resetNvm_stores
    apply endLink_stores
    apply stopPins_stores
    exact h_m0
  generalize resetNvm (endLink (stopPins m0) 9) k = x at hx ⊢
  apply mkMbx_stores
  · exact hx
  · split
    · exact mbx_of_stores hx
    · refine mbxWf_of rfl ?_
      have r := ring_of_stores hx
      simp only [ringOk, Bool.and_eq_true, decide_eq_true_eq] at r ⊢
      split <;> simp_all

theorem wdsRestart_stores (m : Mach) (h_m : storesWf m = true) :
    storesWf (wdsRestart m) = true := by
  unfold wdsRestart
  dsimp only
  apply ite_stores
  · exact h_m
  · apply mk_stores
    exact h_m

theorem dropBib_stores (m : Mach) (h_m : storesWf m = true) :
    storesWf (dropBib m) = true := by
  unfold dropBib
  dsimp only
  apply wdsRestart_stores
  apply forAll_stores
  · apply mk_stores
    exact h_m
  · intro x0 x1 h2
    apply modProc_stores
    exact h2

theorem enterHold_stores (m : Mach) (h_m : storesWf m = true) :
    storesWf (enterHold m) = true := by
  unfold enterHold
  dsimp only
  apply ite_stores
  · exact h_m
  · apply forAll_stores
    · apply note_stores
      apply mk_stores
      exact h_m
    · intro x0 x1 h2
      apply sendCaps_stores
      apply rejectReq_stores
      exact h2

theorem unparkAll_stores (m : Mach) (h_m : storesWf m = true) :
    storesWf (unparkAll m) = true := by
  unfold unparkAll
  dsimp only
  apply ite_stores
  · exact h_m
  · apply forAll_stores
    · apply forAll_stores
      · apply mk_stores
        exact h_m
      · intro x0 x1 h2
        apply offerAgain_stores
        exact h2
    · intro x3 x4 h5
      apply chgApply_stores
      exact h5

theorem takeJournal_stores (m : Mach) (h_m : storesWf m = true) :
    storesWf (takeJournal m) = true := by
  unfold takeJournal
  dsimp only
  have hm := forAll_stores m (m.mbx.accepted.filter fun s => (getSlot m s).deferred) abandonSlot h_m
    fun x i hx => abandonSlot_stores x i hx
  generalize forAll m _ abandonSlot = x at hm ⊢
  split
  · have k := ring_of_stores hm
    have hx := mem_of_stores hm
    exact setMbx_stores _ _ hm (flushWaiting_stores _ _ (mbxWf_of hx (ringOk_map _ k)))
  · exact hm

theorem takeBib_stores (m : Mach) (a : Nat) (h_m : storesWf m = true) :
    storesWf (takeBib m a) = true := by
  unfold takeBib
  dsimp only
  apply ite_stores
  · apply unparkAll_stores
    apply wdsRestart_stores
    apply mk_stores
    apply modProc_stores
    apply mk_stores
    apply takeJournal_stores
    exact h_m
  · apply wdsRestart_stores
    apply mk_stores
    apply modProc_stores
    apply mk_stores
    apply takeJournal_stores
    exact h_m

theorem modRegion_stores (m : Mach) (kind : Nat) (bank : Nat) (f : Region → Region) (h_m : storesWf m = true) :
    storesWf (modRegion m kind bank f) = true := by
  unfold modRegion
  dsimp only
  apply mk_stores
  exact h_m

theorem loadLimits_stores (m : Mach) (h_m : storesWf m = true) :
    storesWf (loadLimits m) = true := by
  unfold loadLimits
  dsimp only
  apply mk_stores
  exact h_m

theorem cmdFltDetailGet_stores (m : Mach) (w1 : Nat) (p : List Byte) (h_m : storesWf m = true) :
    ansStores (cmdFltDetailGet m w1 p) := by
  unfold cmdFltDetailGet
  dsimp only
  apply refuseFirst_stores
  simp only [ansStores]
  exact h_m

theorem execFltDetailGet_stores (slot : Nat) (s : State) (h_s : storesWf s.m = true) :
    outStores (execFltDetailGet slot s) := by
  unfold execFltDetailGet
  apply command_stores
  · intro x0 x1 x2 h3
    apply cmdFltDetailGet_stores
    exact h3
  · exact h_s

theorem inputGo_stores (m : Mach) (i : Nat) (h_m : storesWf m = true) :
    storesWf (inputGo m i) = true := by
  unfold inputGo
  apply ite_stores
  · apply requestStart_stores
    exact h_m
  · exact h_m

theorem portAgain_stores (m : Mach) (p : Nat) (h_m : storesWf m = true) :
    storesWf (portAgain m p) = true := by
  unfold portAgain
  dsimp only
  split
  · apply sourceBegin_stores
    exact h_m
  · apply requestStart_stores
    apply hardSend_stores
    apply modPd_stores
    apply mk_stores
    apply modCv_stores
    exact h_m
  · apply ite_stores
    · apply requestStart_stores
      apply modChg_stores
      exact h_m
    · apply modChg_stores
      exact h_m
  · exact h_m

theorem maskGroups_stores (m : Mach) (chs : List Nat) (w2 : Option Nat) (h_m : storesWf m = true) :
    storesWf (maskGroups m chs w2) = true := by
  unfold maskGroups
  apply forAll_stores
  · exact h_m
  · intro x0 x1 h2
    apply modTmon_stores
    exact h2

theorem releasePhase_stores (m : Mach) (k : Nat) (i : Nat) (h_m : storesWf m = true) :
    storesWf (releasePhase m k i) = true := by
  unfold releasePhase
  dsimp only
  apply maskGroups_stores
  apply modCv_stores
  exact h_m

theorem auxAgain_stores (m : Mach) (h_m : storesWf m = true) :
    storesWf (auxAgain m) = true := by
  unfold auxAgain
  dsimp only
  apply ite_stores
  · apply requestStart_stores
    apply auxEval_stores
    exact h_m
  · apply auxEval_stores
    exact h_m

theorem releaseBlock_stores (m : Mach) (b : Nat) (h_m : storesWf m = true) :
    storesWf (releaseBlock m b) = true := by
  unfold releaseBlock
  dsimp only
  apply ite_stores
  · apply ite_stores
    · apply portAgain_stores
      apply modBlk_stores
      apply modBlk_stores
      apply maskGroups_stores
      exact h_m
    · apply ite_stores
      · apply inputGo_stores
        apply ladderApply_stores
        apply rankRecompute_stores
        apply modBlk_stores
        apply maskGroups_stores
        exact h_m
      · apply auxAgain_stores
        apply modBlk_stores
        apply maskGroups_stores
        exact h_m
  · apply ite_stores
    · apply modBlk_stores
      exact h_m
    · split
      · exact h_m
      · apply forAll_stores
        · apply modCore_stores
          apply modBlk_stores
          exact h_m
        · intro x0 x1 h2
          apply ite_stores
          · apply takeOver_stores
            exact h2
          · exact h2

theorem releaseUnit_stores (m : Mach) (b : Nat) (u : Nat) (h_m : storesWf m = true) :
    storesWf (releaseUnit m b u) = true := by
  unfold releaseUnit
  apply ite_stores
  · apply releasePhase_stores
    exact h_m
  · apply releaseBlock_stores
    exact h_m

theorem cmdFltClear_stores (m : Mach) (w1 : Nat) (p : List Byte) (h_m : storesWf m = true) :
    ansStores (cmdFltClear m w1 p) := by
  unfold cmdFltClear
  dsimp only
  apply refuseFirst_stores
  simp only [ansStores]
  apply ite_stores
  · apply causeClear_stores
    apply ite_stores
    · apply releaseUnit_stores
      exact h_m
    · exact h_m
  · apply ite_stores
    · apply releaseUnit_stores
      exact h_m
    · exact h_m

theorem execFltClear_stores (slot : Nat) (s : State) (h_s : storesWf s.m = true) :
    outStores (execFltClear slot s) := by
  unfold execFltClear
  apply command_stores
  · intro x0 x1 x2 h3
    apply cmdFltClear_stores
    exact h3
  · exact h_s

theorem fenceUnit_stores (m : Mach) (b : Nat) (u : Nat) (c : Cause) (sev : Nat) (h_m : storesWf m = true) :
    storesWf (fenceUnit m b u c sev) = true := by
  unfold fenceUnit
  dsimp only
  apply ite_stores
  · apply ite_stores
    · apply fencePhase_stores
      exact h_m
    · apply fenceConv_stores
      apply note_stores
      exact h_m
  · apply ite_stores
    · apply storeFence_stores
      apply note_stores
      exact h_m
    · apply coreFence_stores
      apply note_stores
      exact h_m

theorem cmdFltFence_stores (m : Mach) (w1 : Nat) (p : List Byte) (h_m : storesWf m = true) :
    ansStores (cmdFltFence m w1 p) := by
  unfold cmdFltFence
  dsimp only
  apply refuseFirst_stores
  simp only [ansStores]
  apply fenceUnit_stores
  apply ite_stores
  · apply maskGroups_stores
    exact h_m
  · exact h_m

theorem execFltFence_stores (slot : Nat) (s : State) (h_s : storesWf s.m = true) :
    outStores (execFltFence slot s) := by
  unfold execFltFence
  apply command_stores
  · intro x0 x1 x2 h3
    apply cmdFltFence_stores
    exact h3
  · exact h_s

theorem execHwOv_stores (conv : Nat) (mv1 : Nat) (mv2 : Nat) (s : State) (h_s : storesWf s.m = true) :
    outStores (execHwOv conv mv1 mv2 s) := by
  unfold execHwOv
  apply guardUnit_stores
  · exact h_s
  · apply when_stores
    · exact h_s
    · intro x0 h1
      apply fault_stores
      exact h1

theorem sysCrit_stores (m : Mach) (sys : Nat) (h_m : storesWf m = true) :
    storesWf (sysCrit m sys) = true := by
  unfold sysCrit
  dsimp only
  apply ite_stores
  · apply mk_stores
    apply forAll_stores
    · apply note_stores
      apply mk_stores
      exact h_m
    · intro x0 x1 h2
      apply stopRun_stores
      exact h2
  · apply ite_stores
    · apply mk_stores
      apply forAll_stores
      · apply mk_stores
        apply forAll_stores
        · apply note_stores
          apply mk_stores
          exact h_m
        · intro x3 x4 h5
          apply stopRun_stores
          exact h5
      · intro x6 x7 h8
        apply lowSignal_stores
        exact h8
    · apply mk_stores
      exact h_m

theorem execSysCrit_stores (sysMv : Nat) (s : State) (h_s : storesWf s.m = true) :
    outStores (execSysCrit sysMv s) := by
  unfold execSysCrit
  apply guardRead_stores
  · exact h_s
  · apply sysCrit_stores
    exact h_s

theorem sysCritRecover_stores (m : Mach) (sys : Nat) (h_m : storesWf m = true) :
    storesWf (sysCritRecover m sys) = true := by
  unfold sysCritRecover
  dsimp only
  apply forAll_stores
  · apply mk_stores
    exact h_m
  · intro x0 x1 h2
    apply ite_stores
    · apply inputGo_stores
      exact h2
    · apply ite_stores
      · apply requestStart_stores
        exact h2
      · exact h2

theorem execSysCritRecover_stores (sysMv : Nat) (s : State) (h_s : storesWf s.m = true) :
    outStores (execSysCritRecover sysMv s) := by
  unfold execSysCritRecover
  apply guardRead_stores
  · exact h_s
  · apply when_stores
    · exact h_s
    · intro x0 h1
      apply sysCritRecover_stores
      exact h1

theorem execSysUv1_stores (sysMv : Nat) (s : State) (h_s : storesWf s.m = true) :
    outStores (execSysUv1 sysMv s) := by
  unfold execSysUv1
  dsimp only
  apply guardRead_stores
  · exact h_s
  · apply when_stores
    · exact h_s
    · intro x0 h1
      apply detectDep_stores
      apply mk_stores
      exact h1

theorem sysRecover_stores (m : Mach) (sys : Nat) (h_m : storesWf m = true) :
    storesWf (sysRecover m sys) = true := by
  unfold sysRecover
  dsimp only
  apply ite_stores
  · exact h_m
  · apply ite_stores
    · apply auxGrant_stores
      apply auxEval_stores
      apply forAll_stores
      · apply forAll_stores
        · apply mk_stores
          exact h_m
        · intro x0 x1 h2
          apply ite_stores
          · apply requestStart_stores
            apply modPd_stores
            exact h2
          · apply modPd_stores
            exact h2
      · intro x3 x4 h5
        apply ite_stores
        · apply portAgain_stores
          exact h5
        · apply ite_stores
          · apply inputGo_stores
            exact h5
          · exact h5
    · apply auxEval_stores
      apply forAll_stores
      · apply forAll_stores
        · apply mk_stores
          exact h_m
        · intro x6 x7 h8
          apply ite_stores
          · apply requestStart_stores
            apply modPd_stores
            exact h8
          · apply modPd_stores
            exact h8
      · intro x9 x10 h11
        apply ite_stores
        · apply portAgain_stores
          exact h11
        · apply ite_stores
          · apply inputGo_stores
            exact h11
          · exact h11

theorem execSysRecover_stores (sysMv : Nat) (s : State) (h_s : storesWf s.m = true) :
    outStores (execSysRecover sysMv s) := by
  unfold execSysRecover
  apply guardRead_stores
  · exact h_s
  · apply sysRecover_stores
    exact h_s

theorem rearmPd_stores (m : Mach) (p : Nat) (h_m : storesWf m = true) :
    storesWf (rearmPd m p) = true := by
  unfold rearmPd
  dsimp only
  apply modPd_stores
  exact h_m

theorem windowEnd_stores (m : Mach) (origin : Nat) (h_m : storesWf m = true) :
    storesWf (windowEnd m origin) = true := by
  unfold windowEnd
  dsimp only
  split
  · exact h_m
  · apply forAll_stores
    · apply mk_stores
      apply advanceTo_stores
      exact h_m
    · intro x0 x1 h2
      apply rearmPd_stores
      apply modProt_stores
      exact h2

theorem execWindowEnd_stores (origin : Nat) (s : State) (h_s : storesWf s.m = true) :
    outStores (execWindowEnd origin s) := by
  unfold execWindowEnd
  apply guardUnit_stores
  · exact h_s
  · apply windowEnd_stores
    exact h_s

theorem tsdAct_stores (m : Mach) (h_m : storesWf m = true) :
    storesWf (tsdAct m) = true := by
  unfold tsdAct
  dsimp only
  apply mk_stores
  apply setLive_stores
  apply note_stores
  apply note_stores
  apply forAll_stores
  · apply forAll_stores
    · apply forAll_stores
      · exact h_m
      · intro x0 x1 h2
        apply fenceConv_stores
        apply setLive_stores
        apply note_stores
        exact h2
    · intro x3 x4 h5
      apply markFence_stores
      apply setLive_stores
      apply note_stores
      exact h5
  · intro x6 x7 h8
    split
    · apply errorRecovery_stores
      exact h8
    · exact h8

theorem execTsd_stores (sensor : Nat) (s : State) (h_s : storesWf s.m = true) :
    outStores (execTsd sensor s) := by
  unfold execTsd
  apply guardUnit_stores
  · exact h_s
  · apply when_stores
    · exact h_s
    · intro x0 h1
      apply tsdAct_stores
      exact h1

theorem tsdRelease_stores (m : Mach) (h_m : storesWf m = true) :
    storesWf (tsdRelease m) = true := by
  unfold tsdRelease
  dsimp only
  apply ite_stores
  · apply mk_stores
    apply forAll_stores
    · apply setLive_stores
      exact h_m
    · intro x0 x1 h2
      apply setLive_stores
      exact h2
  · apply mk_stores
    apply forAll_stores
    · apply ite_stores
      · apply chgEnter_stores
        apply ladderApply_stores
        apply rankRecompute_stores
        apply forAll_stores
        · apply mk_stores
          apply forAll_stores
          · apply setLive_stores
            exact h_m
          · intro x3 x4 h5
            apply setLive_stores
            exact h5
        · intro x6 x7 h8
          apply modBlk_stores
          exact h8
      · apply ladderApply_stores
        apply rankRecompute_stores
        apply forAll_stores
        · apply mk_stores
          apply forAll_stores
          · apply setLive_stores
            exact h_m
          · intro x9 x10 h11
            apply setLive_stores
            exact h11
        · intro x12 x13 h14
          apply modBlk_stores
          exact h14
    · intro x15 x16 h17
      apply ite_stores
      · apply startCheck_stores
        exact h17
      · apply ite_stores
        · apply modChg_stores
          exact h17
        · exact h17

theorem execTsdRelease_stores (s : State) (h_s : storesWf s.m = true) :
    outStores (execTsdRelease s) := by
  unfold execTsdRelease
  apply next_stores
  apply when_stores
  · exact h_s
  · intro x0 h1
    apply tsdRelease_stores
    exact h1

theorem tsdRestart_stores (m : Mach) (h_m : storesWf m = true) :
    storesWf (tsdRestart m) = true := by
  unfold tsdRestart
  dsimp only
  split
  · apply mk_stores
    exact h_m
  · apply ite_stores
    · apply portAgain_stores
      apply mk_stores
      exact h_m
    · apply ite_stores
      · apply inputGo_stores
        apply mk_stores
        exact h_m
      · apply auxGrant_stores
        apply mk_stores
        exact h_m

theorem execTsdRestart_stores (s : State) (h_s : storesWf s.m = true) :
    outStores (execTsdRestart s) := by
  unfold execTsdRestart
  apply next_stores
  apply fire_stores
  · exact h_s
  · intro x0 h1
    apply tsdRestart_stores
    exact h1

theorem pprDo_stores (m : Mach) (a : Nat) (h_m : storesWf m = true) :
    storesWf (pprDo m a) = true := by
  unfold pprDo
  dsimp only
  apply mk_stores
  apply modProc_stores
  apply modBlk_stores
  exact h_m

theorem updFail_stores (m : Mach) (verdict : Nat) (h_m : storesWf m = true) :
    storesWf (updFail m verdict) = true := by
  unfold updFail
  dsimp only
  apply mk_stores
  apply closeEntry_stores
  exact h_m

theorem updFailover_stores (m : Mach) (h : Nat) (h_m : storesWf m = true) :
    storesWf (updFailover m h) = true := by
  unfold updFailover
  apply ite_stores
  · exact h_m
  · apply ite_stores
    · exact h_m
    · apply ite_stores
      · apply updFail_stores
        apply modRegion_stores
        exact h_m
      · apply updFail_stores
        apply pprDo_stores
        exact h_m

theorem escReset_stores (m : Mach) (h_m : storesWf m = true) :
    storesWf (escReset m) = true := by
  unfold escReset
  dsimp only
  apply ite_stores
  · apply mk_stores
    apply stationReset_stores
    apply mk_stores
    apply ite_stores
    · apply updFail_stores
      apply modRegion_stores
      exact h_m
    · exact h_m
  · apply stationReset_stores
    apply mk_stores
    apply ite_stores
    · apply updFail_stores
      apply modRegion_stores
      exact h_m
    · exact h_m

theorem failover_stores (m : Mach) (c : FailCause) (h_m : storesWf m = true) :
    storesWf (failover m c) = true := by
  unfold failover
  dsimp only
  split
  · exact h_m
  · apply ite_stores
    · apply escReset_stores
      exact h_m
    · apply mk_stores
      apply dropBib_stores
      apply modProc_stores
      apply updFailover_stores
      split
      · apply ite_stores
        · apply markFence_stores
          apply note_stores
          exact h_m
        · apply closeEntry_stores
          apply markFence_stores
          apply note_stores
          exact h_m
      · apply markFence_stores
        apply note_stores
        exact h_m

theorem execFailover_stores (cause : FailCause) (s : State) (h_s : storesWf s.m = true) :
    outStores (execFailover cause s) := by
  unfold execFailover
  apply next_stores
  apply failover_stores
  exact h_s

theorem moveBib_stores (m : Mach) (h : Nat) (h_m : storesWf m = true) :
    storesWf (moveBib m h) = true := by
  unfold moveBib
  dsimp only
  apply ite_stores
  · apply takeBib_stores
    apply mk_stores
    exact h_m
  · apply enterHold_stores
    apply mk_stores
    exact h_m

theorem execHaltAck_stores (s : State) (h_s : storesWf s.m = true) :
    outStores (execHaltAck s) := by
  unfold execHaltAck
  dsimp only
  apply next_stores
  split
  · exact h_s
  · apply moveBib_stores
    apply modProc_stores
    exact h_s

theorem execHaltTimeout_stores (s : State) (h_s : storesWf s.m = true) :
    outStores (execHaltTimeout s) := by
  unfold execHaltTimeout
  dsimp only
  apply next_stores
  split
  · exact h_s
  · apply fire_stores
    · exact h_s
    · intro x0 h1
      apply moveBib_stores
      apply pprDo_stores
      apply modBlk_stores
      exact h1

theorem execPprAuto_stores (proc : Nat) (s : State) (h_s : storesWf s.m = true) :
    outStores (execPprAuto proc s) := by
  unfold execPprAuto
  apply guardUnit_stores
  · exact h_s
  · apply fire_stores
    · exact h_s
    · intro x0 h1
      apply pprDo_stores
      exact h1

theorem cmdBibHandover_stores (m : Mach) (s : Nat) (w2 : List Byte) (h_m : storesWf m = true) :
    ansStores (cmdBibHandover m s w2) := by
  unfold cmdBibHandover
  dsimp only
  apply refuseFirst_stores
  simp only [ansStores]
  apply mk_stores
  exact h_m

theorem execBibHandover_stores (slot : Nat) (s : State) (h_s : storesWf s.m = true) :
    outStores (execBibHandover slot s) := by
  unfold execBibHandover
  apply command_stores
  · intro x0 x1 x2 h3
    apply cmdBibHandover_stores
    exact h3
  · exact h_s

theorem handoverMove_stores (m : Mach) (h_m : storesWf m = true) :
    storesWf (handoverMove m) = true := by
  unfold handoverMove
  dsimp only
  split
  · apply ite_stores
    · apply ite_stores
      · apply mk_stores
        apply takeBib_stores
        apply modProc_stores
        apply mk_stores
        apply ite_stores
        · exact h_m
        · apply closeEntry_stores
          exact h_m
      · apply takeBib_stores
        apply modProc_stores
        apply mk_stores
        apply ite_stores
        · exact h_m
        · apply closeEntry_stores
          exact h_m
    · apply ite_stores
      · apply updFail_stores
        apply pprDo_stores
        apply mk_stores
        exact h_m
      · apply closeEntry_stores
        apply mk_stores
        exact h_m
  · exact h_m

theorem execHandoverOwnerMove_stores (s : State) (h_s : storesWf s.m = true) :
    outStores (execHandoverOwnerMove s) := by
  unfold execHandoverOwnerMove
  apply next_stores
  apply handoverMove_stores
  exact h_s

theorem syncSet_stores (m : Mach) (a : Nat) (h_m : storesWf m = true) :
    storesWf (syncSet m a) = true := by
  unfold syncSet
  dsimp only
  apply ite_stores
  · exact h_m
  · apply ite_stores
    · apply takeBib_stores
      apply modProc_stores
      exact h_m
    · apply ite_stores
      · apply mk_stores
        apply modProc_stores
        exact h_m
      · apply modProc_stores
        exact h_m

theorem execSyncSet_stores (proc : Nat) (s : State) (h_s : storesWf s.m = true) :
    outStores (execSyncSet proc s) := by
  unfold execSyncSet
  apply guardUnit_stores
  · exact h_s
  · apply syncSet_stores
    exact h_s

theorem limitsSwap_stores (m : Mach) (h_m : storesWf m = true) :
    storesWf (limitsSwap m) = true := by
  unfold limitsSwap
  dsimp only
  split
  · exact h_m
  · apply ite_stores
    · apply mk_stores
      exact h_m
    · apply mk_stores
      exact h_m

theorem cpApply_stores (m : Mach) (w1 : CpWrite) (h_m : storesWf m = true) :
    storesWf (cpApply m w1) = true := by
  unfold cpApply
  dsimp only
  split
  · apply setRef_stores
    exact h_m
  · apply modCtrl_stores
    exact h_m
  · apply ite_stores
    · apply modCtrl_stores
      exact h_m
    · apply modCtrl_stores
      exact h_m
  · apply modCtrl_stores
    exact h_m
  · apply ite_stores
    · apply fenceUnit_stores
      exact h_m
    · exact h_m
  · apply ite_stores
    · apply releaseUnit_stores
      exact h_m
    · exact h_m
  · apply modHold_stores
    exact h_m
  · apply setRef_stores
    apply setRef_stores
    exact h_m
  · apply ite_stores
    · apply ladderApply_stores
      apply modChg_stores
      exact h_m
    · apply setRef_stores
      apply modChg_stores
      exact h_m
  · apply ladderApply_stores
    apply mk_stores
    exact h_m
  · apply setRef_stores
    apply setRef_stores
    exact h_m
  · apply limitsSwap_stores
    exact h_m

theorem execControlPlaneWrite_stores (proc : Nat) (w : CpWrite) (s : State) (h_s : storesWf s.m = true) :
    outStores (execControlPlaneWrite proc w s) := by
  unfold execControlPlaneWrite
  apply guardUnit_stores
  · exact h_s
  · apply ite_stores
    · apply cpApply_stores
      exact h_s
    · apply note_stores
      exact h_s

theorem parkStart_stores (m : Mach) (h_m : storesWf m = true) :
    storesWf (parkStart m) = true := by
  unfold parkStart
  dsimp only
  apply mk_stores
  exact h_m

theorem holdTimeExpire_stores (m : Mach) (h_m : storesWf m = true) :
    storesWf (holdTimeExpire m) = true := by
  unfold holdTimeExpire
  dsimp only
  apply ite_stores
  · apply setMode_stores
    apply forAll_stores
    · apply parkStart_stores
      apply mk_stores
      exact h_m
    · intro x0 x1 h2
      apply chgApply_stores
      exact h2
  · apply forAll_stores
    · apply parkStart_stores
      apply mk_stores
      exact h_m
    · intro x3 x4 h5
      apply chgApply_stores
      exact h5

theorem execHoldTimeExpire_stores (s : State) (h_s : storesWf s.m = true) :
    outStores (execHoldTimeExpire s) := by
  unfold execHoldTimeExpire
  apply next_stores
  apply fire_stores
  · exact h_s
  · intro x0 h1
    apply when_stores
    · exact h1
    · intro x2 h3
      apply holdTimeExpire_stores
      exact h3

theorem holdParkStep_stores (m : Mach) (w1 : Nat) (h_m : storesWf m = true) :
    storesWf (holdParkStep m w1) = true := by
  unfold holdParkStep
  dsimp only
  split
  · apply mk_stores
    exact h_m
  · apply mk_stores
    apply hardSignal_stores
    exact h_m

theorem execHoldParkStep_stores (s : State) (h_s : storesWf s.m = true) :
    outStores (execHoldParkStep s) := by
  unfold execHoldParkStep
  apply next_stores
  apply fire_stores
  · exact h_s
  · intro x0 h1
    apply holdParkStep_stores
    exact h1

theorem setHoldCfg_stores (m : Mach) (p : List Byte) (h_m : storesWf m = true) :
    ansStores (setHoldCfg m p) := by
  unfold setHoldCfg
  dsimp only
  apply refuseFirst_stores
  simp only [ansStores]
  apply mk_stores
  exact h_m

theorem cmdGrdHoldCfg_stores (m : Mach) (w1 : Nat) (p : List Byte) (h_m : storesWf m = true) :
    ansStores (cmdGrdHoldCfg m w1 p) := by
  unfold cmdGrdHoldCfg
  apply persist_stores
  apply setHoldCfg_stores
  exact h_m

theorem execGrdHoldCfg_stores (slot : Nat) (s : State) (h_s : storesWf s.m = true) :
    outStores (execGrdHoldCfg slot s) := by
  unfold execGrdHoldCfg
  apply command_stores
  · intro x0 x1 x2 h3
    apply cmdGrdHoldCfg_stores
    exact h3
  · exact h_s

theorem dieLost_stores (m : Mach) (d : Nat) (h_m : storesWf m = true) :
    storesWf (dieLost m d) = true := by
  unfold dieLost
  dsimp only
  apply fenceDie_stores
  apply ite_stores
  · apply mk_stores
    apply forAll_stores
    · apply note_stores
      exact h_m
    · intro x0 x1 h2
      apply migrationLeft_stores
      exact h2
  · apply forAll_stores
    · apply note_stores
      exact h_m
    · intro x3 x4 h5
      apply migrationLeft_stores
      exact h5

theorem execDieLinkLoss_stores (die : Nat) (s : State) (h_s : storesWf s.m = true) :
    outStores (execDieLinkLoss die s) := by
  unfold execDieLinkLoss
  apply guardUnit_stores
  · exact h_s
  · apply when_stores
    · exact h_s
    · intro x0 h1
      apply dieLost_stores
      exact h1

theorem execLinkGlitch_stores (die : Nat) (s : State) (h_s : storesWf s.m = true) :
    outStores (execLinkGlitch die s) := by
  unfold execLinkGlitch
  apply guardUnit_stores
  · exact h_s
  · apply note_stores
    exact h_s

theorem execFeHeartbeatLoss_stores (die : Nat) (s : State) (h_s : storesWf s.m = true) :
    outStores (execFeHeartbeatLoss die s) := by
  unfold execFeHeartbeatLoss
  dsimp only
  apply guardUnit_stores
  · exact h_s
  · apply forAll_stores
    · apply mk_stores
      apply ite_stores
      · apply dieLost_stores
        exact h_s
      · exact h_s
    · intro x0 x1 h2
      apply modPort_stores
      apply modCv_stores
      exact h2

theorem ferBegin_stores (m : Mach) (d : Nat) (h_m : storesWf m = true) :
    storesWf (ferBegin m d) = true := by
  unfold ferBegin
  dsimp only
  apply mk_stores
  apply ite_stores
  · apply feWLost_stores
    apply modBlk_stores
    apply forAll_stores
    · apply mk_stores
      apply forAll_stores
      · exact h_m
      · intro x0 x1 h2
        split
        · apply sourceStop_stores
          exact h2
        · apply sinkStop_stores
          exact h2
        · apply bayGone_stores
          exact h2
        · exact h2
    · intro x3 x4 h5
      apply modPort_stores
      exact h5
  · apply modBlk_stores
    apply forAll_stores
    · apply mk_stores
      apply forAll_stores
      · exact h_m
      · intro x6 x7 h8
        split
        · apply sourceStop_stores
          exact h8
        · apply sinkStop_stores
          exact h8
        · apply bayGone_stores
          exact h8
        · exact h8
    · intro x9 x10 h11
      apply modPort_stores
      exact h11

theorem ferAsk_stores (m : Mach) (d : Nat) (h_m : storesWf m = true) :
    storesWf (ferAsk m d) = true := by
  unfold ferAsk
  apply ite_stores
  · exact h_m
  · apply ferBegin_stores
    exact h_m

theorem execFerAuto_stores (die : Nat) (s : State) (h_s : storesWf s.m = true) :
    outStores (execFerAuto die s) := by
  unfold execFerAuto
  dsimp only
  apply guardUnit_stores
  · exact h_s
  · apply fire_stores
    · exact h_s
    · intro x0 h1
      apply ferAsk_stores
      apply mk_stores
      exact h1

theorem ferDone_stores (m : Mach) (d : Nat) (h_m : storesWf m = true) :
    storesWf (ferDone m d) = true := by
  unfold ferDone
  dsimp only
  apply forAll_stores
  · apply modBlk_stores
    apply mk_stores
    exact h_m
  · intro x0 x1 h2
    apply ite_stores
    · apply modChg_stores
      apply modPort_stores
      apply modCv_stores
      apply modBlk_stores
      apply modBlk_stores
      exact h2
    · apply goUnattached_stores
      apply modPort_stores
      apply modCv_stores
      apply modBlk_stores
      apply modBlk_stores
      exact h2

theorem execFerDone_stores (die : Nat) (s : State) (h_s : storesWf s.m = true) :
    outStores (execFerDone die s) := by
  unfold execFerDone
  apply guardUnit_stores
  · exact h_s
  · apply fire_stores
    · exact h_s
    · intro x0 h1
      apply ferDone_stores
      exact h1

theorem execFeWRejoin_stores (s : State) (h_s : storesWf s.m = true) :
    outStores (execFeWRejoin s) := by
  unfold execFeWRejoin
  apply next_stores
  apply when_stores
  · exact h_s
  · intro x0 h1
    apply chgEnter_stores
    exact h1

theorem mclkStop_stores (m : Mach) (h_m : storesWf m = true) :
    storesWf (mclkStop m) = true := by
  unfold mclkStop
  dsimp only
  apply enterHold_stores
  apply dropBib_stores
  apply setLive_stores
  apply note_stores
  apply mk_stores
  apply forAll_stores
  · apply mk_stores
    exact h_m
  · intro x0 x1 h2
    apply modProc_stores
    exact h2

theorem execMclkLoss_stores (s : State) (h_s : storesWf s.m = true) :
    outStores (execMclkLoss s) := by
  unfold execMclkLoss
  apply next_stores
  apply when_stores
  · exact h_s
  · intro x0 h1
    apply mclkStop_stores
    exact h1

theorem clkStop_stores (m : Mach) (dom : Nat) (h_m : storesWf m = true) :
    storesWf (clkStop m dom) = true := by
  unfold clkStop
  dsimp only
  apply ite_stores
  · apply mk_stores
    apply setLive_stores
    apply note_stores
    apply mk_stores
    exact h_m
  · apply forAll_stores
    · apply forAll_stores
      · apply forAll_stores
        · apply mk_stores
          apply setLive_stores
          apply note_stores
          apply mk_stores
          exact h_m
        · intro x0 x1 h2
          apply fenceConv_stores
          apply setLive_stores
          apply note_stores
          exact h2
      · intro x3 x4 h5
        apply markFence_stores
        apply setLive_stores
        apply note_stores
        exact h5
    · intro x6 x7 h8
      apply modCv_stores
      exact h8

theorem execClkLoss_stores (dom : Nat) (s : State) (h_s : storesWf s.m = true) :
    outStores (execClkLoss dom s) := by
  unfold execClkLoss
  apply guardUnit_stores
  · exact h_s
  · apply when_stores
    · exact h_s
    · intro x0 h1
      apply clkStop_stores
      exact h1

theorem usbDrop_stores (m : Mach) (h_m : storesWf m = true) :
    storesWf (usbDrop m) = true := by
  unfold usbDrop
  apply ite_stores
  · exact h_m
  · dsimp only
    apply stavskaEnd_stores
    apply draw_stores
    exact h_m

theorem xinStop_stores (m : Mach) (h_m : storesWf m = true) :
    storesWf (xinStop m) = true := by
  unfold xinStop
  dsimp only
  apply mclkStop_stores
  apply clkStop_stores
  apply clkStop_stores
  apply clkStop_stores
  apply mk_stores
  split
  · apply tornPage_stores
    apply usbDrop_stores
    exact h_m
  · apply usbDrop_stores
    exact h_m

theorem execXinLoss_stores (s : State) (h_s : storesWf s.m = true) :
    outStores (execXinLoss s) := by
  unfold execXinLoss
  apply next_stores
  apply when_stores
  · exact h_s
  · intro x0 h1
    apply xinStop_stores
    exact h1

theorem execEstclkLoss_stores (s : State) (h_s : storesWf s.m = true) :
    outStores (execEstclkLoss s) := by
  unfold execEstclkLoss
  dsimp only
  apply next_stores
  apply mk_stores
  exact h_s

theorem execUsbclkLoss_stores (s : State) (h_s : storesWf s.m = true) :
    outStores (execUsbclkLoss s) := by
  unfold execUsbclkLoss
  dsimp only
  apply next_stores
  apply mk_stores
  apply usbDrop_stores
  exact h_s

theorem execAonclkLoss_stores (s : State) (h_s : storesWf s.m = true) :
    outStores (execAonclkLoss s) := by
  unfold execAonclkLoss
  dsimp only
  apply next_stores
  apply when_stores
  · exact h_s
  · intro x0 h1
    apply note_stores
    apply mk_stores
    exact h1

theorem wdCountUp_stores (m : Mach) (h_m : storesWf m = true) :
    storesWf (wdCountUp m) = true := by
  unfold wdCountUp
  dsimp only
  apply mk_stores
  exact h_m

theorem wdhStart_stores (m : Mach) (st : WdhState) (h_m : storesWf m = true) :
    storesWf (wdhStart m st) = true := by
  unfold wdhStart
  dsimp only
  apply mk_stores
  exact h_m

theorem wdhParkOn_stores (m : Mach) (h_m : storesWf m = true) :
    storesWf (wdhParkOn m) = true := by
  unfold wdhParkOn
  dsimp only
  apply forAll_stores
  · apply parkStart_stores
    apply mk_stores
    exact h_m
  · intro x0 x1 h2
    apply chgApply_stores
    exact h2

theorem wdhParkOff_stores (m : Mach) (h_m : storesWf m = true) :
    storesWf (wdhParkOff m) = true := by
  unfold wdhParkOff
  dsimp only
  apply ite_stores
  · apply unparkAll_stores
    apply mk_stores
    exact h_m
  · exact h_m

theorem wdhPulse_stores (m : Mach) (h_m : storesWf m = true) :
    storesWf (wdhPulse m) = true := by
  unfold wdhPulse
  dsimp only
  apply mk_stores
  apply wdCountUp_stores
  exact h_m

theorem hostLost_stores (m : Mach) (c : Cause) (h_m : storesWf m = true) :
    storesWf (hostLost m c) = true := by
  unfold hostLost
  dsimp only
  apply ite_stores
  · apply wdhParkOn_stores
    apply wdhPulse_stores
    apply mk_stores
    apply note_stores
    exact h_m
  · apply wdhPulse_stores
    apply mk_stores
    apply note_stores
    exact h_m

theorem wdhServe_stores (m : Mach) (key : Nat) (h_m : storesWf m = true) :
    storesWf (wdhServe m key) = true := by
  unfold wdhServe
  dsimp only
  apply ite_stores
  · exact h_m
  · apply ite_stores
    · apply wdhStart_stores
      apply mk_stores
      exact h_m
    · apply ite_stores
      · apply note_stores
        apply mk_stores
        exact h_m
      · apply ite_stores
        · exact h_m
        · split
          · apply wdhStart_stores
            exact h_m
          · apply ite_stores
            · exact h_m
            · apply ite_stores
              · apply hostLost_stores
                apply mk_stores
                exact h_m
              · apply wdhStart_stores
                exact h_m
          · apply ite_stores
            · exact h_m
            · apply wdhParkOff_stores
              apply wdhStart_stores
              exact h_m

theorem execWdhServe_stores (key : Nat) (s : State) (h_s : storesWf s.m = true) :
    outStores (execWdhServe key s) := by
  unfold execWdhServe
  apply guardUnit_stores
  · exact h_s
  · apply wdhServe_stores
    exact h_s

theorem wdhCtrlKey_stores (m : Mach) (key : Nat) (h_m : storesWf m = true) :
    storesWf (wdhCtrlKey m key) = true := by
  unfold wdhCtrlKey
  dsimp only
  apply ite_stores
  · exact h_m
  · split
    · apply ite_stores
      · apply mk_stores
        split
        · apply ite_stores
          · apply mk_stores
            exact h_m
          · exact h_m
        · exact h_m
      · apply mk_stores
        split
        · apply ite_stores
          · apply mk_stores
            exact h_m
          · exact h_m
        · exact h_m
    · apply ite_stores
      · apply mk_stores
        split
        · apply ite_stores
          · apply mk_stores
            exact h_m
          · exact h_m
        · exact h_m
      · apply mk_stores
        split
        · apply ite_stores
          · apply mk_stores
            exact h_m
          · exact h_m
        · exact h_m

theorem execWdhDisableSequence_stores (key : Nat) (s : State) (h_s : storesWf s.m = true) :
    outStores (execWdhDisableSequence key s) := by
  unfold execWdhDisableSequence
  apply guardUnit_stores
  · exact h_s
  · apply wdhCtrlKey_stores
    exact h_s

theorem wdhLockSet_stores (m : Mach) (h_m : storesWf m = true) :
    storesWf (wdhLockSet m) = true := by
  unfold wdhLockSet
  dsimp only
  apply mk_stores
  exact h_m

theorem execWdhLockSet_stores (s : State) (h_s : storesWf s.m = true) :
    outStores (execWdhLockSet s) := by
  unfold execWdhLockSet
  apply next_stores
  apply wdhLockSet_stores
  exact h_s

theorem wdhCtrlWrite_stores (m : Mach) (w : Nat) (h_m : storesWf m = true) :
    storesWf (wdhCtrlWrite m w) = true := by
  unfold wdhCtrlWrite
  apply wdhCtrlKey_stores
  apply ite_stores
  · apply wdhLockSet_stores
    exact h_m
  · exact h_m

theorem wdhExpiry_stores (m : Mach) (h_m : storesWf m = true) :
    storesWf (wdhExpiry m) = true := by
  unfold wdhExpiry
  dsimp only
  apply ite_stores
  · exact h_m
  · apply ite_stores
    · apply hostLost_stores
      apply mk_stores
      apply advance_stores
      exact h_m
    · apply wdhPulse_stores
      apply mk_stores
      apply advance_stores
      exact h_m

theorem execWdhExpiry_stores (s : State) (h_s : storesWf s.m = true) :
    outStores (execWdhExpiry s) := by
  unfold execWdhExpiry
  apply next_stores
  apply wdhExpiry_stores
  exact h_s

theorem execHostrstPulseEnd_stores (s : State) (h_s : storesWf s.m = true) :
    outStores (execHostrstPulseEnd s) := by
  unfold execHostrstPulseEnd
  dsimp only
  apply next_stores
  apply fire_stores
  · exact h_s
  · intro x0 h1
    apply mk_stores
    exact h1

theorem wdhStatWrite_stores (m : Mach) (v : Nat) (h_m : storesWf m = true) :
    storesWf (wdhStatWrite m v) = true := by
  unfold wdhStatWrite
  dsimp only
  apply mk_stores
  exact h_m

theorem putWdhCfg_stores (m : Mach) (p : List Byte) (h_m : storesWf m = true) :
    storesWf (putWdhCfg m p) = true := by
  unfold putWdhCfg
  dsimp only
  apply mk_stores
  exact h_m

theorem setWdhCfg_stores (m : Mach) (p : List Byte) (h_m : storesWf m = true) :
    ansStores (setWdhCfg m p) := by
  unfold setWdhCfg
  dsimp only
  apply refuseFirst_stores
  simp only [ansStores]
  apply ite_stores
  · apply wdhParkOn_stores
    apply putWdhCfg_stores
    exact h_m
  · apply ite_stores
    · apply wdhParkOff_stores
      apply putWdhCfg_stores
      exact h_m
    · apply putWdhCfg_stores
      exact h_m

theorem cmdWdhCfgSet_stores (m : Mach) (w1 : Nat) (p : List Byte) (h_m : storesWf m = true) :
    ansStores (cmdWdhCfgSet m w1 p) := by
  unfold cmdWdhCfgSet
  apply persist_stores
  apply setWdhCfg_stores
  exact h_m

theorem execWdhCfgSet_stores (slot : Nat) (s : State) (h_s : storesWf s.m = true) :
    outStores (execWdhCfgSet slot s) := by
  unfold execWdhCfgSet
  apply command_stores
  · intro x0 x1 x2 h3
    apply cmdWdhCfgSet_stores
    exact h3
  · exact h_s

theorem wdsCheckin_stores (m : Mach) (proc : Nat) (sup : Bool) (word : Nat) (h_m : storesWf m = true) :
    storesWf (wdsCheckin m proc sup word) = true := by
  unfold wdsCheckin
  dsimp only
  apply ite_stores
  · apply mk_stores
    exact h_m
  · apply ite_stores
    · apply mk_stores
      exact h_m
    · apply ite_stores
      · apply mk_stores
        exact h_m
      · apply mk_stores
        exact h_m

theorem execWdsCheckin_stores (proc : Nat) (supervisor : Bool) (word : Nat) (s : State) (h_s : storesWf s.m = true) :
    outStores (execWdsCheckin proc supervisor word s) := by
  unfold execWdsCheckin
  apply guardUnit_stores
  · exact h_s
  · apply wdsCheckin_stores
    exact h_s

theorem wdsPeriodEnd_stores (m : Mach) (h_m : storesWf m = true) :
    storesWf (wdsPeriodEnd m) = true := by
  unfold wdsPeriodEnd
  dsimp only
  apply ite_stores
  · apply mk_stores
    exact h_m
  · apply failover_stores
    apply mk_stores
    apply wdCountUp_stores
    apply mk_stores
    apply ite_stores
    · apply modBlk_stores
      apply note_stores
      exact h_m
    · apply note_stores
      exact h_m

theorem execWdsPeriodEnd_stores (s : State) (h_s : storesWf s.m = true) :
    outStores (execWdsPeriodEnd s) := by
  unfold execWdsPeriodEnd
  apply next_stores
  apply fire_stores
  · exact h_s
  · intro x0 h1
    apply wdsPeriodEnd_stores
    exact h1

theorem execWdsEnable_stores (s : State) (h_s : storesWf s.m = true) :
    outStores (execWdsEnable s) := by
  unfold execWdsEnable
  dsimp only
  apply next_stores
  apply when_stores
  · exact h_s
  · intro x0 h1
    apply wdsRestart_stores
    apply mk_stores
    exact h1

theorem cmdWdsStatGet_stores (m : Mach) (w1 : Nat) (w2 : List Byte) (h_m : storesWf m = true) :
    ansStores (cmdWdsStatGet m w1 w2) := by
  unfold cmdWdsStatGet
  dsimp only
  simp only [ansStores]
  exact h_m

theorem execWdsStatGet_stores (slot : Nat) (s : State) (h_s : storesWf s.m = true) :
    outStores (execWdsStatGet slot s) := by
  unfold execWdsStatGet
  apply command_stores
  · intro x0 x1 x2 h3
    apply cmdWdsStatGet_stores
    exact h3
  · exact h_s

theorem cmdWdCountGet_stores (m : Mach) (w1 : Nat) (w2 : List Byte) (h_m : storesWf m = true) :
    ansStores (cmdWdCountGet m w1 w2) := by
  unfold cmdWdCountGet
  simp only [ansStores]
  exact h_m

theorem execWdCountGet_stores (slot : Nat) (s : State) (h_s : storesWf s.m = true) :
    outStores (execWdCountGet slot s) := by
  unfold execWdCountGet
  apply command_stores
  · intro x0 x1 x2 h3
    apply cmdWdCountGet_stores
    exact h3
  · exact h_s

theorem execWdTotalRaise_stores (s : State) (h_s : storesWf s.m = true) :
    outStores (execWdTotalRaise s) := by
  unfold execWdTotalRaise
  dsimp only
  apply next_stores
  apply when_stores
  · exact h_s
  · intro x0 h1
    apply nvmRaise_stores
    exact h1

theorem imageFences_stores (m : Mach) (h_m : storesWf m = true) :
    storesWf (imageFences m) = true := by
  unfold imageFences
  dsimp only
  split
  · apply forAll_stores
    · split
      · assumption
      · apply mk_stores
        apply markFence_stores
        apply note_stores
        exact h_m
    · intro x0 x1 h2
      apply modCore_stores
      exact h2
  · apply forAll_stores
    · split
      · assumption
      · apply mk_stores
        apply markFence_stores
        apply note_stores
        exact h_m
    · intro x3 x4 h5
      apply coreFence_stores
      apply note_stores
      exact h5

theorem procStart_stores (m : Mach) (h_m : storesWf m = true) :
    storesWf (procStart m) = true := by
  unfold procStart
  dsimp only
  split
  · apply enterHold_stores
    apply forAll_stores
    · apply imageFences_stores
      apply loadLimits_stores
      exact h_m
    · intro x0 x1 h2
      apply modProc_stores
      exact h2
  · apply takeBib_stores
    apply mk_stores
    apply forAll_stores
    · apply imageFences_stores
      apply loadLimits_stores
      exact h_m
    · intro x3 x4 h5
      apply modProc_stores
      exact h5

theorem execPor_stores (s : State) (h_s : storesWf s.m = true) :
    outStores (execPor s) := by
  unfold execPor
  apply next_stores
  apply stationReset_stores
  exact h_s

theorem execGdclkMissing_stores (s : State) (h_s : storesWf s.m = true) :
    outStores (execGdclkMissing s) := by
  unfold execGdclkMissing
  apply next_stores
  apply stationReset_stores
  exact h_s

theorem borReset_stores (m : Mach) (h_m : storesWf m = true) :
    storesWf (borReset m) = true := by
  unfold borReset
  dsimp only
  apply mk_stores
  apply stationReset_stores
  exact h_m

theorem execBor_stores (vpreMv : Nat) (s : State) (h_s : storesWf s.m = true) :
    outStores (execBor vpreMv s) := by
  unfold execBor
  apply next_stores
  apply when_stores
  · exact h_s
  · intro x0 h1
    apply borReset_stores
    exact h1

theorem pinReset_stores (m : Mach) (lowNs : Nat) (h_m : storesWf m = true) :
    storesWf (pinReset m lowNs) = true := by
  unfold pinReset
  apply ite_stores
  · exact h_m
  · apply ite_stores
    · apply advance_stores
      exact h_m
    · dsimp only
      apply ite_stores
      · apply advance_stores
        apply stationReset_stores
        split
        · apply draw_stores
          exact h_m
        · dsimp only
          exact h_m
      · apply advance_stores
        split
        · apply draw_stores
          exact h_m
        · dsimp only
          exact h_m

theorem execPinReset_stores (lowNs : Nat) (s : State) (h_s : storesWf s.m = true) :
    outStores (execPinReset lowNs s) := by
  unfold execPinReset
  apply next_stores
  apply pinReset_stores
  exact h_s

theorem resetPhaseEnd_stores (m : Mach) (vsts : Nat) (h_m : storesWf m = true) :
    storesWf (resetPhaseEnd m vsts) = true := by
  unfold resetPhaseEnd
  dsimp only
  apply procStart_stores
  apply ite_stores
  · apply mk_stores
    apply bfetSelect_stores
    apply ite_stores
    · apply storeFence_stores
      apply note_stores
      apply mk_stores
      apply advance_stores
      exact h_m
    · apply mk_stores
      apply advance_stores
      exact h_m
  · apply mk_stores
    apply advance_stores
    exact h_m

theorem execResetPhaseEnd_stores (vstsMv : Nat) (s : State) (h_s : storesWf s.m = true) :
    outStores (execResetPhaseEnd vstsMv s) := by
  unfold execResetPhaseEnd
  apply guardRead_stores
  · exact h_s
  · apply when_stores
    · exact h_s
    · intro x0 h1
      apply resetPhaseEnd_stores
      exact h1

theorem vpreUp_stores (m : Mach) (mv : Nat) (bootOnly : Bool) (h_m : storesWf m = true) :
    storesWf (vpreUp m mv bootOnly) = true := by
  unfold vpreUp
  dsimp only
  apply ite_stores
  · apply mk_stores
    split
    · apply draw_stores
      exact h_m
    · dsimp only
      exact h_m
  · split
    · apply draw_stores
      exact h_m
    · dsimp only
      exact h_m

theorem execVpreGood_stores (vpreMv : Nat) (bootOnly : Bool) (s : State) (h_s : storesWf s.m = true) :
    outStores (execVpreGood vpreMv bootOnly s) := by
  unfold execVpreGood
  apply next_stores
  apply when_stores
  · exact h_s
  · intro x0 h1
    apply vpreUp_stores
    exact h1

theorem execVioGood_stores (s : State) (h_s : storesWf s.m = true) :
    outStores (execVioGood s) := by
  unfold execVioGood
  dsimp only
  apply next_stores
  apply when_stores
  · exact h_s
  · intro x0 h1
    apply mk_stores
    exact h1

theorem execStrapLatch_stores (hsel : Nat) (hadr : Nat) (dbp : Nat) (s : State) (h_s : storesWf s.m = true) :
    outStores (execStrapLatch hsel hadr dbp s) := by
  unfold execStrapLatch
  dsimp only
  apply guardUnit_stores
  · exact h_s
  · apply when_stores
    · exact h_s
    · intro x0 h1
      apply mk_stores
      exact h1

theorem execHoldCharged_stores (holdMv : Nat) (s : State) (h_s : storesWf s.m = true) :
    outStores (execHoldCharged holdMv s) := by
  unfold execHoldCharged
  dsimp only
  apply next_stores
  apply when_stores
  · exact h_s
  · intro x0 h1
    apply mk_stores
    exact h1

theorem okOf_stores (m : Mach) (w1 : Ans) (h_m : storesWf m = true) (h_w1 : ansStores w1) :
    storesWf (okOf m w1) = true := by
  unfold okOf
  split
  · assumption
  · exact h_m

theorem putItem_stores (m : Mach) (code : Nat) (key : Nat) (p : List Byte) (h_m : storesWf m = true) :
    storesWf (putItem m code key p) = true := by
  unfold putItem
  dsimp only
  apply ite_stores
  · apply ite_stores
    · apply declare_stores
      exact h_m
    · exact h_m
  · apply ite_stores
    · apply pathDerive_stores
      apply modChg_stores
      exact h_m
    · apply ite_stores
      · apply okOf_stores
        · exact h_m
        · apply setChgEn_stores
          exact h_m
      · apply ite_stores
        · apply modPort_stores
          exact h_m
        · apply ite_stores
          · apply okOf_stores
            · exact h_m
            · apply setPdSrcCfg_stores
              exact h_m
          · apply ite_stores
            · apply okOf_stores
              · exact h_m
              · apply setPdSnkCfg_stores
                exact h_m
            · apply ite_stores
              · apply putKey_stores
                exact h_m
              · apply ite_stores
                · apply ite_stores
                  · exact h_m
                  · apply modRec_stores
                    exact h_m
                · apply ite_stores
                  · apply okOf_stores
                    · exact h_m
                    · apply setEstCfg_stores
                      exact h_m
                  · apply ite_stores
                    · apply putOcv_stores
                      exact h_m
                    · apply ite_stores
                      · apply okOf_stores
                        · exact h_m
                        · apply setThmCfg_stores
                          exact h_m
                      · apply ite_stores
                        · apply okOf_stores
                          · exact h_m
                          · apply setHoldCfg_stores
                            exact h_m
                        · apply ite_stores
                          · apply putWdhCfg_stores
                            exact h_m
                          · apply ite_stores
                            · apply mkNvm_stores
                              · exact h_m
                              · apply nvMk_stores
                                apply nv_of_stores
                                exact h_m
                            · apply ite_stores
                              · apply mk_stores
                                exact h_m
                              · exact h_m

theorem noteReverted_stores (m : Mach) (h_m : storesWf m = true) :
    storesWf (noteReverted m) = true := by
  unfold noteReverted
  dsimp only
  apply note_stores
  apply mkNvm_stores
  · exact h_m
  · apply nvMk_stores
    apply nv_of_stores
    exact h_m

theorem noteUnc_stores (m : Mach) (sev : Nat) (h_m : storesWf m = true) :
    storesWf (noteUnc m sev) = true := by
  unfold noteUnc
  dsimp only
  apply note_stores
  apply mkNvm_stores
  · exact h_m
  · apply nvMk_stores
    apply nv_of_stores
    exact h_m

theorem recallItems_stores (m : Mach) (h_m : storesWf m = true) :
    storesWf (recallItems m) = true := by
  unfold recallItems
  dsimp only
  apply foldl_stores
  · apply forAll_stores
    · apply mkNvm_stores
      · exact h_m
      · apply nvMk_stores
        apply nv_of_stores
        exact h_m
    · intro x0 x1 h2
      split
      · apply ite_stores
        · apply noteReverted_stores
          exact h2
        · apply ite_stores
          · apply ite_stores
            · apply noteUnc_stores
              apply draw_stores
              exact h2
            · apply draw_stores
              exact h2
          · exact h2
      · exact h2
  · intro x3 x4 h5
    apply foldl_stores
    · exact h5
    · intro x6 x7 h8
      split
      · apply putItem_stores
        exact h8
      · exact h8

theorem recallSlot_stores (m : Mach) (x : Nat) (h_m : storesWf m = true) :
    storesWf (recallSlot m x) = true := by
  unfold recallSlot
  dsimp only
  split
  · apply ite_stores
    · exact h_m
    · apply noteUnc_stores
      exact h_m
  · apply ite_stores
    · apply noteReverted_stores
      apply ite_stores
      · apply mk_stores
        apply modCtx_stores
        exact h_m
      · apply modCtx_stores
        exact h_m
    · apply modCtx_stores
      exact h_m

theorem recallSaved_stores (m : Mach) (pg : Nat) (h_m : storesWf m = true) :
    storesWf (recallSaved m pg) = true := by
  unfold recallSaved
  dsimp only
  apply ite_stores
  · apply nvmEnqueue_stores
    apply modCtx_stores
    exact h_m
  · exact h_m

theorem recallJournal_stores (m : Mach) (h_m : storesWf m = true) :
    storesWf (recallJournal m) = true := by
  unfold recallJournal
  dsimp only
  have k := ring_of_stores h_m
  have hm := mem_of_stores h_m
  split
  · exact h_m
  · rename_i e he
    refine setMbx_stores _ _ h_m (mbxWf_of hm ?_)
    simp only [ringOk, Bool.and_eq_true, decide_eq_true_eq] at k ⊢
    refine ⟨⟨⟨⟨?_, k.1.1.1.2⟩, k.1.1.2⟩, ?_⟩, ?_⟩
    · refine Nat.le_trans (flatMap_length_le _ 2 (fun j => ?_) _) (by simp)
      exact Nat.le_trans (List.length_filterMap_le _ _) (by simp)
    · unfold seqNext; split <;> omega
    · have hs : e.seq < 256 ^ 4 := by
        have hmem := List.mem_of_getLast? he
        obtain ⟨j, -, hj⟩ := List.mem_flatMap.mp hmem
        obtain ⟨h, -, hh⟩ := List.mem_filterMap.mp hj
        split at hh
        · cases hh
          exact pU_lt _ _ _
        · cases hh
      unfold seqNext; split <;> omega

theorem recallPower_stores (m : Mach) (h_m : storesWf m = true) :
    storesWf (recallPower m) = true := by
  unfold recallPower
  dsimp only
  apply ite_stores
  · apply nvmRaise_stores
    apply nvmRaise_stores
    apply mk_stores
    apply recallJournal_stores
    apply forAll_stores
    · apply mkNvm_stores
      · split
        · apply mkNvm_stores
          · apply restoreFast_stores
            exact h_m
          · apply nvMk_stores
            apply nv_of_stores
            apply restoreFast_stores
            exact h_m
        · apply ite_stores
          · apply noteUnc_stores
            exact h_m
          · exact h_m
      · apply nvMk_stores
        apply nv_of_stores
        split
        · apply mkNvm_stores
          · apply restoreFast_stores
            exact h_m
          · apply nvMk_stores
            apply nv_of_stores
            apply restoreFast_stores
            exact h_m
        · apply ite_stores
          · apply noteUnc_stores
            exact h_m
          · exact h_m
    · intro x0 x1 h2
      apply modCtx_stores
      exact h2
  · apply nvmRaise_stores
    apply mk_stores
    apply recallJournal_stores
    apply forAll_stores
    · apply mkNvm_stores
      · split
        · apply mkNvm_stores
          · apply restoreFast_stores
            exact h_m
          · apply nvMk_stores
            apply nv_of_stores
            apply restoreFast_stores
            exact h_m
        · apply ite_stores
          · apply noteUnc_stores
            exact h_m
          · exact h_m
      · apply nvMk_stores
        apply nv_of_stores
        split
        · apply mkNvm_stores
          · apply restoreFast_stores
            exact h_m
          · apply nvMk_stores
            apply nv_of_stores
            apply restoreFast_stores
            exact h_m
        · apply ite_stores
          · apply noteUnc_stores
            exact h_m
          · exact h_m
    · intro x3 x4 h5
      apply modCtx_stores
      exact h5

theorem recallComplete_stores (m : Mach) (h_m : storesWf m = true) :
    storesWf (recallComplete m) = true := by
  unfold recallComplete
  dsimp only
  apply nvmKick_stores
  apply mkNvm_stores
  · apply forAll_stores
    · apply ite_stores
      · apply recallPower_stores
        apply forAll_stores
        · apply recallItems_stores
          apply mk_stores
          exact h_m
        · intro x0 x1 h2
          apply recallSlot_stores
          exact h2
      · apply forAll_stores
        · apply recallItems_stores
          apply mk_stores
          exact h_m
        · intro x3 x4 h5
          apply recallSlot_stores
          exact h5
    · intro x6 x7 h8
      apply recallSaved_stores
      exact h8
  · apply nvMk_stores
    apply nv_of_stores
    apply forAll_stores
    · apply ite_stores
      · apply recallPower_stores
        apply forAll_stores
        · apply recallItems_stores
          apply mk_stores
          exact h_m
        · intro x9 x10 h11
          apply recallSlot_stores
          exact h11
      · apply forAll_stores
        · apply recallItems_stores
          apply mk_stores
          exact h_m
        · intro x12 x13 h14
          apply recallSlot_stores
          exact h14
    · intro x15 x16 h17
      apply recallSaved_stores
      exact h17

theorem execRecallComplete_stores (s : State) (h_s : storesWf s.m = true) :
    outStores (execRecallComplete s) := by
  unfold execRecallComplete
  apply next_stores
  apply when_stores
  · exact h_s
  · intro x0 h1
    apply recallComplete_stores
    exact h1

theorem bootAttach_stores (m : Mach) (p : Nat) (h_m : storesWf m = true) :
    storesWf (bootAttach m p) = true := by
  unfold bootAttach
  dsimp only
  apply mk_stores
  apply modCv_stores
  apply modPd_stores
  apply modPort_stores
  exact h_m

theorem resumeStore_stores (m : Mach) (h_m : storesWf m = true) :
    storesWf (resumeStore m) = true := by
  unfold resumeStore
  dsimp only
  apply forAll_stores
  · exact h_m
  · intro x0 x1 h2
    apply ite_stores
    · apply filterInit_stores
      apply modCtx_stores
      exact h2
    · apply activate_stores
      exact h2

theorem configApply_stores (m : Mach) (h_m : storesWf m = true) :
    storesWf (configApply m) = true := by
  unfold configApply
  dsimp only
  apply ladderApply_stores
  apply rankRecompute_stores
  apply mk_stores
  apply ite_stores
  · apply resumeStore_stores
    apply forAll_stores
    · split
      · apply ite_stores
        · apply bootAttach_stores
          apply forAll_stores
          · apply pathDerive_stores
            apply mk_stores
            exact h_m
          · intro x0 x1 h2
            apply ite_stores
            · apply note_stores
              apply goUnattached_stores
              apply modPort_stores
              exact h2
            · apply goUnattached_stores
              apply modPort_stores
              exact h2
        · apply mk_stores
          apply forAll_stores
          · apply pathDerive_stores
            apply mk_stores
            exact h_m
          · intro x3 x4 h5
            apply ite_stores
            · apply note_stores
              apply goUnattached_stores
              apply modPort_stores
              exact h5
            · apply goUnattached_stores
              apply modPort_stores
              exact h5
      · apply forAll_stores
        · apply pathDerive_stores
          apply mk_stores
          exact h_m
        · intro x6 x7 h8
          apply ite_stores
          · apply note_stores
            apply goUnattached_stores
            apply modPort_stores
            exact h8
          · apply goUnattached_stores
            apply modPort_stores
            exact h8
    · intro x9 x10 h11
      apply modChg_stores
      exact h11
  · apply forAll_stores
    · split
      · apply ite_stores
        · apply bootAttach_stores
          apply forAll_stores
          · apply pathDerive_stores
            apply mk_stores
            exact h_m
          · intro x12 x13 h14
            apply ite_stores
            · apply note_stores
              apply goUnattached_stores
              apply modPort_stores
              exact h14
            · apply goUnattached_stores
              apply modPort_stores
              exact h14
        · apply mk_stores
          apply forAll_stores
          · apply pathDerive_stores
            apply mk_stores
            exact h_m
          · intro x15 x16 h17
            apply ite_stores
            · apply note_stores
              apply goUnattached_stores
              apply modPort_stores
              exact h17
            · apply goUnattached_stores
              apply modPort_stores
              exact h17
      · apply forAll_stores
        · apply pathDerive_stores
          apply mk_stores
          exact h_m
        · intro x18 x19 h20
          apply ite_stores
          · apply note_stores
            apply goUnattached_stores
            apply modPort_stores
            exact h20
          · apply goUnattached_stores
            apply modPort_stores
            exact h20
    · intro x21 x22 h23
      apply modChg_stores
      exact h23

theorem execConfigApply_stores (s : State) (h_s : storesWf s.m = true) :
    outStores (execConfigApply s) := by
  unfold execConfigApply
  apply next_stores
  apply when_stores
  · exact h_s
  · intro x0 h1
    apply configApply_stores
    exact h1

theorem leaveShip_stores (m : Mach) (wake : Nat) (h_m : storesWf m = true) :
    storesWf (leaveShip m wake) = true := by
  unfold leaveShip
  dsimp only
  apply ite_stores
  · exact h_m
  · apply mk_stores
    exact h_m

theorem execStoreStart_stores (vstsMv : Nat) (wake : Bool) (s : State) (h_s : storesWf s.m = true) :
    outStores (execStoreStart vstsMv wake s) := by
  unfold execStoreStart
  dsimp only
  apply guardRead_stores
  · exact h_s
  · apply when_stores
    · exact h_s
    · intro x0 h1
      apply mk_stores
      apply leaveShip_stores
      exact h1

theorem execShipInputWake_stores (input : Nat) (volts : WakeVolts) (s : State) (h_s : storesWf s.m = true) :
    outStores (execShipInputWake input volts s) := by
  unfold execShipInputWake
  dsimp only
  apply guardRead_stores
  · exact h_s
  · apply when_stores
    · exact h_s
    · intro x0 h1
      apply ite_stores
      · apply mk_stores
        apply leaveShip_stores
        apply modInp_stores
        exact h1
      · apply leaveShip_stores
        apply modInp_stores
        exact h1

theorem execCableBoot_stores (port : Nat) (vbusMv : Nat) (rp : Nat) (s : State) (h_s : storesWf s.m = true) :
    outStores (execCableBoot port vbusMv rp s) := by
  unfold execCableBoot
  dsimp only
  apply guardRead_stores
  · exact h_s
  · apply when_stores
    · exact h_s
    · intro x0 h1
      apply leaveShip_stores
      apply modPort_stores
      apply mk_stores
      apply draw_stores
      exact h1

theorem updEnd_stores (m : Mach) (h_m : storesWf m = true) :
    storesWf (updEnd m) = true := by
  unfold updEnd
  dsimp only
  apply ite_stores
  · exact h_m
  · apply mkMbx_stores
    · exact h_m
    · refine mbxWf_of ?_ ?_
      · dsimp only
        apply mem_of_mbx
        apply mbx_of_stores
        exact h_m
      · dsimp only
        apply ringOk_mod
        apply ring_of_mbx
        apply mbx_of_stores
        exact h_m

theorem stopSome_stores (m : Mach) (ks : List Nat) (h_m : storesWf m = true) :
    storesWf (stopSome m ks) = true := by
  unfold stopSome
  dsimp only
  apply mk_stores
  apply forAll_stores
  · exact h_m
  · intro x0 x1 h2
    apply ite_stores
    · apply closeSession_stores
      apply modProt_stores
      apply stopRun_stores
      exact h2
    · apply modProt_stores
      apply stopRun_stores
      exact h2

theorem stopAll_stores (m : Mach) (h_m : storesWf m = true) :
    storesWf (stopAll m) = true := by
  unfold stopAll
  apply stopSome_stores
  exact h_m

theorem dropHostWrites_stores (m : Mach) (h_m : storesWf m = true) :
    storesWf (dropHostWrites m) = true := by
  unfold dropHostWrites
  dsimp only
  apply foldl_stores
  · apply mkNvm_stores
    · exact h_m
    · apply nvMk_stores
      apply nv_of_stores
      exact h_m
  · intro x0 x1 h2
    split
    · apply ite_stores
      · apply abandonSlot_stores
        exact h2
      · exact h2
    · exact h2

theorem powerWarning_stores (m : Mach) (hold : List Nat) (h_m : storesWf m = true) :
    storesWf (powerWarning m hold) = true := by
  unfold powerWarning
  dsimp only
  apply dropHostWrites_stores
  apply mkNvm_stores
  · apply powerDownSave_stores
    apply mk_stores
    apply forAll_stores
    · apply updEnd_stores
      apply stopAll_stores
      exact h_m
    · intro x0 x1 h2
      apply modProc_stores
      exact h2
  · apply nvMk_stores
    apply nv_of_stores
    apply powerDownSave_stores
    apply mk_stores
    apply forAll_stores
    · apply updEnd_stores
      apply stopAll_stores
      exact h_m
    · intro x3 x4 h5
      apply modProc_stores
      exact h5

theorem execPowerDownWarning_stores (trigger : Nat) (mv : Nat) (hold : List Nat) (s : State) (h_s : storesWf s.m = true) :
    outStores (execPowerDownWarning trigger mv hold s) := by
  unfold execPowerDownWarning
  dsimp only
  apply guardUnit_stores
  · exact h_s
  · apply when_stores
    · apply ite_stores
      · apply mk_stores
        exact h_s
      · apply ite_stores
        · apply mk_stores
          exact h_s
        · exact h_s
    · intro x0 h1
      apply powerWarning_stores
      exact h1

theorem unhalt_stores (m : Mach) (h_m : storesWf m = true) :
    storesWf (unhalt m) = true := by
  unfold unhalt
  apply forAll_stores
  · exact h_m
  · intro x0 x1 h2
    apply ite_stores
    · apply modProc_stores
      exact h2
    · exact h2

theorem waitSys_stores (m : Mach) (h_m : storesWf m = true) :
    storesWf (waitSys m) = true := by
  unfold waitSys
  dsimp only
  apply mk_stores
  exact h_m

theorem warningOver_stores (m : Mach) (h_m : storesWf m = true) :
    storesWf (warningOver m) = true := by
  unfold warningOver
  dsimp only
  apply nvmKick_stores
  apply waitSys_stores
  apply unhalt_stores
  apply mk_stores
  exact h_m

theorem enterShip_stores (m : Mach) (h_m : storesWf m = true) :
    storesWf (enterShip m) = true := by
  unfold enterShip
  dsimp only
  apply mk_stores
  apply setMode_stores
  exact h_m

theorem saveComplete_stores (m : Mach) (ended : Bool) (h_m : storesWf m = true) :
    storesWf (saveComplete m ended) = true := by
  unfold saveComplete
  dsimp only
  split
  · apply ite_stores
    · apply warningOver_stores
      exact h_m
    · apply mk_stores
      exact h_m
  · apply ite_stores
    · exact h_m
    · apply ite_stores
      · apply waitSys_stores
        apply mk_stores
        exact h_m
      · apply enterShip_stores
        exact h_m
  · exact h_m

theorem execSaveComplete_stores (warningEnded : Bool) (s : State) (h_s : storesWf s.m = true) :
    outStores (execSaveComplete warningEnded s) := by
  unfold execSaveComplete
  apply next_stores
  apply when_stores
  · exact h_s
  · intro x0 h1
    apply saveComplete_stores
    exact h1

theorem execBootSinkLoss_stores (port : Nat) (sysMv : Nat) (vbootMv : Nat) (hold : List Nat) (s : State) (h_s : storesWf s.m = true) :
    outStores (execBootSinkLoss port sysMv vbootMv hold s) := by
  unfold execBootSinkLoss
  dsimp only
  apply guardRead_stores
  · exact h_s
  · apply when_stores
    · exact h_s
    · intro x0 h1
      apply ite_stores
      · apply powerWarning_stores
        apply ite_stores
        · apply sinkStop_stores
          apply mk_stores
          exact h1
        · apply mk_stores
          exact h1
      · apply ite_stores
        · apply sinkStop_stores
          apply mk_stores
          exact h1
        · apply mk_stores
          exact h1

theorem cutoff_stores (m : Mach) (cell : Nat) (before : Bool) (during : Bool) (hold : List Nat) (h_m : storesWf m = true) :
    storesWf (cutoff m cell before during hold) = true := by
  unfold cutoff
  dsimp only
  apply ite_stores
  · exact h_m
  · apply ite_stores
    · apply chgEnter_stores
      apply waitSys_stores
      apply stopSome_stores
      exact h_m
    · apply ite_stores
      · apply chgEnter_stores
        apply waitSys_stores
        apply powerDownSave_stores
        apply stopSome_stores
        exact h_m
      · apply enterShip_stores
        apply mk_stores
        apply note_stores
        apply powerDownSave_stores
        apply stopSome_stores
        exact h_m

theorem execCutoff_stores (cellMv : Nat) (feederBefore : Bool) (feederDuring : Bool) (hold : List Nat) (s : State) (h_s : storesWf s.m = true) :
    outStores (execCutoff cellMv feederBefore feederDuring hold s) := by
  unfold execCutoff
  apply next_stores
  apply cutoff_stores
  exact h_s

theorem cmdPwrStateSet_stores (m : Mach) (s : Nat) (p : List Byte) (h_m : storesWf m = true) :
    ansStores (cmdPwrStateSet m s p) := by
  unfold cmdPwrStateSet
  dsimp only
  apply refuseFirst_stores
  simp only [ansStores]
  apply mk_stores
  exact h_m

theorem enterQuiet_stores (m : Mach) (h_m : storesWf m = true) :
    storesWf (enterQuiet m) = true := by
  unfold enterQuiet
  dsimp only
  apply mk_stores
  exact h_m

theorem standbyStops_stores (m : Mach) (h_m : storesWf m = true) :
    storesWf (standbyStops m) = true := by
  unfold standbyStops
  dsimp only
  apply forAll_stores
  · apply forAll_stores
    · apply dropBib_stores
      apply forAll_stores
      · exact h_m
      · intro x0 x1 h2
        apply modProt_stores
        apply stopRun_stores
        exact h2
    · intro x3 x4 h5
      apply modProc_stores
      exact h5
  · intro x6 x7 h8
    apply modPort_stores
    exact h8

theorem enterStandby_stores (m : Mach) (h_m : storesWf m = true) :
    storesWf (enterStandby m) = true := by
  unfold enterStandby
  have h := standbyStops_stores m h_m
  dsimp only
  generalize standbyStops m = x at h ⊢
  apply ite_stores
  · apply setMode_stores
    apply mk_stores
    exact h
  · apply mk_stores
    exact h

theorem leaveStandby_stores (m0 : Mach) (wake : Nat) (h_m0 : storesWf m0 = true) :
    storesWf (leaveStandby m0 wake) = true := by
  unfold leaveStandby
  dsimp only
  apply configApply_stores
  apply procStart_stores
  apply mk_stores
  apply stationReset_stores
  exact h_m0

theorem leaveLow_stores (m : Mach) (wake : Nat) (h_m : storesWf m = true) :
    storesWf (leaveLow m wake) = true := by
  unfold leaveLow
  dsimp only
  split
  · apply mk_stores
    exact h_m
  · apply leaveStandby_stores
    exact h_m
  · exact h_m

theorem stateGo_stores (m : Mach) (h_m : storesWf m = true) :
    storesWf (stateGo m) = true := by
  unfold stateGo
  dsimp only
  split
  · exact h_m
  · apply ite_stores
    · apply mkNvm_stores
      · apply powerDownSave_stores
        apply stopAll_stores
        apply closeEntry_stores
        exact h_m
      · apply nvMk_stores
        apply nv_of_stores
        apply powerDownSave_stores
        apply stopAll_stores
        apply closeEntry_stores
        exact h_m
    · apply ite_stores
      · apply enterStandby_stores
        apply mk_stores
        apply closeEntry_stores
        exact h_m
      · apply ite_stores
        · apply enterQuiet_stores
          apply mk_stores
          apply closeEntry_stores
          exact h_m
        · apply leaveLow_stores
          apply mk_stores
          apply closeEntry_stores
          exact h_m

theorem pwrStateSet_stores (m : Mach) (slot : Nat) (h_m : storesWf m = true) :
    storesWf (pwrStateSet m slot) = true := by
  unfold pwrStateSet
  apply ite_stores
  · apply execute_stores
    · exact h_m
    · intro x0 x1 x2 h3
      apply cmdPwrStateSet_stores
      exact h3
  · apply stateGo_stores
    apply execute_stores
    · exact h_m
    · intro x4 x5 x6 h7
      apply cmdPwrStateSet_stores
      exact h7

theorem execPwrStateSet_stores (slot : Nat) (s : State) (h_s : storesWf s.m = true) :
    outStores (execPwrStateSet slot s) := by
  unfold execPwrStateSet
  apply guardUnit_stores
  · exact h_s
  · apply pwrStateSet_stores
    exact h_s

theorem execQuietAuto_stores (s : State) (h_s : storesWf s.m = true) :
    outStores (execQuietAuto s) := by
  unfold execQuietAuto
  dsimp only
  apply next_stores
  apply when_stores
  · exact h_s
  · intro x0 h1
    apply enterQuiet_stores
    exact h1

theorem execQuietExit_stores (s : State) (h_s : storesWf s.m = true) :
    outStores (execQuietExit s) := by
  unfold execQuietExit
  apply next_stores
  apply when_stores
  · exact h_s
  · intro x0 h1
    apply leaveLow_stores
    exact h1

theorem execStandbyWake_stores (source : Nat) (s : State) (h_s : storesWf s.m = true) :
    outStores (execStandbyWake source s) := by
  unfold execStandbyWake
  dsimp only
  apply guardUnit_stores
  · exact h_s
  · apply when_stores
    · exact h_s
    · intro x0 h1
      apply leaveStandby_stores
      exact h1

theorem execWakeTimer_stores (s : State) (h_s : storesWf s.m = true) :
    outStores (execWakeTimer s) := by
  unfold execWakeTimer
  apply next_stores
  apply when_stores
  · exact h_s
  · intro x0 h1
    apply fire_stores
    · exact h1
    · intro x2 h3
      apply leaveStandby_stores
      exact h3

theorem standbySample_stores (m : Mach) (ma : Int) (h_m : storesWf m = true) :
    storesWf (standbySample m ma) = true := by
  unfold standbySample
  dsimp only
  apply forAll_stores
  · apply mk_stores
    exact h_m
  · intro x0 x1 h2
    apply modCtx_stores
    exact h2

theorem execStandbyCountSample_stores (storeMa : Int) (s : State) (h_s : storesWf s.m = true) :
    outStores (execStandbyCountSample storeMa s) := by
  unfold execStandbyCountSample
  apply next_stores
  apply when_stores
  · exact h_s
  · intro x0 h1
    apply standbySample_stores
    exact h1

theorem setWakeCfg_stores (m : Mach) (p : List Byte) (h_m : storesWf m = true) :
    ansStores (setWakeCfg m p) := by
  unfold setWakeCfg
  dsimp only
  apply refuseFirst_stores
  simp only [ansStores]
  apply mk_stores
  exact h_m

theorem cmdPwrWakeCfg_stores (m : Mach) (w1 : Nat) (p : List Byte) (h_m : storesWf m = true) :
    ansStores (cmdPwrWakeCfg m w1 p) := by
  unfold cmdPwrWakeCfg
  apply persist_stores
  apply setWakeCfg_stores
  exact h_m

theorem execPwrWakeCfg_stores (slot : Nat) (s : State) (h_s : storesWf s.m = true) :
    outStores (execPwrWakeCfg slot s) := by
  unfold execPwrWakeCfg
  apply command_stores
  · intro x0 x1 x2 h3
    apply cmdPwrWakeCfg_stores
    exact h3
  · exact h_s

theorem cmdPwrStatGet_stores (m : Mach) (w1 : Nat) (w2 : List Byte) (h_m : storesWf m = true) :
    ansStores (cmdPwrStatGet m w1 w2) := by
  unfold cmdPwrStatGet
  dsimp only
  simp only [ansStores]
  exact h_m

theorem execPwrStatGet_stores (slot : Nat) (s : State) (h_s : storesWf s.m = true) :
    outStores (execPwrStatGet slot s) := by
  unfold execPwrStatGet
  apply command_stores
  · intro x0 x1 x2 h3
    apply cmdPwrStatGet_stores
    exact h3
  · exact h_s

theorem moveOff_stores (m : Mach) (k : Nat) (h_m : storesWf m = true) :
    storesWf (moveOff m k) = true := by
  unfold moveOff
  apply forAll_stores
  · exact h_m
  · intro x0 x1 h2
    split
    · apply takeOver_stores
      exact h2
    · exact h2

theorem blkReset_stores (m : Mach) (b : Nat) (h_m : storesWf m = true) :
    storesWf (blkReset m b) = true := by
  unfold blkReset
  dsimp only
  apply ite_stores
  · apply mk_stores
    apply modBlk_stores
    apply ite_stores
    · apply moveOff_stores
      apply mk_stores
      exact h_m
    · apply mk_stores
      exact h_m
  · apply ite_stores
    · apply stavskaEnd_stores
      apply modBlk_stores
      apply ite_stores
      · apply moveOff_stores
        apply mk_stores
        exact h_m
      · apply mk_stores
        exact h_m
    · apply ite_stores
      · apply mk_stores
        apply modBlk_stores
        apply ite_stores
        · apply moveOff_stores
          apply mk_stores
          exact h_m
        · apply mk_stores
          exact h_m
      · apply ite_stores
        · apply ptbEndAll_stores
          apply modBlk_stores
          apply ite_stores
          · apply moveOff_stores
            apply mk_stores
            exact h_m
          · apply mk_stores
            exact h_m
        · apply modBlk_stores
          apply ite_stores
          · apply moveOff_stores
            apply mk_stores
            exact h_m
          · apply mk_stores
            exact h_m

theorem blkEnd_stores (m : Mach) (b : Nat) (h_m : storesWf m = true) :
    storesWf (blkEnd m b) = true := by
  unfold blkEnd
  dsimp only
  apply ite_stores
  · split
    · apply modCore_stores
      apply mk_stores
      apply modBlk_stores
      exact h_m
    · apply coreFence_stores
      apply note_stores
      apply mk_stores
      apply modBlk_stores
      exact h_m
  · apply ite_stores
    · split
      · apply forAll_stores
        · apply mk_stores
          apply modBlk_stores
          exact h_m
        · intro x0 x1 h2
          apply filterInit_stores
          exact h2
      · apply markFence_stores
        apply note_stores
        apply mk_stores
        apply modBlk_stores
        exact h_m
    · apply mk_stores
      apply modBlk_stores
      exact h_m

theorem execBlkDone_stores (block : Nat) (s : State) (h_s : storesWf s.m = true) :
    outStores (execBlkDone block s) := by
  unfold execBlkDone
  apply guardUnit_stores
  · exact h_s
  · apply fire_stores
    · exact h_s
    · intro x0 h1
      apply blkEnd_stores
      exact h1

theorem cmdPwrReset_stores (m : Mach) (w1 : Nat) (p : List Byte) (h_m : storesWf m = true) :
    ansStores (cmdPwrReset m w1 p) := by
  unfold cmdPwrReset
  dsimp only
  apply refuseFirst_stores
  simp only [ansStores]
  apply mk_stores
  exact h_m

theorem resetGo_stores (m : Mach) (h_m : storesWf m = true) :
    storesWf (resetGo m) = true := by
  unfold resetGo
  dsimp only
  split
  · exact h_m
  · apply ite_stores
    · apply stationReset_stores
      apply mk_stores
      exact h_m
    · apply ite_stores
      · apply pprDo_stores
        apply mk_stores
        exact h_m
      · apply ite_stores
        · apply blkReset_stores
          apply mk_stores
          exact h_m
        · apply ferAsk_stores
          apply mk_stores
          exact h_m

theorem execPwrReset_stores (slot : Nat) (s : State) (h_s : storesWf s.m = true) :
    outStores (execPwrReset slot s) := by
  unfold execPwrReset
  apply guardUnit_stores
  · exact h_s
  · apply resetGo_stores
    apply execute_stores
    · exact h_s
    · intro x0 x1 x2 h3
      apply cmdPwrReset_stores
      exact h3

theorem cmdUpdBegin_stores (m : Mach) (w1 : Nat) (p : List Byte) (h_m : storesWf m = true) :
    ansStores (cmdUpdBegin m w1 p) := by
  unfold cmdUpdBegin
  dsimp only
  apply refuseFirst_stores
  simp only [ansStores]
  apply mk_stores
  apply modRegion_stores
  exact h_m

theorem execUpdBegin_stores (slot : Nat) (s : State) (h_s : storesWf s.m = true) :
    outStores (execUpdBegin slot s) := by
  unfold execUpdBegin
  apply command_stores
  · intro x0 x1 x2 h3
    apply cmdUpdBegin_stores
    exact h3
  · exact h_s

theorem cmdUpdData_stores (m : Mach) (w1 : Nat) (p : List Byte) (h_m : storesWf m = true) :
    ansStores (cmdUpdData m w1 p) := by
  unfold cmdUpdData
  dsimp only
  apply refuseFirst_stores
  simp only [ansStores]
  apply mk_stores
  apply modRegion_stores
  exact h_m

theorem execUpdData_stores (slot : Nat) (s : State) (h_s : storesWf s.m = true) :
    outStores (execUpdData slot s) := by
  unfold execUpdData
  apply command_stores
  · intro x0 x1 x2 h3
    apply cmdUpdData_stores
    exact h3
  · exact h_s

theorem cmdUpdCommit_stores (m : Mach) (s : Nat) (w2 : List Byte) (h_m : storesWf m = true) :
    ansStores (cmdUpdCommit m s w2) := by
  unfold cmdUpdCommit
  dsimp only
  apply refuseFirst_stores
  simp only [ansStores]
  apply mk_stores
  exact h_m

theorem execUpdCommit_stores (slot : Nat) (s : State) (h_s : storesWf s.m = true) :
    outStores (execUpdCommit slot s) := by
  unfold execUpdCommit
  apply command_stores
  · intro x0 x1 x2 h3
    apply cmdUpdCommit_stores
    exact h3
  · exact h_s

theorem cmdUpdAbort_stores (m : Mach) (w1 : Nat) (w2 : List Byte) (h_m : storesWf m = true) :
    ansStores (cmdUpdAbort m w1 w2) := by
  unfold cmdUpdAbort
  dsimp only
  apply refuseFirst_stores
  simp only [ansStores]
  apply updFail_stores
  apply mk_stores
  apply ite_stores
  · apply ite_stores
    · apply pprDo_stores
      apply mk_stores
      exact h_m
    · apply mk_stores
      exact h_m
  · exact h_m

theorem execUpdAbort_stores (slot : Nat) (s : State) (h_s : storesWf s.m = true) :
    outStores (execUpdAbort slot s) := by
  unfold execUpdAbort
  apply command_stores
  · intro x0 x1 x2 h3
    apply cmdUpdAbort_stores
    exact h3
  · exact h_s

theorem cmdUpdStatGet_stores (m : Mach) (w1 : Nat) (w2 : List Byte) (h_m : storesWf m = true) :
    ansStores (cmdUpdStatGet m w1 w2) := by
  unfold cmdUpdStatGet
  dsimp only
  simp only [ansStores]
  exact h_m

theorem execUpdStatGet_stores (slot : Nat) (s : State) (h_s : storesWf s.m = true) :
    outStores (execUpdStatGet slot s) := by
  unfold execUpdStatGet
  apply command_stores
  · intro x0 x1 x2 h3
    apply cmdUpdStatGet_stores
    exact h3
  · exact h_s

theorem pprStaged_stores (m : Mach) (a : Nat) (h_m : storesWf m = true) :
    storesWf (pprStaged m a) = true := by
  unfold pprStaged
  dsimp only
  apply mk_stores
  apply modProc_stores
  apply modBlk_stores
  exact h_m

theorem updVerifyDone_stores (m : Mach) (h_m : storesWf m = true) :
    storesWf (updVerifyDone m) = true := by
  unfold updVerifyDone
  dsimp only
  apply ite_stores
  · exact h_m
  · apply ite_stores
    · apply updFail_stores
      exact h_m
    · apply ite_stores
      · split
        · apply updFail_stores
          apply mk_stores
          apply modRegion_stores
          exact h_m
        · apply mk_stores
          apply pprStaged_stores
          apply mk_stores
          apply modRegion_stores
          exact h_m
      · apply ite_stores
        · apply mk_stores
          apply modRegion_stores
          exact h_m
        · apply mk_stores
          apply modRegion_stores
          exact h_m

theorem execUpdVerifyDone_stores (s : State) (h_s : storesWf s.m = true) :
    outStores (execUpdVerifyDone s) := by
  unfold execUpdVerifyDone
  apply next_stores
  apply updVerifyDone_stores
  exact h_s

theorem updSyncTimeout_stores (m : Mach) (h_m : storesWf m = true) :
    storesWf (updSyncTimeout m) = true := by
  unfold updSyncTimeout
  dsimp only
  apply updFail_stores
  apply pprDo_stores
  exact h_m

theorem execUpdSyncTimeout_stores (s : State) (h_s : storesWf s.m = true) :
    outStores (execUpdSyncTimeout s) := by
  unfold execUpdSyncTimeout
  apply next_stores
  apply when_stores
  · exact h_s
  · intro x0 h1
    apply fire_stores
    · exact h1
    · intro x2 h3
      apply updSyncTimeout_stores
      exact h3

theorem updProbationEnd_stores (m : Mach) (h_m : storesWf m = true) :
    storesWf (updProbationEnd m) = true := by
  unfold updProbationEnd
  dsimp only
  apply mk_stores
  apply ite_stores
  · exact h_m
  · apply pprStaged_stores
    exact h_m

theorem execUpdProbationEnd_stores (s : State) (h_s : storesWf s.m = true) :
    outStores (execUpdProbationEnd s) := by
  unfold execUpdProbationEnd
  apply next_stores
  apply when_stores
  · exact h_s
  · intro x0 h1
    apply fire_stores
    · exact h1
    · intro x2 h3
      apply updProbationEnd_stores
      exact h3

theorem pointerWrite_stores (m : Mach) (h_m : storesWf m = true) :
    storesWf (pointerWrite m) = true := by
  unfold pointerWrite
  dsimp only
  apply mk_stores
  apply closeEntry_stores
  apply ite_stores
  · apply forAll_stores
    · apply mkNvm_stores
      · apply modRegion_stores
        exact h_m
      · apply ctrRaise_stores
        apply nv_of_stores
        apply modRegion_stores
        exact h_m
    · intro x0 x1 h2
      apply modProc_stores
      exact h2
  · apply mkNvm_stores
    · apply modRegion_stores
      exact h_m
    · apply ctrRaise_stores
      apply nv_of_stores
      apply modRegion_stores
      exact h_m

theorem execUpdPointerWrite_stores (s : State) (h_s : storesWf s.m = true) :
    outStores (execUpdPointerWrite s) := by
  unfold execUpdPointerWrite
  apply next_stores
  apply when_stores
  · exact h_s
  · intro x0 h1
    apply pointerWrite_stores
    exact h1

theorem reloadCore_stores (m : Mach) (k : Nat) (bank : Nat) (version : Nat) (h_m : storesWf m = true) :
    storesWf (reloadCore m k bank version) = true := by
  unfold reloadCore
  dsimp only
  apply ite_stores
  · apply mk_stores
    apply modCore_stores
    apply moveOff_stores
    exact h_m
  · apply forAll_stores
    · apply mk_stores
      apply modCore_stores
      apply moveOff_stores
      exact h_m
    · intro x0 x1 h2
      apply takeOver_stores
      exact h2

theorem pdUpdBack_stores (m : Mach) (h_m : storesWf m = true) :
    storesWf (pdUpdBack m) = true := by
  unfold pdUpdBack
  dsimp only
  apply updFail_stores
  apply forAll_stores
  · exact h_m
  · intro x0 x1 h2
    apply reloadCore_stores
    exact h2

theorem pdUpdCoreStep_stores (m : Mach) (h_m : storesWf m = true) :
    storesWf (pdUpdCoreStep m) = true := by
  unfold pdUpdCoreStep
  dsimp only
  apply ite_stores
  · exact h_m
  · apply ite_stores
    · apply ite_stores
      · exact h_m
      · apply pdUpdBack_stores
        exact h_m
    · apply ite_stores
      · exact h_m
      · split
        · exact h_m
        · apply ite_stores
          · exact h_m
          · apply mk_stores
            apply reloadCore_stores
            exact h_m

theorem execPdUpdCoreStep_stores (s : State) (h_s : storesWf s.m = true) :
    outStores (execPdUpdCoreStep s) := by
  unfold execPdUpdCoreStep
  apply next_stores
  apply pdUpdCoreStep_stores
  exact h_s

theorem pdUpdProbationEnd_stores (m : Mach) (h_m : storesWf m = true) :
    storesWf (pdUpdProbationEnd m) = true := by
  unfold pdUpdProbationEnd
  dsimp only
  apply mk_stores
  exact h_m

theorem execPdUpdProbationEnd_stores (s : State) (h_s : storesWf s.m = true) :
    outStores (execPdUpdProbationEnd s) := by
  unfold execPdUpdProbationEnd
  apply next_stores
  apply when_stores
  · exact h_s
  · intro x0 h1
    apply fire_stores
    · exact h1
    · intro x2 h3
      apply pdUpdProbationEnd_stores
      exact h3

theorem estSwap_stores (m : Mach) (h_m : storesWf m = true) :
    storesWf (estSwap m) = true := by
  unfold estSwap
  apply ite_stores
  · exact h_m
  · apply forAll_stores
    · exact h_m
    · intro x0 x1 h2
      apply filterInit_stores
      exact h2

theorem execEstUcodeSwap_stores (s : State) (h_s : storesWf s.m = true) :
    outStores (execEstUcodeSwap s) := by
  unfold execEstUcodeSwap
  dsimp only
  apply next_stores
  apply when_stores
  · exact h_s
  · intro x0 h1
    apply mk_stores
    apply estSwap_stores
    exact h1

theorem execEstUcodeProbationEnd_stores (s : State) (h_s : storesWf s.m = true) :
    outStores (execEstUcodeProbationEnd s) := by
  unfold execEstUcodeProbationEnd
  dsimp only
  apply next_stores
  apply when_stores
  · exact h_s
  · intro x0 h1
    apply ite_stores
    · apply updFail_stores
      apply estSwap_stores
      exact h1
    · apply fire_stores
      · exact h1
      · intro x2 h3
        apply mk_stores
        exact h3

theorem limitsPrepare_stores (m : Mach) (h_m : storesWf m = true) :
    storesWf (limitsPrepare m) = true := by
  unfold limitsPrepare
  dsimp only
  apply ite_stores
  · exact h_m
  · apply ite_stores
    · apply mk_stores
      exact h_m
    · apply updFail_stores
      apply mk_stores
      exact h_m

theorem execLimitsPrepare_stores (s : State) (h_s : storesWf s.m = true) :
    outStores (execLimitsPrepare s) := by
  unfold execLimitsPrepare
  apply next_stores
  apply limitsPrepare_stores
  exact h_s

theorem execLimitsCommit_stores (s : State) (h_s : storesWf s.m = true) :
    outStores (execLimitsCommit s) := by
  unfold execLimitsCommit
  apply next_stores
  apply when_stores
  · exact h_s
  · intro x0 h1
    apply limitsSwap_stores
    exact h1

theorem cmdSvcLinkArm_stores (m : Mach) (w1 : Nat) (p : List Byte) (h_m : storesWf m = true) :
    ansStores (cmdSvcLinkArm m w1 p) := by
  unfold cmdSvcLinkArm
  dsimp only
  apply refuseFirst_stores
  simp only [ansStores]
  apply arm_stores
  exact h_m

theorem execSvcLinkArm_stores (slot : Nat) (s : State) (h_s : storesWf s.m = true) :
    outStores (execSvcLinkArm slot s) := by
  unfold execSvcLinkArm
  apply command_stores
  · intro x0 x1 x2 h3
    apply cmdSvcLinkArm_stores
    exact h3
  · exact h_s

theorem linkStart_stores (m : Mach) (p : Nat) (h_m : storesWf m = true) :
    storesWf (linkStart m p) = true := by
  unfold linkStart
  dsimp only
  apply dcpEval_stores
  apply mk_stores
  exact h_m

theorem execStavskaLinkStart_stores (port : Nat) (s : State) (h_s : storesWf s.m = true) :
    outStores (execStavskaLinkStart port s) := by
  unfold execStavskaLinkStart
  apply guardUnit_stores
  · exact h_s
  · apply when_stores
    · exact h_s
    · intro x0 h1
      apply linkStart_stores
      exact h1

theorem execStavskaSwapRetry_stores (port : Nat) (s : State) (h_s : storesWf s.m = true) :
    outStores (execStavskaSwapRetry port s) := by
  unfold execStavskaSwapRetry
  dsimp only
  apply guardUnit_stores
  · exact h_s
  · apply when_stores
    · exact h_s
    · intro x0 h1
      apply fire_stores
      · exact h1
      · intro x2 h3
        apply stavskaKick_stores
        apply mk_stores
        exact h3

theorem execStavskaNoPd_stores (port : Nat) (s : State) (h_s : storesWf s.m = true) :
    outStores (execStavskaNoPd port s) := by
  unfold execStavskaNoPd
  dsimp only
  apply guardUnit_stores
  · exact h_s
  · apply when_stores
    · exact h_s
    · intro x0 h1
      apply fire_stores
      · exact h1
      · intro x2 h3
        apply mk_stores
        exact h3

theorem execUsbSetConfiguration_stores (s : State) (h_s : storesWf s.m = true) :
    outStores (execUsbSetConfiguration s) := by
  unfold execUsbSetConfiguration
  dsimp only
  apply next_stores
  apply when_stores
  · exact h_s
  · intro x0 h1
    apply mk_stores
    exact h1

theorem execEnumTimeout_stores (s : State) (h_s : storesWf s.m = true) :
    outStores (execEnumTimeout s) := by
  unfold execEnumTimeout
  apply next_stores
  apply when_stores
  · exact h_s
  · intro x0 h1
    apply fire_stores
    · exact h1
    · intro x2 h3
      apply stavskaEnd_stores
      exact h3

theorem stavskaFrame_stores (m : Mach) (bytes : List Byte) (h_m : storesWf m = true) :
    storesWf (stavskaFrame m bytes) = true := by
  unfold stavskaFrame
  dsimp only
  apply ite_stores
  · apply mk_stores
    exact h_m
  · apply ite_stores
    · apply streamOut_stores
      apply mk_stores
      exact h_m
    · apply ite_stores
      · apply streamOut_stores
        apply mk_stores
        exact h_m
      · apply mkMbx_stores
        · apply modSlot_stores
          apply slotPut_stores
          apply mk_stores
          exact h_m
        · refine mbxWf_of ?_ ?_
          · dsimp only
            apply mem_of_mbx
            apply mbx_of_stores
            apply modSlot_stores
            apply slotPut_stores
            apply mk_stores
            exact h_m
          · dsimp only
            apply ring_of_mbx
            apply mbx_of_stores
            apply modSlot_stores
            apply slotPut_stores
            apply mk_stores
            exact h_m

theorem execStavskaFrame_stores (bytes : List Nat) (s : State) (h_s : storesWf s.m = true) :
    outStores (execStavskaFrame bytes s) := by
  unfold execStavskaFrame
  apply guardUnit_stores
  · exact h_s
  · apply when_stores
    · exact h_s
    · intro x0 h1
      apply stavskaFrame_stores
      exact h1

theorem execStavskaFrameTimeout_stores (s : State) (h_s : storesWf s.m = true) :
    outStores (execStavskaFrameTimeout s) := by
  unfold execStavskaFrameTimeout
  dsimp only
  apply next_stores
  apply fire_stores
  · exact h_s
  · intro x0 h1
    apply mk_stores
    exact h1

theorem execStavskaIdle_stores (s : State) (h_s : storesWf s.m = true) :
    outStores (execStavskaIdle s) := by
  unfold execStavskaIdle
  apply next_stores
  apply when_stores
  · exact h_s
  · intro x0 h1
    apply fire_stores
    · exact h1
    · intro x2 h3
      apply stavskaEnd_stores
      exact h3

theorem execStavskaLinkEnd_stores (reason : Nat) (s : State) (h_s : storesWf s.m = true) :
    outStores (execStavskaLinkEnd reason s) := by
  unfold execStavskaLinkEnd
  apply guardUnit_stores
  · exact h_s
  · apply stavskaEnd_stores
    exact h_s

theorem svcLinkStop_stores (m : Mach) (s : Nat) (h_m : storesWf m = true) :
    storesWf (svcLinkStop m s) = true := by
  unfold svcLinkStop
  apply ite_stores
  · apply stavskaEnd_stores
    apply execute_stores
    · exact h_m
    · intro x0 x1 x2 h3
      simp only [ansStores]
      exact h3
  · exact h_m

theorem execSvcLinkStop_stores (slot : Nat) (s : State) (h_s : storesWf s.m = true) :
    outStores (execSvcLinkStop slot s) := by
  unfold execSvcLinkStop
  apply guardUnit_stores
  · exact h_s
  · apply svcLinkStop_stores
    exact h_s

theorem cmdSvcAuthChallenge_stores (m : Mach) (w1 : Nat) (w2 : List Byte) (h_m : storesWf m = true) :
    ansStores (cmdSvcAuthChallenge m w1 w2) := by
  unfold cmdSvcAuthChallenge
  dsimp only
  simp only [ansStores]
  apply mk_stores
  apply draw_stores
  exact h_m

theorem execSvcAuthChallenge_stores (slot : Nat) (s : State) (h_s : storesWf s.m = true) :
    outStores (execSvcAuthChallenge slot s) := by
  unfold execSvcAuthChallenge
  apply command_stores
  · intro x0 x1 x2 h3
    apply cmdSvcAuthChallenge_stores
    exact h3
  · exact h_s

theorem takeVerdict_stores (m : Mach) (v : Nat) (cert : List Byte) (h_m : storesWf m = true) :
    storesWf (takeVerdict m v cert) = true := by
  unfold takeVerdict
  dsimp only
  apply ite_stores
  · apply mk_stores
    exact h_m
  · apply ite_stores
    · apply mk_stores
      exact h_m
    · apply mk_stores
      exact h_m

theorem cmdSvcAuthResponse_stores (m : Mach) (w1 : Nat) (p : List Byte) (h_m : storesWf m = true) :
    ansStores (cmdSvcAuthResponse m w1 p) := by
  unfold cmdSvcAuthResponse
  dsimp only
  simp only [ansStores]
  apply takeVerdict_stores
  exact h_m

theorem execSvcAuthResponse_stores (slot : Nat) (s : State) (h_s : storesWf s.m = true) :
    outStores (execSvcAuthResponse slot s) := by
  unfold execSvcAuthResponse
  apply command_stores
  · intro x0 x1 x2 h3
    apply cmdSvcAuthResponse_stores
    exact h3
  · exact h_s

theorem execNonceExpire_stores (s : State) (h_s : storesWf s.m = true) :
    outStores (execNonceExpire s) := by
  unfold execNonceExpire
  dsimp only
  apply next_stores
  apply fire_stores
  · exact h_s
  · intro x0 h1
    apply mk_stores
    exact h1

theorem execAuthLockoutEnd_stores (s : State) (h_s : storesWf s.m = true) :
    outStores (execAuthLockoutEnd s) := by
  unfold execAuthLockoutEnd
  dsimp only
  apply next_stores
  apply fire_stores
  · exact h_s
  · intro x0 h1
    apply mk_stores
    exact h1

theorem cmdPtbUnlock_stores (m : Mach) (s : Nat) (p : List Byte) (h_m : storesWf m = true) :
    ansStores (cmdPtbUnlock m s p) := by
  unfold cmdPtbUnlock
  dsimp only
  apply refuseFirst_stores
  simp only [ansStores]
  apply mk_stores
  exact h_m

theorem execPtbUnlock_stores (slot : Nat) (s : State) (h_s : storesWf s.m = true) :
    outStores (execPtbUnlock slot s) := by
  unfold execPtbUnlock
  apply command_stores
  · intro x0 x1 x2 h3
    apply cmdPtbUnlock_stores
    exact h3
  · exact h_s

theorem execPtbUnlockExpire_stores (s : State) (h_s : storesWf s.m = true) :
    outStores (execPtbUnlockExpire s) := by
  unfold execPtbUnlockExpire
  dsimp only
  apply next_stores
  apply fire_stores
  · exact h_s
  · intro x0 h1
    apply mk_stores
    exact h1

theorem ptbId_stores (m : Mach) (h_m : storesWf m = true) :
    storesWf (ptbId m).2 = true := by
  unfold ptbId
  dsimp only
  apply draw_stores
  exact h_m

theorem ptbClockTest_stores (m : Mach) (id : Nat) (h_m : storesWf m = true) :
    storesWf (ptbClockTest m id).2 = true := by
  unfold ptbClockTest
  dsimp only
  apply ite_stores
  · apply note_stores
    apply ptbEnd_stores
    apply draw_stores
    exact h_m
  · apply ptbEnd_stores
    apply draw_stores
    exact h_m

theorem cmdPtbSet_stores (m : Mach) (w1 : Nat) (p : List Byte) (h_m : storesWf m = true) :
    ansStores (cmdPtbSet m w1 p) := by
  unfold cmdPtbSet
  dsimp only
  apply refuseFirst_stores
  apply iteAns_stores
  · simp only [ansStores]
    apply ptbClockTest_stores
    apply ptbPut_stores
    apply ptbId_stores
    exact h_m
  · simp only [ansStores]
    apply ptbPut_stores
    apply ptbId_stores
    exact h_m

theorem execPtbSet_stores (slot : Nat) (s : State) (h_s : storesWf s.m = true) :
    outStores (execPtbSet slot s) := by
  unfold execPtbSet
  apply command_stores
  · intro x0 x1 x2 h3
    apply cmdPtbSet_stores
    exact h3
  · exact h_s

theorem cmdPtbClear_stores (m : Mach) (w1 : Nat) (p : List Byte) (h_m : storesWf m = true) :
    ansStores (cmdPtbClear m w1 p) := by
  unfold cmdPtbClear
  dsimp only
  simp only [ansStores]
  apply ite_stores
  · apply ptbEndAll_stores
    exact h_m
  · apply ptbEnd_stores
    exact h_m

theorem execPtbClear_stores (slot : Nat) (s : State) (h_s : storesWf s.m = true) :
    outStores (execPtbClear slot s) := by
  unfold execPtbClear
  apply command_stores
  · intro x0 x1 x2 h3
    apply cmdPtbClear_stores
    exact h3
  · exact h_s

theorem execPtbTtlExpire_stores (id : Nat) (s : State) (h_s : storesWf s.m = true) :
    outStores (execPtbTtlExpire id s) := by
  unfold execPtbTtlExpire
  apply guardUnit_stores
  · exact h_s
  · split
    · apply fire_stores
      · exact h_s
      · intro x0 h1
        apply ptbEnd_stores
        exact h1
    · exact h_s

theorem cmdSvcStatGet_stores (m : Mach) (w1 : Nat) (w2 : List Byte) (h_m : storesWf m = true) :
    ansStores (cmdSvcStatGet m w1 w2) := by
  unfold cmdSvcStatGet
  dsimp only
  simp only [ansStores]
  exact h_m

theorem execSvcStatGet_stores (slot : Nat) (s : State) (h_s : storesWf s.m = true) :
    outStores (execSvcStatGet slot s) := by
  unfold execSvcStatGet
  apply command_stores
  · intro x0 x1 x2 h3
    apply cmdSvcStatGet_stores
    exact h3
  · exact h_s

theorem setTap_stores (m : Mach) (op : Nat) (h_m : storesWf m = true) :
    storesWf (setTap m op) = true := by
  unfold setTap
  dsimp only
  apply setLive_stores
  apply mk_stores
  exact h_m

theorem jtagInstruction_stores (m : Mach) (op : Nat) (h_m : storesWf m = true) :
    storesWf (jtagInstruction m op) = true := by
  unfold jtagInstruction
  apply ite_stores
  · apply ite_stores
    · apply note_stores
      apply setTap_stores
      exact h_m
    · apply setTap_stores
      exact h_m
  · apply setTap_stores
    exact h_m

theorem execJtagInstruction_stores (opcode : Nat) (s : State) (h_s : storesWf s.m = true) :
    outStores (execJtagInstruction opcode s) := by
  unfold execJtagInstruction
  apply guardUnit_stores
  · exact h_s
  · apply when_stores
    · exact h_s
    · intro x0 h1
      apply jtagInstruction_stores
      exact h1

theorem execTapReset_stores (s : State) (h_s : storesWf s.m = true) :
    outStores (execTapReset s) := by
  unfold execTapReset
  apply next_stores
  apply setTap_stores
  exact h_s

theorem refuseAt_stores (m : Mach) (s : Nat) (st : Status) (h_m : storesWf m = true) :
    storesWf (refuseAt m s st) = true := by
  unfold refuseAt
  apply writeResponse_stores
  exact h_m

theorem ringBell_stores (m : Mach) (s : Nat) (h_m : storesWf m = true) :
    storesWf (ringBell m s) = true := by
  unfold ringBell
  dsimp only
  apply ite_stores
  · apply modSlot_stores
    exact h_m
  · apply ite_stores
    · apply refuseAt_stores
      exact h_m
    · apply leaveLow_stores
      apply mkMbx_stores
      · apply modSlot_stores
        exact h_m
      · refine mbxWf_of ?_ ?_
        · dsimp only
          apply mem_of_mbx
          apply mbx_of_stores
          apply modSlot_stores
          exact h_m
        · dsimp only
          apply ring_of_mbx
          apply mbx_of_stores
          apply modSlot_stores
          exact h_m

theorem doorbell_stores (m : Mach) (w : Nat) (h_m : storesWf m = true) :
    storesWf (doorbell m w) = true := by
  unfold doorbell
  apply forAll_stores
  · exact h_m
  · intro x0 x1 h2
    apply ringBell_stores
    exact h2

theorem execMbxDoorbell_stores (mask : Nat) (s : State) (h_s : storesWf s.m = true) :
    outStores (execMbxDoorbell mask s) := by
  unfold execMbxDoorbell
  apply guardUnit_stores
  · exact h_s
  · apply doorbell_stores
    exact h_s

theorem mbxAck_stores (m : Mach) (w : Nat) (h_m : storesWf m = true) :
    storesWf (mbxAck m w) = true := by
  unfold mbxAck
  apply forAll_stores
  · exact h_m
  · intro x0 x1 h2
    apply ite_stores
    · apply modSlot_stores
      exact h2
    · exact h2

theorem execMbxAck_stores (mask : Nat) (s : State) (h_s : storesWf s.m = true) :
    outStores (execMbxAck mask s) := by
  unfold execMbxAck
  apply guardUnit_stores
  · exact h_s
  · apply mbxAck_stores
    exact h_s

theorem mbxStatWrite_stores (m : Mach) (w : Nat) (h_m : storesWf m = true) :
    storesWf (mbxStatWrite m w) = true := by
  unfold mbxStatWrite
  apply forAll_stores
  · exact h_m
  · intro x0 x1 h2
    apply modSlot_stores
    exact h2

theorem badAddr_stores (m : Mach) (h_m : storesWf m = true) :
    storesWf (badAddr m) = true := by
  unfold badAddr
  dsimp only
  apply mk_stores
  exact h_m

theorem badPartial_stores (m : Mach) (h_m : storesWf m = true) :
    storesWf (badPartial m) = true := by
  unfold badPartial
  dsimp only
  apply mk_stores
  exact h_m

theorem routeWrite_stores (m : Mach) (b : Nat) (w : Nat) (h_m : storesWf m = true) :
    storesWf (routeWrite m b w) = true := by
  unfold routeWrite
  apply ite_stores
  · apply modBlk_stores
    exact h_m
  · exact h_m

theorem namedWrite_stores (m : Mach) (a : Nat) (w : Nat) (h_m : storesWf m = true) :
    storesWf (namedWrite m a w) = true := by
  unfold namedWrite
  dsimp only
  split
  · apply mk_stores
    exact h_m
  · apply mk_stores
    exact h_m
  · apply doorbell_stores
    exact h_m
  · apply mbxAck_stores
    exact h_m
  · apply mbxStatWrite_stores
    exact h_m
  · apply wdhServe_stores
    exact h_m
  · apply wdhCtrlWrite_stores
    exact h_m
  · apply wdhStatWrite_stores
    exact h_m
  · apply adcStatWrite_stores
    exact h_m
  · apply engineStatWrite_stores
    exact h_m
  · apply pathStatWrite_stores
    exact h_m
  · apply lftStatWrite_stores
    exact h_m
  · apply washStatWrite_stores
    exact h_m
  · apply estStatWrite_stores
    exact h_m
  · apply thmStatWrite_stores
    exact h_m
  · apply nvmStatWrite_stores
    exact h_m
  · exact h_m

theorem regWrite_stores (m : Mach) (a : Nat) (w : Nat) (h_m : storesWf m = true) :
    storesWf (regWrite m a w) = true := by
  unfold regWrite
  dsimp only
  apply ite_stores
  · apply badAddr_stores
    exact h_m
  · apply ite_stores
    · apply namedWrite_stores
      exact h_m
    · apply ite_stores
      · apply ite_stores
        · apply causeClear_stores
          exact h_m
        · exact h_m
      · apply ite_stores
        · apply routeWrite_stores
          exact h_m
        · exact h_m

theorem execRegisterWrite_stores (addr : Nat) (word : Nat) (s : State) (h_s : storesWf s.m = true) :
    outStores (execRegisterWrite addr word s) := by
  unfold execRegisterWrite
  apply guardUnit_stores
  · exact h_s
  · apply regWrite_stores
    exact h_s

theorem execCauseClear_stores (block : Nat) (mask : Nat) (s : State) (h_s : storesWf s.m = true) :
    outStores (execCauseClear block mask s) := by
  unfold execCauseClear
  apply guardUnit_stores
  · exact h_s
  · apply causeClear_stores
    exact h_s

theorem slotWrite_stores (m : Mach) (a : Nat) (w : Nat) (h_m : storesWf m = true) :
    storesWf (slotWrite m a w) = true := by
  unfold slotWrite
  dsimp only
  apply ite_stores
  · apply slotPut_stores
    exact h_m
  · apply mk_stores
    exact h_m

theorem execMbxSlotWrite_stores (addr : Nat) (word : Nat) (s : State) (h_s : storesWf s.m = true) :
    outStores (execMbxSlotWrite addr word s) := by
  unfold execMbxSlotWrite
  apply guardUnit_stores
  · exact h_s
  · apply slotWrite_stores
    exact h_s

theorem hostWrite_stores (m : Mach) (a : Nat) (w : Nat) (h_m : storesWf m = true) :
    storesWf (hostWrite m a w) = true := by
  unfold hostWrite
  apply ite_stores
  · apply regWrite_stores
    exact h_m
  · apply ite_stores
    · apply slotWrite_stores
      exact h_m
    · apply badAddr_stores
      exact h_m

theorem commitWords_stores (m : Mach) (l : List (Nat × Nat)) (h_m : storesWf m = true) :
    storesWf (commitWords m l) = true := by
  unfold commitWords
  dsimp only
  split
  · exact h_m
  · apply foldl_stores
    · apply hostWrite_stores
      apply advance_stores
      apply draw_stores
      exact h_m
    · intro x0 x1 h2
      apply hostWrite_stores
      apply tick_stores
      exact h2

theorem moved_stores (m : Mach) (a : Nat) (noinc : Bool) (n : Nat) (h_m : storesWf m = true) :
    storesWf (moved m a noinc n) = true := by
  unfold moved
  dsimp only
  apply ite_stores
  · exact h_m
  · apply mk_stores
    exact h_m

theorem openBytes_stores (m : Mach) (n : Nat) (h_m : storesWf m = true) :
    storesWf (openBytes m n).2 = true := by
  exact draw_stores m h_m

theorem driven_stores (m : Mach) (bs : List Byte) (n : Nat) (tail : Nat) (h_m : storesWf m = true) :
    storesWf (driven m bs n tail) = true := by
  unfold driven
  dsimp only
  apply mk_stores
  exact h_m

theorem spi_stores (m : Mach) (mosi : List Byte) (tail : Nat) (h_m : storesWf m = true) :
    storesWf (spi m mosi tail) = true := by
  unfold spi
  dsimp only
  apply ite_stores
  · apply driven_stores
    apply mk_stores
    exact h_m
  · apply ite_stores
    · apply driven_stores
      apply badPartial_stores
      apply mk_stores
      exact h_m
    · apply ite_stores
      · apply driven_stores
        apply badAddr_stores
        apply openBytes_stores
        apply mk_stores
        exact h_m
      · apply ite_stores
        · apply driven_stores
          apply moved_stores
          apply mk_stores
          exact h_m
        · apply commitWords_stores
          apply ite_stores
          · apply badPartial_stores
            apply driven_stores
            apply moved_stores
            apply mk_stores
            exact h_m
          · apply driven_stores
            apply moved_stores
            apply mk_stores
            exact h_m

theorem execSpiTransaction_stores (mosi : List Nat) (tailBits : Nat) (s : State) (h_s : storesWf s.m = true) :
    outStores (execSpiTransaction mosi tailBits s) := by
  unfold execSpiTransaction
  apply guardUnit_stores
  · exact h_s
  · apply when_stores
    · exact h_s
    · intro x0 h1
      apply spi_stores
      exact h1

theorem i2c_stores (m : Mach) (segs : List I2cSeg) (h_m : storesWf m = true) :
    storesWf (i2c m segs) = true := by
  unfold i2c
  dsimp only
  apply commitWords_stores
  apply mk_stores
  have seg : ∀ (own : Nat) (r : I2cRun) (g : I2cSeg), storesWf r.m = true → storesWf (i2cSeg own r g).m = true := by
    intro own r g h
    cases g with
    | write ad bytes =>
      unfold i2cSeg
      dsimp only
      split
      · exact h
      · split
        · exact badPartial_stores _ h
        · split
          · exact badAddr_stores _ h
          · exact ite_stores _ _ _ (badPartial_stores _ (moved_stores _ _ _ _ h)) (moved_stores _ _ _ _ h)
    | read ad n =>
      unfold i2cSeg
      dsimp only
      split
      · exact h
      · split
        · exact openBytes_stores r.m n h
        · exact moved_stores r.m _ _ n h
  have fold : ∀ (own : Nat) (l : List I2cSeg) (r : I2cRun), storesWf r.m = true →
      storesWf (l.foldl (i2cSeg own) r).m = true := by
    intro own l
    induction l with
    | nil => exact fun _ h => h
    | cons g t ih => exact fun r h => ih _ (seg own r g h)
  refine fold _ _ _ ?_
  exact mk_stores h_m

theorem execI2cTransaction_stores (segs : List I2cSeg) (s : State) (h_s : storesWf s.m = true) :
    outStores (execI2cTransaction segs s) := by
  unfold execI2cTransaction
  apply guardUnit_stores
  · exact h_s
  · apply when_stores
    · exact h_s
    · intro x0 h1
      apply i2c_stores
      exact h1

theorem accept_stores (m : Mach) (s : Nat) (code : Nat) (tag : Nat) (cls : Nat) (crc : Nat) (h_m : storesWf m = true) :
    storesWf (accept m s code tag cls crc) = true := by
  unfold accept
  dsimp only
  have k := ring_of_stores h_m
  have hm := mem_of_stores h_m
  apply modSlot_stores
  refine setMbx_stores _ _ h_m (mbxWf_of hm ?_)
  simp only [ringOk, Bool.and_eq_true, decide_eq_true_eq] at k ⊢
  refine ⟨⟨⟨⟨ringPush_length _ _ k.1.1.1.1, k.1.1.1.2⟩, k.1.1.2⟩, ?_⟩, ?_⟩ <;> (unfold seqNext; split <;> omega)

theorem judge_stores (m : Mach) (s : Nat) (h_m : storesWf m = true) :
    storesWf (judge m s) = true := by
  unfold judge
  dsimp only
  split
  · apply writeResponse_stores
    apply mkMbx_stores
    · exact h_m
    · refine mbxWf_of ?_ ?_
      · dsimp only
        apply mem_of_mbx
        apply mbx_of_stores
        exact h_m
      · dsimp only
        apply ringOk_mod
        apply ring_of_mbx
        apply mbx_of_stores
        exact h_m
  · apply writeResponse_stores
    exact h_m
  · apply ite_stores
    · apply accept_stores
      exact h_m
    · apply refuseAt_stores
      exact h_m

theorem serve_stores (m : Mach) (h_m : storesWf m = true) :
    storesWf (serve m) = true := by
  unfold serve
  dsimp only
  split
  · exact h_m
  · split
    · apply refuseAt_stores
      apply mkMbx_stores
      · exact h_m
      · refine mbxWf_of ?_ ?_
        · dsimp only
          apply mem_of_mbx
          apply mbx_of_stores
          exact h_m
        · dsimp only
          apply ring_of_mbx
          apply mbx_of_stores
          exact h_m
    · apply judge_stores
      apply mkMbx_stores
      · exact h_m
      · refine mbxWf_of ?_ ?_
        · dsimp only
          apply mem_of_mbx
          apply mbx_of_stores
          exact h_m
        · dsimp only
          apply ring_of_mbx
          apply mbx_of_stores
          exact h_m

theorem execMbxServe_stores (s : State) (h_s : storesWf s.m = true) :
    outStores (execMbxServe s) := by
  unfold execMbxServe
  apply next_stores
  apply serve_stores
  exact h_s

theorem outcome_stores (m : Mach) (seq : Nat) (result : Nat) (detail : Nat) (h_m : storesWf m = true) :
    storesWf (outcome m seq result detail) = true := by
  unfold outcome
  split
  · apply ite_stores
    · apply closeEntry_stores
      exact h_m
    · exact h_m
  · exact h_m

theorem execCommandOutcome_stores (seq : Nat) (result : Nat) (detail : Nat) (s : State) (h_s : storesWf s.m = true) :
    outStores (execCommandOutcome seq result detail s) := by
  unfold execCommandOutcome
  apply guardUnit_stores
  · exact h_s
  · apply outcome_stores
    exact h_s

theorem execInternalEntryFlush_stores (s : State) (h_s : storesWf s.m = true) :
    outStores (execInternalEntryFlush s) := by
  unfold execInternalEntryFlush
  dsimp only
  apply next_stores
  apply mkMbx_stores
  · exact h_s
  · apply flushWaiting_stores
    apply mbx_of_stores
    exact h_s

theorem cmdDevInfoGet_stores (m : Mach) (w1 : Nat) (w2 : List Byte) (h_m : storesWf m = true) :
    ansStores (cmdDevInfoGet m w1 w2) := by
  unfold cmdDevInfoGet
  dsimp only
  simp only [ansStores]
  exact h_m

theorem execDevInfoGet_stores (slot : Nat) (s : State) (h_s : storesWf s.m = true) :
    outStores (execDevInfoGet slot s) := by
  unfold execDevInfoGet
  apply command_stores
  · intro x0 x1 x2 h3
    apply cmdDevInfoGet_stores
    exact h3
  · exact h_s

theorem cmdDevCmdCapsGet_stores (m : Mach) (w1 : Nat) (p : List Byte) (h_m : storesWf m = true) :
    ansStores (cmdDevCmdCapsGet m w1 p) := by
  unfold cmdDevCmdCapsGet
  dsimp only
  apply refuseFirst_stores
  simp only [ansStores]
  exact h_m

theorem execDevCmdCapsGet_stores (slot : Nat) (s : State) (h_s : storesWf s.m = true) :
    outStores (execDevCmdCapsGet slot s) := by
  unfold execDevCmdCapsGet
  apply command_stores
  · intro x0 x1 x2 h3
    apply cmdDevCmdCapsGet_stores
    exact h3
  · exact h_s

theorem cmdDevEcho_stores (m : Mach) (w1 : Nat) (p : List Byte) (h_m : storesWf m = true) :
    ansStores (cmdDevEcho m w1 p) := by
  unfold cmdDevEcho
  simp only [ansStores]
  exact h_m

theorem execDevEcho_stores (slot : Nat) (s : State) (h_s : storesWf s.m = true) :
    outStores (execDevEcho slot s) := by
  unfold execDevEcho
  apply command_stores
  · intro x0 x1 x2 h3
    apply cmdDevEcho_stores
    exact h3
  · exact h_s

theorem cmdJnlGet_stores (m : Mach) (w1 : Nat) (p : List Byte) (h_m : storesWf m = true) :
    ansStores (cmdJnlGet m w1 p) := by
  unfold cmdJnlGet
  dsimp only
  apply refuseFirst_stores
  simp only [ansStores]
  exact h_m

theorem execJnlGet_stores (slot : Nat) (s : State) (h_s : storesWf s.m = true) :
    outStores (execJnlGet slot s) := by
  unfold execJnlGet
  apply command_stores
  · intro x0 x1 x2 h3
    apply cmdJnlGet_stores
    exact h3
  · exact h_s

theorem cmdJnlFind_stores (m : Mach) (w1 : Nat) (p : List Byte) (h_m : storesWf m = true) :
    ansStores (cmdJnlFind m w1 p) := by
  unfold cmdJnlFind
  dsimp only
  apply refuseFirst_stores
  simp only [ansStores]
  exact h_m

theorem execJnlFind_stores (slot : Nat) (s : State) (h_s : storesWf s.m = true) :
    outStores (execJnlFind slot s) := by
  unfold execJnlFind
  apply command_stores
  · intro x0 x1 x2 h3
    apply cmdJnlFind_stores
    exact h3
  · exact h_s

end Machine
end Sys2Proof
end

