-- ==== Sys2Proof/Tests/Slice0.lean ====
section
/-! SUPPORT. Sys2Proof/Tests/Slice0.lean: for every statement with hypotheses a state and operands that meet them, one clause at
a time; a term that each check of WellFormed.lean refuses; and the worked examples of the manual. -/
namespace Sys2Proof
namespace Machine

set_option linter.unusedVariables false
set_option Elab.async false

/-- A machine that has started: rails, recall and configuration done, PP-A holding the Bib. -/
def W : Mach :=
  let m := State.reset.m
  { m with
    dev := { m.dev with vpreGood := true, vioGood := true, vcoreGood := true, resetPhase := false, recallDone := true
                        configApplied := true, fwStarted := true, strapsLatched := true }
    grd := { m.grd with owner := 1, procs := tupd m.grd.procs 0 fun x => { x with running := true, actsHolder := true } } }

/-- A command accepted in a slot, with this payload, next to execute. -/
def mkCmd (m : Mach) (code s : Nat) (p : List Nat) : Mach :=
  let b := p.map (BitVec.ofNat 8)
  let m := slotPut m s 8 (le 2 b.length ++ List.replicate 6 0 ++ b)
  let m := modSlot m s fun x => { x with st := .executing, code := code, jseq := 1 }
  { m with mbx := { m.mbx with accepted := [s] } }

/-- Port 47 as a source, as a sink, and as a bay; a running link with SERVICE and TEST. -/
def wSrc : Mach := modPd (modPort W 47 fun x => { x with mode := 1, tc := .attachedSrc }) 47 fun x =>
  { x with pe := .ready, contract := true, dfp := true }
def wSnk : Mach := modPd (modPort W 47 fun x => { x with mode := 1, tc := .attachedSnk }) 47 fun x => { x with pe := .snkWait }
def wBay : Mach := modPort W 47 fun x => { x with mode := 2, tc := .bay }
def wSvc : Mach := { W with svc := { W.svc with link := 3, port := 47, service := true, testPerm := true } }
def wTest : SelftestMeas :=
  { zeroA := 0, zeroB := 0, peaks := List.replicate 8 0, edgesOk := true, partnerMa := 0, compSteps := [0, 0], tmonMv := 600, vinMv := 48000 }
def wBias : PrebiasMeas := { vbsMv := 60000, zeros := [(0, 0)], samples := [65000, 0, 0, 0] }
def wRound : Round :=
  { vstsMv := 65000, sysMv := 0, auxMv := 0, taps := List.replicate 17 65000, sensors := List.replicate 94 0 }
def wWin : Window := { origin := 0x8A, kind := .port, unit := 47, endAt := 9 }
def wPtb : Ptb := { id := 254, kind := 7, target := 4095, value := 7, endAt := 9 }

/-! ### The conditions of the completion statements can be met, clause by clause -/

theorem witness_DeviceAndPowerCommands :
    -- DEV_INFO_GET
    (let slot : Nat := 3
     let m₀ := mkCmd W 0x0101 slot []
     slot < 5 ∧ ready m₀ 0x0101 slot = true ∧
     let m := begun m₀ slot
     let p := payload m₀ slot
     let v (kind : Nat) : List Byte :=
       let w := regionVersion m kind (ptrOf m kind)
       le 1 (w / 2 ^ 24) ++ le 1 (w / 2 ^ 16)
     True) ∧
    -- DEV_CMD_CAPS_GET
    (let slot : Nat := 3
     let m₀ := mkCmd W 0x0102 slot [17, 0, 0, 0]
     slot < 5 ∧ ready m₀ 0x0102 slot = true ∧
     let m := begun m₀ slot
     let p := payload m₀ slot
     let g := pU p 0 1
     (within g 0x01 0x11 = true) ∧
     True) ∧
    -- DEV_ECHO
    (let slot : Nat := 3
     let m₀ := mkCmd W 0x0103 slot [255]
     slot < 5 ∧ ready m₀ 0x0103 slot = true ∧
     let m := begun m₀ slot
     let p := payload m₀ slot
     True) ∧
    -- PWR_STATE_SET
    (let s : Nat := 3
     let m₀ := mkCmd W 0x0201 s [3, 0, 195, 165]
     s < 5 ∧ ready m₀ 0x0201 s = true ∧
     let m := begun m₀ s
     let p := payload m₀ s
     let t := pU p 0 1
     let att := anyAttached m
     let barred := (t = 1 && att) || (t = 2 && (att || anyInput m || bayCharging m || updOpen m))
       || (t = 3 && (anyInput m || att || bootSinkOn m))
     ((3 < t || pU p 2 2 ≠ (if t = 3 then 0xA5C3 else 0) : Bool) = false) ∧
     (barred = false) ∧
     (m₀.pwr.stateDue = none) ∧
     True) ∧
    -- PWR_RESET
    (let s : Nat := 3
     let m₀ := mkCmd W 0x0202 s [3, 1, 195, 165]
     s < 5 ∧ ready m₀ 0x0202 s = true ∧
     let m := begun m₀ s
     let p := payload m₀ s
     let k := pU p 0 1
     let u := pU p 1 1
     let okUnit := if k = 0 then u = 0 else if k = 2 then (blkResetNs u).isSome else u < 2
     ((3 < k || !okUnit || pU p 2 2 ≠ 0xA5C3 : Bool) = false) ∧
     (((k = 1 && m.grd.owner = u + 1) || updUses m k u || (k = 2 && 0x70 ≤ u && u < 0x78 && !canMove m (u - 0x70)) : Bool) = false) ∧
     True) ∧
    -- PWR_STAT_GET
    (let slot : Nat := 3
     let m₀ := mkCmd W 0x0203 slot []
     slot < 5 ∧ ready m₀ 0x0203 slot = true ∧
     let m := begun m₀ slot
     let p := payload m₀ slot
     let w := m.pwr
     True) ∧
    -- PWR_WAKE_CFG
    (let slot : Nat := 3
     let m₀ := mkCmd W 0x0204 slot [31, 0, 16, 14, 128, 58, 9, 0]
     slot < 5 ∧ ready m₀ 0x0204 slot = true ∧
     let m := begun m₀ slot
     let p := payload m₀ slot
     let q := pU p 2 2
     let t := pU p 4 4
     ((31 < pU p 0 1 || !(q = 0 || within q 10 3600) || !(t = 0 || within t 1 604800) : Bool) = false) ∧
     True) := by
  refine ⟨?_, ?_, ?_, ?_, ?_, ?_, ?_⟩ <;> decide +kernel

theorem witness_SourceAndStoreCommands :
    -- SRC_INPUT_CFG
    (let slot : Nat := 3
     let m₀ := mkCmd W 0x0301 slot [5, 2, 5, 3, 128, 56, 1, 0, 24, 109, 2, 0, 0, 113, 2, 0, 240, 73, 2, 0, 208, 7, 232, 3, 16, 14, 132, 3, 16, 14, 0, 0]
     slot < 5 ∧ ready m₀ 0x0301 slot = true ∧
     let m := begun m₀ slot
     let p := payload m₀ slot
     let i := pU p 0 1
     let typ := pU p 1 1
     let fl := pU p 3 1
     ((5 < i || 3 < typ || 5 < pU p 2 1 || 3 < fl || !within (pU p 4 4) 100 80000 || 159000 < pU p 8 4 || !within (pU p 12 4) 5000 160000 || !within (pU p 16 4) 3000 150000 || !within (pU p 20 2) 50 2000 || !within (pU p 22 2) 20 1000 || !within (pU p 24 2) 10 3600 || !within (pU p 26 2) 600 900 || 3600 < pU p 28 2 : Bool) = false) ∧
     True) ∧
    -- SRC_PATH_CFG
    (let slot : Nat := 3
     let m₀ := mkCmd W 0x0302 slot [136, 19, 180, 20, 48, 117, 100, 3, 244, 1, 238, 2, 100, 240, 0, 0]
     slot < 5 ∧ ready m₀ 0x0302 slot = true ∧
     let m := begun m₀ slot
     let p := payload m₀ slot
     let mnCfg := pU p 0 2
     let pr := (getChg m 0).prof
     let mn := if mnCfg ≠ 0 then mnCfg else pr.cells * (if pr.chem = 2 then 2500 else 3000)
     let fold := pU p 2 2
     ((!(mnCfg = 0 || within mnCfg 5000 48000) || !(fold = 0 || within fold (mn + 300) (mn + 5000)) || !within (pU p 4 2) 1000 30000 || !within (pU p 6 1) 10 100 || 3 < pU p 7 1 || !within (pU p 8 2) 10 500 || !within (pU p 10 2) (7 * pU p 6 1 + 50) 2000 || 100 < pU p 12 1 || !within (pU p 13 1) 3 240 : Bool) = false) ∧
     True) ∧
    -- SRC_INPUT_STAT_GET
    (let slot : Nat := 3
     let m₀ := mkCmd W 0x0303 slot [5, 0, 0, 0]
     slot < 5 ∧ ready m₀ 0x0303 slot = true ∧
     let m := begun m₀ slot
     let p := payload m₀ slot
     let i := pU p 0 1
     ((5 < i : Bool) = false) ∧
     True) ∧
    -- SRC_MPPT_SCAN
    (let slot : Nat := 3
     let m₀ := mkCmd ({ (modInp W 5 fun x => { x with typ := 2 }) with path := { W.path with storePresent := true, mode := .on } }) 0x0304 slot [5, 0, 0, 0]
     slot < 5 ∧ ready m₀ 0x0304 slot = true ∧
     let m := begun m₀ slot
     let p := payload m₀ slot
     let i := pU p 0 1
     ((5 < i : Bool) = false) ∧
     (((getInp m i).typ ≠ 2 || scanSkips m i : Bool) = false) ∧
     True) ∧
    -- SRC_SYS_TARGET_SET
    (let slot : Nat := 3
     let m₀ := mkCmd W 0x0305 slot [120, 230, 0, 0]
     slot < 5 ∧ ready m₀ 0x0305 slot = true ∧
     let m := begun m₀ slot
     let p := payload m₀ slot
     let t := pU p 0 2
     ((within t (m.path.sysFold + 500) 59000) = true) ∧
     ((m.path.mode ≠ .off : Bool) = false) ∧
     True) ∧
    -- STO_PROFILE_SET
    (let slot : Nat := 3
     let m₀ := mkCmd W 0x0401 slot [1, 13, 0, 0, 0, 0, 0, 0, 0, 0, 0, 0, 0, 0, 0, 0, 0, 0, 0, 0, 0, 0, 0, 0, 0, 0, 0, 0, 0, 0, 0, 0, 0, 0, 0, 0, 0, 0, 7, 15]
     slot < 5 ∧ ready m₀ 0x0401 slot = true ∧
     let m := begun m₀ slot
     let p := payload m₀ slot
     (profileFits m p = true) ∧
     True) ∧
    -- STO_TWIN_SET
    (let slot : Nat := 3
     let m₀ := mkCmd W 0x0402 slot [112, 254, 100, 0, 144, 1, 176, 4, 112, 254, 176, 4, 120, 255, 100, 250]
     slot < 5 ∧ ready m₀ 0x0402 slot = true ∧
     let m := begun m₀ slot
     let p := payload m₀ slot
     (twinOk (twinOf p) = true) ∧
     True) ∧
    -- STO_CHG_CTRL
    (let s : Nat := 3
     let m₀ := mkCmd wBay 0x0403 s [48, 1, 0, 0]
     s < 5 ∧ ready m₀ 0x0403 s = true ∧
     let m := begun m₀ s
     let p := payload m₀ s
     let c := pU p 0 1
     let a := pU p 1 1
     let x := getChg m c
     ((48 < c || 3 < a || (c ≠ 0 && !isBay m (c - 1)) : Bool) = false) ∧
     ((a = 2 && (x.st ≠ .stopped || x.prof.term < cellHigh m c) : Bool) = false) ∧
     ((a = 3 && x.st ≠ .done && x.st ≠ .maint : Bool) = false) ∧
     let on := modChg m c fun x => { x with chgEn := a = 1 }
     True) ∧
    -- STO_CHG_STAT_GET
    (let slot : Nat := 3
     let m₀ := mkCmd wBay 0x0404 slot [48, 0, 0, 0]
     slot < 5 ∧ ready m₀ 0x0404 slot = true ∧
     let m := begun m₀ slot
     let p := payload m₀ slot
     let c := pU p 0 1
     ((48 < c || (c ≠ 0 && !isBay m (c - 1)) : Bool) = false) ∧
     True) ∧
    -- STO_AUX_CFG
    (let slot : Nat := 3
     let m₀ := mkCmd (modCv W 54 fun x => { x with decl := { x.decl with topo := 1, phases := 1, irateMa := 1000 }, ph := tupd x.ph 0 fun y => { y with st := .inService } }) 0x0405 slot [1, 2, 3, 100, 96, 234, 0, 0, 100, 0, 0, 0, 16, 14, 0, 0]
     slot < 5 ∧ ready m₀ 0x0405 slot = true ∧
     let m := begun m₀ slot
     let p := payload m₀ slot
     let v := pU p 4 4
     let i := pU p 8 4
     ((1 < pU p 0 1 || 2 < pU p 1 1 || 3 < pU p 2 1 || 100 < pU p 3 1 || !within v 5000 60000 || !within i 100 80000 || 3600 < pU p 12 2 || irateTotal m 54 * v < v * i : Bool) = false) ∧
     True) := by
  refine ⟨?_, ?_, ?_, ?_, ?_, ?_, ?_, ?_, ?_, ?_⟩ <;> decide +kernel

theorem witness_LiftAndPortCommands :
    -- LFT_CFG
    (let slot : Nat := 3
     let m₀ := mkCmd W 0x0501 slot [160, 134, 1, 0, 32, 161, 7, 0, 232, 3, 232, 3, 32, 28, 208, 7, 96, 234, 88, 2, 50, 100, 50, 0]
     slot < 5 ∧ ready m₀ 0x0501 slot = true ∧
     let m := begun m₀ slot
     let p := payload m₀ slot
     ((100000 < pU p 0 4 || 500000 < pU p 4 4 || !within (pU p 8 2) 800 1000 || !within (pU p 10 2) 800 1000 || !within (pU p 12 2) 60 7200 || !within (pU p 14 2) 100 2000 || !within (pU p 16 2) 2500 60000 || !within (pU p 18 2) 5 600 || 50 < pU p 20 1 || !within (pU p 21 1) (pU p 20 1 + 1) 100 || 50 < pU p 22 1 : Bool) = false) ∧
     True) ∧
    -- LFT_CLASS_SET
    (let slot : Nat := 3
     let m₀ := mkCmd W 0x0502 slot [47, 3, 0, 0]
     slot < 5 ∧ ready m₀ 0x0502 slot = true ∧
     let m := begun m₀ slot
     let p := payload m₀ slot
     let k := pU p 0 1
     ((47 < k || 3 < pU p 1 1 : Bool) = false) ∧
     True) ∧
    -- LFT_BUDGET_GET
    (let slot : Nat := 3
     let m₀ := mkCmd W 0x0503 slot []
     slot < 5 ∧ ready m₀ 0x0503 slot = true ∧
     let m := begun m₀ slot
     let p := payload m₀ slot
     let l := m.lft
     True) ∧
    -- LFT_PASS_GET
    (let slot : Nat := 3
     let m₀ := mkCmd W 0x0504 slot [49, 0, 0, 0]
     slot < 5 ∧ ready m₀ 0x0504 slot = true ∧
     let m := begun m₀ slot
     let p := payload m₀ slot
     let h := pU p 0 1
     ((49 < h : Bool) = false) ∧
     True) ∧
    -- PRT_CFG
    (let slot : Nat := 3
     let m₀ := mkCmd W 0x0601 slot [47, 1, 1, 2, 3, 0, 0, 0]
     slot < 5 ∧ ready m₀ 0x0601 slot = true ∧
     let m := begun m₀ slot
     let p := payload m₀ slot
     let q := pU p 0 1
     let topo := (getCv m q).decl.topo
     ((47 < q || 2 < pU p 1 1 || 1 < pU p 2 1 || 2 < pU p 3 1 || 3 < pU p 4 1 || (pU p 1 1 = 2 && topo ≠ 1 && topo ≠ 2) : Bool) = false) ∧
     ((tcBusy (getPort m q) || (m.svc.link ≠ 0 && m.svc.port = q) : Bool) = false) ∧
     True) ∧
    -- PRT_STAT_GET
    (let slot : Nat := 3
     let m₀ := mkCmd W 0x0602 slot [47, 0, 0, 0]
     slot < 5 ∧ ready m₀ 0x0602 slot = true ∧
     let m := begun m₀ slot
     let p := payload m₀ slot
     let q := pU p 0 1
     ((47 < q : Bool) = false) ∧
     True) ∧
    -- PRT_MOIST_GET
    (let slot : Nat := 3
     let m₀ := mkCmd W 0x0603 slot [47, 0, 0, 0]
     slot < 5 ∧ ready m₀ 0x0603 slot = true ∧
     let m := begun m₀ slot
     let p := payload m₀ slot
     let q := pU p 0 1
     ((47 < q : Bool) = false) ∧
     True) ∧
    -- PRT_MOIST_CLEAR
    (let s : Nat := 4
     let m₀ := mkCmd wSvc 0x0604 s [255, 0, 0, 0]
     s < 5 ∧ ready m₀ 0x0604 s = true ∧
     let m := begun m₀ s
     let p := payload m₀ s
     let q := pU p 0 1
     (isService m s = true) ∧
     ((47 < q && q ≠ 0xFF : Bool) = false) ∧
     True) ∧
    -- PRT_WASHDOWN
    (let slot : Nat := 3
     let m₀ := mkCmd W 0x0605 slot [1, 0, 0, 0]
     slot < 5 ∧ ready m₀ 0x0605 slot = true ∧
     let m := begun m₀ slot
     let p := payload m₀ slot
     let a := pU p 0 1
     let onlyBoot := bit (pathStatWord m) 28 && !m.path.storePresent && (presentInputs m).isEmpty
     ((1 < a : Bool) = false) ∧
     ((a = 1 && (m.ui.washdown || onlyBoot) : Bool) = false) ∧
     ((a = 0 && !m.ui.washdown : Bool) = false) ∧
     True) ∧
    -- PRT_UI_CFG
    (let slot : Nat := 3
     let m₀ := mkCmd W 0x0606 slot [255, 200, 100, 3, 208, 7, 0, 0]
     slot < 5 ∧ ready m₀ 0x0606 slot = true ∧
     let m := begun m₀ slot
     let p := payload m₀ slot
     let q := pU p 0 1
     (((47 < q && q ≠ 0xFF) || 200 < pU p 1 1 || 100 < pU p 2 1 || 3 < pU p 3 1 || !within (pU p 4 2) 10 2000 : Bool) = false) ∧
     True) ∧
    -- PRT_UI_EVENT_GET
    (let slot : Nat := 3
     let m₀ := mkCmd W 0x0607 slot []
     slot < 5 ∧ ready m₀ 0x0607 slot = true ∧
     let m := begun m₀ slot
     let p := payload m₀ slot
     let es := m.ui.events.take 32
     True) ∧
    -- PRT_LED_SET
    (let slot : Nat := 3
     let m₀ := mkCmd W 0x0608 slot [47, 8, 100]
     slot < 5 ∧ ready m₀ 0x0608 slot = true ∧
     let m := begun m₀ slot
     let p := payload m₀ slot
     let q := pU p 0 1
     let pt := pU p 1 1
     ((47 < q || (8 < pt && pt ≠ 0xFF) || 100 < pU p 2 1 : Bool) = false) ∧
     True) := by
  refine ⟨?_, ?_, ?_, ?_, ?_, ?_, ?_, ?_, ?_, ?_, ?_, ?_⟩ <;> decide +kernel

theorem witness_PdAndBayCommands :
    -- PD_SRC_CFG
    (let slot : Nat := 3
     let m₀ := mkCmd W 0x0701 slot [255, 255, 2, 1, 128, 169, 3, 0, 136, 19, 0, 0]
     slot < 5 ∧ ready m₀ 0x0701 slot = true ∧
     let m := begun m₀ slot
     let p := payload m₀ slot
     let q := pU p 0 1
     (((47 < q && q ≠ 0xFF) || 2 < pU p 2 1 || 1 < pU p 3 1 || !within (pU p 4 4) 2500 240000 || !within (pU p 8 2) 500 5000 : Bool) = false) ∧
     True) ∧
    -- PD_SNK_CFG
    (let slot : Nat := 3
     let m₀ := mkCmd W 0x0702 slot [255, 1, 0, 0, 128, 169, 3, 0, 128, 187, 128, 187]
     slot < 5 ∧ ready m₀ 0x0702 slot = true ∧
     let m := begun m₀ slot
     let p := payload m₀ slot
     let q := pU p 0 1
     (((47 < q && q ≠ 0xFF) || 1 < pU p 1 1 || !within (pU p 4 4) 2500 240000 || !within (pU p 8 2) 5000 48000 || !within (pU p 10 2) (pU p 8 2) 48000 : Bool) = false) ∧
     True) ∧
    -- PD_STAT_GET
    (let slot : Nat := 3
     let m₀ := mkCmd W 0x0703 slot [47, 0, 0, 0]
     slot < 5 ∧ ready m₀ 0x0703 slot = true ∧
     let m := begun m₀ slot
     let p := payload m₀ slot
     let q := pU p 0 1
     ((47 < q : Bool) = false) ∧
     True) ∧
    -- PD_DR_SWAP_REQ
    (let s : Nat := 3
     let m₀ := mkCmd wSrc 0x0704 s [47, 0, 0, 0]
     s < 5 ∧ ready m₀ 0x0704 s = true ∧
     let m := begun m₀ s
     let p := payload m₀ s
     let q := pU p 0 1
     let role := pU p 1 1
     let x := getPd m q
     ((47 < q || 1 < role : Bool) = false) ∧
     ((!commandable m q || x.dfp = (role = 1) || x.drPending || x.drSeq.isSome : Bool) = false) ∧
     True) ∧
    -- PD_RESET
    (let s : Nat := 3
     let m₀ := mkCmd wSrc 0x0705 s [47, 2, 0, 0]
     s < 5 ∧ ready m₀ 0x0705 s = true ∧
     let m := begun m₀ s
     let p := payload m₀ s
     let q := pU p 0 1
     let k := pU p 1 1
     let seq := (getSlot m s).jseq
     let mark (m : Mach) : Mach := modPd m q fun x => { x with rstSeq := some seq }
     ((k = 1 && !isService m s : Bool) = false) ∧
     ((47 < q || 2 < k : Bool) = false) ∧
     ((!commandable m q || (getPd m q).rstSeq.isSome || (k = 2 && !isSource m q) : Bool) = false) ∧
     True) ∧
    -- PD_CORE_STAT_GET
    (let slot : Nat := 3
     let m₀ := mkCmd W 0x0706 slot []
     slot < 5 ∧ ready m₀ 0x0706 slot = true ∧
     let m := begun m₀ slot
     let p := payload m₀ slot
     let st (k : Nat) : Nat :=
       if ((getBlk m (0x70 + k)).fence).isSome then 2 else if (getCore m k).updating then 1
       else if (corePorts m k).isEmpty then 3 else 0
     True) ∧
    -- PD_MIGRATE
    (let s : Nat := 3
     let m₀ := mkCmd W 0x0707 s [7, 255, 0, 0]
     s < 5 ∧ ready m₀ 0x0707 s = true ∧
     let m := begun m₀ s
     let p := payload m₀ s
     let src := pU p 0 1
     let dst := pU p 1 1
     let tgt := if dst = 0xFF then (leastLoaded m src).getD src else dst
     ((7 < src || (7 < dst && dst ≠ 0xFF) || (dst ≠ 0xFF && (src / 4 ≠ dst / 4 || src = dst)) : Bool) = false) ∧
     ((12 < (corePorts m tgt).length + (corePorts m src).length && tgt ≠ src || (getCore m src).migSeq.isSome : Bool) = false) ∧
     ((tgt = src || !coreOk m tgt : Bool) = false) ∧
     True) ∧
    -- BAY_CFG
    (let slot : Nat := 3
     let m₀ := mkCmd W 0x0801 slot [255, 16, 2, 0, 244, 1, 120, 0]
     slot < 5 ∧ ready m₀ 0x0801 slot = true ∧
     let m := begun m₀ slot
     let p := payload m₀ slot
     let q := pU p 0 1
     (((q ≠ 0xFF && (47 < q || !isBay m q)) || 16 < pU p 1 1 || !within (pU p 2 1) 1 2 || !within (pU p 4 2) 20 500 || !within (pU p 6 2) 1 120 : Bool) = false) ∧
     True) ∧
    -- BAY_KEY_SET
    (let s : Nat := 4
     let m₀ := mkCmd wSvc 0x0802 s [3, 0, 0, 0, 0, 0, 0, 0, 0, 0, 0, 0, 0, 0, 0, 0, 0, 0, 0, 0, 0, 0, 0, 0, 0, 0, 0, 0, 0, 0, 0, 0, 0, 0, 0, 0, 0, 0, 0, 0, 0, 0, 0, 0, 0, 0, 0, 0, 0, 0, 0, 0, 0, 0, 0, 0, 0, 0, 0, 0, 0, 0, 0, 0, 0, 0, 0, 0]
     s < 5 ∧ ready m₀ 0x0802 s = true ∧
     let m := begun m₀ s
     let p := payload m₀ s
     let k := pU p 0 1
     let a := pU p 1 1
     (isService m s = true) ∧
     ((3 < k || 1 < a || (a = 1 && !onCurve (pU p 4 32) (pU p 36 32)) : Bool) = false) ∧
     ((a = 1 && (tget m.keys {} k).used : Bool) = false) ∧
     True) ∧
    -- BAY_STAT_GET
    (let slot : Nat := 3
     let m₀ := mkCmd W 0x0803 slot [47, 0, 0, 0]
     slot < 5 ∧ ready m₀ 0x0803 slot = true ∧
     let m := begun m₀ slot
     let p := payload m₀ slot
     let q := pU p 0 1
     ((47 < q : Bool) = false) ∧
     True) ∧
    -- BAY_RECORD_GET
    (let slot : Nat := 3
     let m₀ := mkCmd W 0x0804 slot [255, 0, 0, 0]
     slot < 5 ∧ ready m₀ 0x0804 slot = true ∧
     let m := begun m₀ slot
     let p := payload m₀ slot
     let x := pU p 0 2
     ((255 < x : Bool) = false) ∧
     True) ∧
    -- BAY_KEY_GET
    (let slot : Nat := 3
     let m₀ := mkCmd W 0x0805 slot []
     slot < 5 ∧ ready m₀ 0x0805 slot = true ∧
     let m := begun m₀ slot
     let p := payload m₀ slot
     True) ∧
    -- BAY_RECORD_FORGET
    (let s : Nat := 4
     let m₀ := mkCmd wSvc 0x0806 s [255, 0, 0, 0]
     s < 5 ∧ ready m₀ 0x0806 s = true ∧
     let m := begun m₀ s
     let p := payload m₀ s
     let x := pU p 0 2
     (isService m s = true) ∧
     ((255 < x : Bool) = false) ∧
     ((recHeld m x : Bool) = false) ∧
     True) ∧
    -- BAY_REAUTH
    (let slot : Nat := 3
     let m₀ := mkCmd (modBay wBay 47 fun x => { x with st := .link }) 0x0807 slot [47, 0, 0, 0]
     slot < 5 ∧ ready m₀ 0x0807 slot = true ∧
     let m := begun m₀ slot
     let p := payload m₀ slot
     let q := pU p 0 1
     ((47 < q || !isBay m q : Bool) = false) ∧
     (packPresent m q = true) ∧
     True) := by
  refine ⟨?_, ?_, ?_, ?_, ?_, ?_, ?_, ?_, ?_, ?_, ?_, ?_, ?_, ?_⟩ <;> decide +kernel

theorem witness_EstimatorAndThermalCommands :
    -- EST_CFG
    (let slot : Nat := 3
     let m₀ := mkCmd W 0x0901 slot [120, 0, 50, 0, 50, 0, 240, 0, 168, 0, 168, 0, 20, 90, 136, 19, 64, 66, 15, 0]
     slot < 5 ∧ ready m₀ 0x0901 slot = true ∧
     let m := begun m₀ slot
     let p := payload m₀ slot
     True) ∧
    -- EST_CTX_GET
    (let slot : Nat := 3
     let m₀ := mkCmd W 0x0902 slot [15, 1, 0, 0]
     slot < 5 ∧ ready m₀ 0x0902 slot = true ∧
     let m := begun m₀ slot
     let p := payload m₀ slot
     let x := pU p 0 2
     let c := getCtx m x
     let r (n : Nat) : Nat := if c.active then n else 0
     let ri (n : Int) : Int := if c.active then n else 0
     let flags := flag c.noAnchor 0 + flag c.reAnchored 1 + flag c.reverted 2 + flag c.stale 3 + flag c.initFlag 4
       + flag c.flat 5 + flag c.learnPending 6
     ((272 ≤ x : Bool) = false) ∧
     True) ∧
    -- EST_OCV_SET
    (let slot : Nat := 3
     let m₀ := mkCmd W 0x0903 slot [1, 2, 232, 3, 196, 9, 40, 10, 140, 10, 240, 10, 84, 11, 184, 11, 28, 12, 128, 12, 228, 12, 72, 13, 172, 13, 16, 14, 116, 14, 216, 14, 60, 15, 160, 15, 4, 16, 104, 16, 204, 16, 48, 17, 148, 17]
     slot < 5 ∧ ready m₀ 0x0903 slot = true ∧
     let m := begun m₀ slot
     let p := payload m₀ slot
     let chem := pU p 0 1
     let row := pU p 1 1
     let v (i : Nat) : Nat := pU p (4 + 2 * i) 2
     let m' := putOcv m p
     let t (i : Nat) : Int := (tget m'.est.tabs {} (chem - 1)).temps.getD i 0
     ((!within chem 1 2 || 2 < row || !((List.range 20).all fun i => v i < v (i + 1)) || v 0 < 2000 || 4500 < v 20 || t 1 ≤ t 0 || t 2 ≤ t 1 : Bool) = false) ∧
     True) ∧
    -- EST_OCV_GET
    (let slot : Nat := 3
     let m₀ := mkCmd W 0x0904 slot [2, 0, 0, 0]
     slot < 5 ∧ ready m₀ 0x0904 slot = true ∧
     let m := begun m₀ slot
     let p := payload m₀ slot
     let chem := pU p 0 1
     let tb := tget m.est.tabs {} (chem - 1)
     (within chem 1 2 = true) ∧
     True) ∧
    -- EST_EIS_REQ
    (let s : Nat := 3
     let m₀ := mkCmd (modCtx W 271 fun x => { x with active := true }) 0x0905 s [15, 1, 0, 0]
     s < 5 ∧ ready m₀ 0x0905 s = true ∧
     let m := begun m₀ s
     let p := payload m₀ s
     let x := pU p 0 2
     let c := ctxMach m x
     ((272 ≤ x : Bool) = false) ∧
     ((!(getCtx m x).active || eisPending m c : Bool) = false) ∧
     True) ∧
    -- EST_EIS_GET
    (let slot : Nat := 3
     let m₀ := mkCmd W 0x0906 slot [15, 1, 0, 0]
     slot < 5 ∧ ready m₀ 0x0906 slot = true ∧
     let m := begun m₀ slot
     let p := payload m₀ slot
     let x := pU p 0 2
     let c := getCtx m x
     ((272 ≤ x : Bool) = false) ∧
     True) ∧
    -- EST_CTX_SET
    (let s : Nat := 4
     let m₀ := mkCmd wSvc 0x0907 s [15, 1, 1, 0, 64, 66, 15, 0]
     s < 5 ∧ ready m₀ 0x0907 s = true ∧
     let m := begun m₀ s
     let p := payload m₀ s
     let x := pU p 0 2
     let a := pU p 2 1
     let v := pU p 4 4
     let c := getCtx m x
     (isService m s = true) ∧
     ((272 ≤ x || 4 < a || (a = 1 && !within v 1000 1000000) || (a = 2 && (100 * v < 50 * c.qNom || 120 * c.qNom < 100 * v)) || (a = 3 && !within v 1 65535) : Bool) = false) ∧
     (((a = 0 && eisOn m x) || (a = 4 && !c.active) : Bool) = false) ∧
     True) ∧
    -- EST_REST_REQ
    (let slot : Nat := 3
     let m₀ := mkCmd (modChg (modRec { W with dev := { W.dev with now := 300000000000 }, ctx := tupd W.ctx 255 fun x => { x with active := true } } 255 fun x => { x with holder := 47 }) 48 fun x => { x with st := .cc }) 0x0908 slot [255, 0, 0, 0]
     slot < 5 ∧ ready m₀ 0x0908 slot = true ∧
     let m := begun m₀ slot
     let p := payload m₀ slot
     let x := pU p 0 2
     let c := ctxMach m x
     ((272 ≤ x : Bool) = false) ∧
     ((!(getCtx m x).active || (if ctxStore x then !restBase m || m.lft.restAt.isSome else !pauseBase m (c - 1)) : Bool) = false) ∧
     True) ∧
    -- THM_CFG
    (let slot : Nat := 3
     let m₀ := mkCmd W 0x0A01 slot [5, 7, 100, 0, 200, 0, 0, 5, 120, 255, 255, 0]
     slot < 5 ∧ ready m₀ 0x0A01 slot = true ∧
     let m := begun m₀ slot
     let p := payload m₀ slot
     let cl := pU p 0 1
     let c : ThmClass := { arm := pU p 1 1, warn := pI p 2 2, throttle := pI p 4 2, limit := pI p 6 2, hyst := pU p 8 1
                           dwell := pU p 9 1, fastBand := pU p 10 1 }
     let r (v : Int) : Bool := withinI v (-400) 1280
     ((5 < cl || 7 < c.arm || !r c.warn || !r c.throttle || !r c.limit || c.throttle ≤ c.warn || c.limit ≤ c.throttle || 120 < c.hyst || c.dwell = 0 || c.fastBand < 16 || (cl ≤ 1 && 1320 ≤ c.limit + c.hyst) : Bool) = false) ∧
     True) ∧
    -- THM_GROUPS_GET
    (let slot : Nat := 3
     let m₀ := mkCmd W 0x0A02 slot []
     slot < 5 ∧ ready m₀ 0x0A02 slot = true ∧
     let m := begun m₀ slot
     let p := payload m₀ slot
     True) ∧
    -- THM_SENSOR_GET
    (let slot : Nat := 3
     let m₀ := mkCmd W 0x0A03 slot [93, 0, 0, 0]
     slot < 5 ∧ ready m₀ 0x0A03 slot = true ∧
     let m := begun m₀ slot
     let p := payload m₀ slot
     let x := pU p 0 1
     let s := getSens m x
     ((94 ≤ x : Bool) = false) ∧
     True) := by
  refine ⟨?_, ?_, ?_, ?_, ?_, ?_, ?_, ?_, ?_, ?_, ?_⟩ <;> decide +kernel

theorem witness_FaultAndWatchdogCommands :
    -- FLT_DETAIL_GET
    (let slot : Nat := 3
     let m₀ := mkCmd W 0x0B01 slot [138, 0, 0, 0]
     slot < 5 ∧ ready m₀ 0x0B01 slot = true ∧
     let m := begun m₀ slot
     let p := payload m₀ slot
     let b := pU p 0 1
     (isBlock b = true) ∧
     True) ∧
    -- FLT_CLEAR
    (let slot : Nat := 3
     let m₀ := mkCmd W 0x0B02 slot [138, 2, 255, 0]
     slot < 5 ∧ ready m₀ 0x0B02 slot = true ∧
     let m := begun m₀ slot
     let p := payload m₀ slot
     let b := pU p 0 1
     let a := pU p 1 1
     let u := pU p 2 1
     let st := if bit a 0 then releaseStatus m b u else .ok
     ((3 < a || !isBlock b || st = .outOfRange : Bool) = false) ∧
     ((st ≠ .ok : Bool) = false) ∧
     True) ∧
    -- FLT_FENCE
    (let slot : Nat := 3
     let m₀ := mkCmd W 0x0B03 slot [119, 255, 0, 0]
     slot < 5 ∧ ready m₀ 0x0B03 slot = true ∧
     let m := begun m₀ slot
     let p := payload m₀ slot
     let b := pU p 0 1
     let u := pU p 1 1
     let conv := 0x30 ≤ b && b < 0x67
     ((!(b < 0x68 || (0x70 ≤ b && b < 0x78)) || (u ≠ 0xFF && (!conv || declaredPhases (getCv m (b - 0x30)).decl ≤ u)) : Bool) = false) ∧
     ((unitFenced m b u : Bool) = false) ∧
     True) ∧
    -- BIB_HANDOVER
    (let s : Nat := 3
     let m₀ := mkCmd (modProc W 1 fun x => { x with running := true, sync := true }) 0x0B04 s []
     s < 5 ∧ ready m₀ 0x0B04 s = true ∧
     let m := begun m₀ s
     let p := payload m₀ s
     let h := (holder m).getD 0
     ((!standbyReady m h || m.grd.handover.isSome || m.grd.failingProc.isSome || policyUpd m || (m.upd.kind = 1 && m.upd.st = .verifying) : Bool) = false) ∧
     True) ∧
    -- GRD_HOLD_CFG
    (let slot : Nat := 3
     let m₀ := mkCmd W 0x0B05 slot [44, 1, 0, 0]
     slot < 5 ∧ ready m₀ 0x0B05 slot = true ∧
     let m := begun m₀ slot
     let p := payload m₀ slot
     (within (pU p 0 2) 1 300 = true) ∧
     True) ∧
    -- WDH_CFG_SET
    (let slot : Nat := 3
     let m₀ := mkCmd W 0x0C01 slot [96, 234, 7, 7]
     slot < 5 ∧ ready m₀ 0x0C01 slot = true ∧
     let m := begun m₀ slot
     let p := payload m₀ slot
     ((m.wdh.lock || m.wdh.lock1600 : Bool) = false) ∧
     ((!within (pU p 0 2) 10 60000 || 7 < pU p 2 1 || 7 < pU p 3 1 : Bool) = false) ∧
     True) ∧
    -- WDS_STAT_GET
    (let slot : Nat := 3
     let m₀ := mkCmd W 0x0C02 slot []
     slot < 5 ∧ ready m₀ 0x0C02 slot = true ∧
     let m := begun m₀ slot
     let p := payload m₀ slot
     let w := m.wds
     True) ∧
    -- WD_COUNT_GET
    (let slot : Nat := 3
     let m₀ := mkCmd W 0x0C03 slot []
     slot < 5 ∧ ready m₀ 0x0C03 slot = true ∧
     let m := begun m₀ slot
     let p := payload m₀ slot
     True) := by
  refine ⟨?_, ?_, ?_, ?_, ?_, ?_, ?_, ?_⟩ <;> decide +kernel

theorem witness_RetentionJournalUpdateCommands :
    -- NVM_READ
    (let slot : Nat := 3
     let m₀ := mkCmd W 0x0D01 slot [255, 15, 63, 64]
     slot < 5 ∧ ready m₀ 0x0D01 slot = true ∧
     let m := begun m₀ slot
     let p := payload m₀ slot
     let page := pU p 0 2
     let off := pU p 2 1
     let len := pU p 3 1
     ((4096 ≤ page || 64 ≤ off || !within len 1 64 : Bool) = false) ∧
     True) ∧
    -- NVM_WRITE
    (let s : Nat := 3
     let m₀ := mkCmd W 0x0D02 s [255, 15, 63, 1, 255]
     s < 5 ∧ ready m₀ 0x0D02 s = true ∧
     let m := begun m₀ s
     let p := payload m₀ s
     let page := pU p 0 2
     let off := pU p 2 1
     let len := pU p 3 1
     ((page < 3072 : Bool) = false) ∧
     ((4096 ≤ page || 64 ≤ off || !within len 1 64 : Bool) = false) ∧
     True) ∧
    -- NVM_ERASE
    (let s : Nat := 3
     let m₀ := mkCmd W 0x0D03 s [255, 15, 0, 0]
     s < 5 ∧ ready m₀ 0x0D03 s = true ∧
     let m := begun m₀ s
     let p := payload m₀ s
     let page := pU p 0 2
     ((page < 3072 : Bool) = false) ∧
     ((4096 ≤ page : Bool) = false) ∧
     True) ∧
    -- NVM_COUNTER_GET
    (let slot : Nat := 3
     let m₀ := mkCmd W 0x0D04 slot [7, 0, 0, 0]
     slot < 5 ∧ ready m₀ 0x0D04 slot = true ∧
     let m := begun m₀ slot
     let p := payload m₀ slot
     let c := pU p 0 1
     ((8 ≤ c : Bool) = false) ∧
     True) ∧
    -- NVM_SAVE
    (let slot : Nat := 3
     let m₀ := mkCmd W 0x0D05 slot []
     slot < 5 ∧ ready m₀ 0x0D05 slot = true ∧
     let m := begun m₀ slot
     let p := payload m₀ slot
     (saveReady m.nvm = true) ∧
     True) ∧
    -- NVM_PDW_SET
    (let slot : Nat := 3
     let m₀ := mkCmd W 0x0D06 slot [48, 117, 0, 0]
     slot < 5 ∧ ready m₀ 0x0D06 slot = true ∧
     let m := begun m₀ slot
     let p := payload m₀ slot
     (within (pU p 0 2) 4800 30000 = true) ∧
     True) ∧
    -- JNL_GET
    (let slot : Nat := 3
     let m₀ := mkCmd W 0x0E01 slot [0, 0, 0, 0, 31, 0, 0, 0]
     slot < 5 ∧ ready m₀ 0x0E01 slot = true ∧
     let m := begun m₀ slot
     let p := payload m₀ slot
     (within (pU p 4 1) 1 31 = true) ∧
     True) ∧
    -- JNL_FIND
    (let slot : Nat := 3
     let m₀ := mkCmd W 0x0E02 slot [1, 0, 0, 0, 1, 0, 0, 0]
     slot < 5 ∧ ready m₀ 0x0E02 slot = true ∧
     let m := begun m₀ slot
     let p := payload m₀ slot
     let cls := pU p 0 1
     let tag := pU p 4 4
     ((1 < cls || tag = 0 : Bool) = false) ∧
     True) ∧
    -- UPD_BEGIN
    (let slot : Nat := 3
     let m₀ := mkCmd W 0x0F01 slot [4, 255, 0, 0, 0, 16, 0, 0]
     slot < 5 ∧ ready m₀ 0x0F01 slot = true ∧
     let m := begun m₀ slot
     let p := payload m₀ slot
     let k := pU p 0 1
     let t := pU p 1 1
     let size := pU p 4 4
     ((!within k 1 4 || !(t = 0xFF || (k = 2 && t < 8)) || !within size 256 (regionSize k) : Bool) = false) ∧
     ((updOpen m : Bool) = false) ∧
     True) ∧
    -- UPD_DATA
    (let slot : Nat := 3
     let m₀ := mkCmd ({ W with upd := { W.upd with st := .receiving, kind := 4, size := 1 } }) 0x0F02 slot [0, 0, 0, 0, 1, 0, 0, 0, 0]
     slot < 5 ∧ ready m₀ 0x0F02 slot = true ∧
     let m := begun m₀ slot
     let p := payload m₀ slot
     let n := pU p 4 2
     let u := m.upd
     ((!within n 1 1000 || pU p 0 4 ≠ u.received || (u.st = .receiving && u.size < u.received + n) : Bool) = false) ∧
     ((u.st ≠ .receiving : Bool) = false) ∧
     True) ∧
    -- UPD_COMMIT
    (let s : Nat := 3
     let m₀ := mkCmd ({ W with upd := { W.upd with st := .receiving, kind := 4 } }) 0x0F03 s []
     s < 5 ∧ ready m₀ 0x0F03 s = true ∧
     let m := begun m₀ s
     let p := payload m₀ s
     let u := m.upd
     ((u.st ≠ .receiving || u.received ≠ u.size || !commitReady m : Bool) = false) ∧
     True) ∧
    -- UPD_ABORT
    (let slot : Nat := 3
     let m₀ := mkCmd ({ W with upd := { W.upd with st := .receiving, kind := 4 } }) 0x0F04 slot []
     slot < 5 ∧ ready m₀ 0x0F04 slot = true ∧
     let m := begun m₀ slot
     let p := payload m₀ slot
     ((!updOpen m || noReturn m : Bool) = false) ∧
     True) ∧
    -- UPD_STAT_GET
    (let slot : Nat := 3
     let m₀ := mkCmd W 0x0F05 slot []
     slot < 5 ∧ ready m₀ 0x0F05 slot = true ∧
     let m := begun m₀ slot
     let p := payload m₀ slot
     let u := m.upd
     True) := by
  refine ⟨?_, ?_, ?_, ?_, ?_, ?_, ?_, ?_, ?_, ?_, ?_, ?_, ?_⟩ <;> decide +kernel

theorem witness_ServiceCommands :
    -- SVC_LINK_ARM
    (let slot : Nat := 3
     let m₀ := mkCmd (modPort W 47 fun x => { x with mode := 1 }) 0x1001 slot [47, 0, 0, 0]
     slot < 5 ∧ ready m₀ 0x1001 slot = true ∧
     let m := begun m₀ slot
     let p := payload m₀ slot
     let q := pU p 0 1
     ((47 < q : Bool) = false) ∧
     ((armBarred m q || (getPort m q).mode = 0 : Bool) = false) ∧
     True) ∧
    -- SVC_LINK_STOP
    (let s : Nat := 3
     let m₀ := mkCmd W 0x1002 s []
     s < 5 ∧ ready m₀ 0x1002 s = true ∧
     True) ∧
    -- SVC_AUTH_CHALLENGE
    (let slot : Nat := 4
     let m₀ := mkCmd wSvc 0x1003 slot []
     slot < 5 ∧ ready m₀ 0x1003 slot = true ∧
     let m := begun m₀ slot
     let p := payload m₀ slot
     let (n, m) := draw m
     let x := Config.nonce n
     True) ∧
    -- SVC_AUTH_RESPONSE
    (let slot : Nat := 4
     let m₀ := mkCmd wSvc 0x1004 slot [0, 0, 0, 0, 0, 0, 0, 0, 0, 0, 0, 0, 0, 0, 0, 0, 0, 0, 0, 0, 0, 0, 0, 0, 0, 0, 0, 0, 0, 0, 0, 0, 0, 0, 0, 0, 0, 0, 0, 0, 0, 0, 0, 0, 0, 0, 0, 0, 0, 0, 0, 0, 0, 0, 0, 0, 0, 0, 0, 0, 0, 0, 0, 0, 0, 0, 0, 0, 0, 0, 0, 0, 0, 0, 0, 0, 0, 0, 0, 0, 0, 0, 0, 0, 0, 0, 0, 0, 0, 0, 0, 0, 0, 0, 0, 0, 0, 0, 0, 0, 0, 0, 0, 0, 0, 0, 0, 0, 0, 0, 0, 0, 0, 0, 0, 0, 0, 0, 0, 0, 0, 0, 0, 0, 0, 0, 0, 0, 0, 0, 0, 0, 0, 0, 0, 0, 0, 0, 0, 0, 0, 0, 0, 0, 0, 0, 0, 0, 0, 0, 0, 0, 0, 0, 0, 0, 0, 0, 0, 0, 0, 0, 0, 0, 0, 0, 0, 0, 0, 0, 0, 0]
     slot < 5 ∧ ready m₀ 0x1004 slot = true ∧
     let m := begun m₀ slot
     let p := payload m₀ slot
     let cert := bytesAt p 0 108
     let v := if m.svc.lockoutAt.isSome then 4 else techVerdict m cert (bytesAt p 108 64)
     True) ∧
    -- PTB_UNLOCK
    (let s : Nat := 4
     let m₀ := mkCmd wSvc 0x1005 s [195, 165, 0, 0, 16, 14]
     s < 5 ∧ ready m₀ 0x1005 s = true ∧
     let m := begun m₀ s
     let p := payload m₀ s
     ((isService m s && m.svc.testPerm) = true) ∧
     ((pU p 0 2 ≠ 0xA5C3 || !within (pU p 4 2) 60 3600 : Bool) = false) ∧
     True) ∧
    -- PTB_SET
    (let slot : Nat := 4
     let m₀ := mkCmd ({ wSvc with svc := { wSvc.svc with unlockAt := some 9 } }) 0x1006 slot [7, 0, 255, 15, 7, 0, 60, 0]
     slot < 5 ∧ ready m₀ 0x1006 slot = true ∧
     let m := begun m₀ slot
     let p := payload m₀ slot
     let kind := pU p 0 1
     let target := pU p 2 2
     let value := pI p 4 2
     let ttl := pU p 6 2
     ((m.svc.unlockAt.isNone : Bool) = false) ∧
     ((!ptbInRange m kind target value || !within ttl 1 60 : Bool) = false) ∧
     ((within kind 1 3 && !allAtFive m : Bool) = false) ∧
     ((8 ≤ m.svc.ptbs.length : Bool) = false) ∧
     True) ∧
    -- PTB_CLEAR
    (let slot : Nat := 3
     let m₀ := mkCmd W 0x1007 slot [255]
     slot < 5 ∧ ready m₀ 0x1007 slot = true ∧
     let m := begun m₀ slot
     let p := payload m₀ slot
     let id := pU p 0 1
     True) ∧
    -- SVC_STAT_GET
    (let slot : Nat := 3
     let m₀ := mkCmd W 0x1008 slot []
     slot < 5 ∧ ready m₀ 0x1008 slot = true ∧
     let m := begun m₀ slot
     let p := payload m₀ slot
     let x := m.svc
     let link := if x.link ≠ 0 then x.link else if x.armPort.isSome then 1 else 0
     let port := if x.link ≠ 0 then x.port else x.armPort.getD 0xFF
     let n := x.ptbs.length
     True) := by
  refine ⟨?_, ?_, ?_, ?_, ?_, ?_, ?_, ?_⟩ <;> decide +kernel

theorem witness_ConverterCommands :
    -- CNV_DECLARE
    (let slot : Nat := 3
     let m₀ := mkCmd W 0x1102 slot [54, 1, 4, 0, 232, 3, 232, 3, 232, 3, 16, 39, 88, 2, 120, 200]
     slot < 5 ∧ ready m₀ 0x1102 slot = true ∧
     let m := begun m₀ slot
     let p := payload m₀ slot
     let k := pU p 0 1
     let d := declOf p
     let trial := modCv m k fun c => { c with decl := d }
     ((54 < k || 3 < pU p 1 1 || !declInRange k d || !sparesOk m k d : Bool) = false) ∧
     ((d.topo ≠ 0 && (adcOver trial || engOver trial) : Bool) = false) ∧
     ((d.topo ≠ 0 && 1000000 < 2 * (getCv m k).ctrl.cfg.specLeadNs * d.fswKhz : Bool) = false) ∧
     (((getCv m k).run || (k < 48 && attached m k) : Bool) = false) ∧
     ((k < 48 && isBay m k && (d.topo = 0 || d.topo = 3) : Bool) = false) ∧
     True) ∧
    -- PHS_SELFTEST
    (let s : Nat := 3
     let m₀ := mkCmd (modCv W 54 fun x => { x with decl := { x.decl with topo := 1, phases := 1 } }) 0x1103 s [54]
     s < 5 ∧ ready m₀ 0x1103 s = true ∧
     let m := begun m₀ s
     let p := payload m₀ s
     let k := pU p 0 1
     let c := getCv m k
     ((54 < k : Bool) = false) ∧
     ((c.run || c.starting || c.decl.topo = 0 || (k < 48 && attached m k) : Bool) = false) ∧
     True) ∧
    -- PHS_STATUS_GET
    (let slot : Nat := 3
     let m₀ := mkCmd W 0x1104 slot [54]
     slot < 5 ∧ ready m₀ 0x1104 slot = true ∧
     let m := begun m₀ slot
     let p := payload m₀ slot
     let k := pU p 0 1
     ((54 < k : Bool) = false) ∧
     True) ∧
    -- CNV_LOOP_CFG
    (let slot : Nat := 3
     let m₀ := mkCmd W 0x1105 slot [54, 15, 3, 0, 88, 2, 96, 234, 182, 3, 208, 7, 100, 0, 255, 7, 255, 7, 255, 7, 255, 7, 136, 19, 244, 1, 244, 1]
     slot < 5 ∧ ready m₀ 0x1105 slot = true ∧
     let m := begun m₀ slot
     let p := payload m₀ slot
     let k := pU p 0 1
     let d := (getCv m k).decl
     let f := loopCfgOf p
     let o := (ctrlOf m k).cfg
     let fixedSame := f.loopEn = o.loopEn && f.updateDiv = o.updateDiv && f.vffNomMv = o.vffNomMv && f.mBk = o.mBk
       && f.mBst = o.mBst && f.modeHyst = o.modeHyst
     let trial := modCtrl m k fun c => { c with cfg := f }
     ((54 < k || !loopCfgOk d p || engOver trial : Bool) = false) ∧
     (((getCv m k).run && !fixedSame : Bool) = false) ∧
     True) ∧
    -- CNV_COEF_WRITE
    (let slot : Nat := 3
     let m₀ := mkCmd W 0x1106 slot [54, 7, 0, 0, 255, 255, 127, 0, 255, 255, 127, 0, 255, 255, 127, 0, 255, 255, 127, 0, 255, 255, 127, 0, 255, 255, 127, 0, 255, 255, 127, 0, 255, 255, 127, 0, 255, 255, 127, 0, 255, 255, 127, 0, 255, 255, 127, 0, 255, 255, 127, 0, 255, 255, 127, 0, 255, 255, 127, 0, 255, 255, 127, 0, 255, 255, 127, 0, 255, 255, 127, 0, 255, 255, 127, 0, 255, 255, 127, 0, 255, 255, 127, 0, 255, 255, 127, 0, 255, 255, 127, 0, 255, 255, 127, 0, 255, 255, 127, 0, 255, 255, 127, 0, 255, 255, 127, 0, 255, 255, 127, 0, 255, 255, 127, 0, 0, 0, 255, 255, 2, 1, 0, 0]
     slot < 5 ∧ ready m₀ 0x1106 slot = true ∧
     let m := begun m₀ slot
     let p := payload m₀ slot
     let k := pU p 0 1
     let n := pU p 1 1
     let st := setOf (p.drop 4)
     let c := ctrlOf m k
     ((54 < k || 7 < n || !setOk st : Bool) = false) ∧
     ((c.map.contains n || (c.pendMap.getD []).contains n : Bool) = false) ∧
     True) ∧
    -- CNV_SET_MAP
    (let s : Nat := 3
     let m₀ := mkCmd (modCv W 54 fun x => { x with decl := { x.decl with topo := 1 }, ctrl := { x.ctrl with sets := tupd (tupd (tupd x.ctrl.sets 0 fun y => { y with mode := 0 }) 1 fun y => { y with mode := 1 }) 2 fun y => { y with mode := 2 } } }) 0x1107 s [54, 0, 1, 2, 255, 255, 255, 0]
     s < 5 ∧ ready m₀ 0x1107 s = true ∧
     let m := begun m₀ s
     let p := payload m₀ s
     let k := pU p 0 1
     let mp := (List.range 6).map fun j => pU p (1 + j) 1
     ((54 < k || !mapOk (getCv m k).decl (ctrlOf m k) mp : Bool) = false) ∧
     ((cnvFenced m k : Bool) = false) ∧
     True) ∧
    -- CNV_REF_SET
    (let slot : Nat := 3
     let m₀ := mkCmd W 0x1108 slot [54, 3, 0, 0, 96, 234, 0, 0]
     slot < 5 ∧ ready m₀ 0x1108 slot = true ∧
     let m := begun m₀ slot
     let p := payload m₀ slot
     let k := pU p 0 1
     let j := pU p 1 1
     let v := pU p 4 4
     ((3 < j || !(if j = 0 || j = 3 then within v 5000 60000 else v ≤ 262143) : Bool) = false) ∧
     ((k ≠ 54 : Bool) = false) ∧
     True) ∧
    -- CNV_SPEC_STATS_GET
    (let slot : Nat := 3
     let m₀ := mkCmd W 0x1109 slot [54, 1, 0, 0]
     slot < 5 ∧ ready m₀ 0x1109 slot = true ∧
     let m := begun m₀ slot
     let p := payload m₀ slot
     let k := pU p 0 1
     ((54 < k || 1 < pU p 1 1 : Bool) = false) ∧
     True) ∧
    -- CNV_SPEC_RESUME
    (let slot : Nat := 3
     let m₀ := mkCmd ({ W with eng := { W.eng with suspended := true } }) 0x110A slot []
     slot < 5 ∧ ready m₀ 0x110A slot = true ∧
     let m := begun m₀ slot
     let p := payload m₀ slot
     (m.eng.suspended = true) ∧
     True) ∧
    -- CNV_PROT_CFG
    (let slot : Nat := 3
     let m₀ := mkCmd W 0x110B slot [54, 0, 250, 0, 208, 7, 44, 1, 100, 0]
     slot < 5 ∧ ready m₀ 0x110B slot = true ∧
     let m := begun m₀ slot
     let p := payload m₀ slot
     let k := pU p 0 1
     ((54 < k || !within (pU p 2 2) 50 250 || !within (pU p 4 2) 200 2000 || !within (pU p 6 2) 50 300 || !within (pU p 8 2) 1 100 : Bool) = false) ∧
     True) ∧
    -- CNV_PROT_STAT_GET
    (let slot : Nat := 3
     let m₀ := mkCmd W 0x110C slot [54, 0, 0, 0]
     slot < 5 ∧ ready m₀ 0x110C slot = true ∧
     let m := begun m₀ slot
     let p := payload m₀ slot
     let k := pU p 0 1
     ((54 < k : Bool) = false) ∧
     True) := by
  refine ⟨?_, ?_, ?_, ?_, ?_, ?_, ?_, ?_, ?_, ?_, ?_⟩ <;> decide +kernel

theorem witness_HostLinkEvents :
    -- SPI_TRANSACTION
    (let m : Mach := W
     let mosi : List Nat := [0x02, 0x10, 0x00, 0, 0, 0, 0]
     let tailBits : Nat := 7
     (((mosi.all fun b => b < 256) && tailBits < 8 : Bool) = true) ∧
     ((linkUp m && m.dev.hsel = 0 : Bool) = true) ∧
     True) ∧
    -- I2C_TRANSACTION
    (let m : Mach := { W with dev := { W.dev with hsel := 1 } }
     let segs : List I2cSeg := [.write 0x4A [0xFF]]
     (segs.all segOk = true) ∧
     ((linkUp m && m.dev.hsel = 1 && segs.any (segOurs m) : Bool) = true) ∧
     True) ∧
    -- WDH_SERVE
    (let m : Mach := W
     let key : Nat := 65535
     (key < 65536) ∧
     let w := m.wdh
     (¬(!wdhUp m)) ∧
     True) ∧
    -- WDH_DISABLE_SEQUENCE
    (let m₀ : Mach := W
     let key : Nat := 0x1F2E
     (key < 65536) ∧
     let m := m₀
     let w := m.wdh
     let bad (m : Mach) : Mach := { m with wdh := { m.wdh with badKey := true, firstKey := none } }
     (¬(key = 0 || !wdhUp m)) ∧
     let m := match w.firstKey with
       | some c => if 64 < c then bad m else m
       | none => m
     True) ∧
    -- WDH_LOCK_SET
    (let m : Mach := W
     True) ∧
    -- MBX_DOORBELL
    (let m : Mach := W
     let mask : Nat := 2 ^ 32 - 1
     (mask < 2 ^ 32) ∧
     True) ∧
    -- MBX_ACK
    (let m : Mach := W
     let mask : Nat := 2 ^ 32 - 1
     (mask < 2 ^ 32) ∧
     True) ∧
    -- MBX_SLOT_WRITE
    (let m : Mach := W
     let addr : Nat := 0x1FFC
     let word : Nat := 2 ^ 32 - 1
     ((0x1000 ≤ addr && addr < 0x2000 && addr % 4 = 0 && word < 2 ^ 32 : Bool) = true) ∧
     True) ∧
    -- CAUSE_CLEAR
    (let m : Mach := W
     let block : Nat := 0x8A
     let mask : Nat := 255
     ((isBlock block && mask < 256 : Bool) = true) ∧
     True) ∧
    -- REGISTER_WRITE
    (let m : Mach := W
     let addr : Nat := 0xFFC
     let word : Nat := 2 ^ 32 - 1
     ((addr < 0x1000 && addr % 4 = 0 && word < 2 ^ 32 : Bool) = true) ∧
     True) ∧
    -- MBX_SERVE
    (let m : Mach := W
     True) ∧
    -- COMMAND_OUTCOME
    (let m : Mach := W
     let seq : Nat := 2 ^ 32 - 1
     let result : Nat := 0x010B
     let detail : Nat := 2 ^ 32 - 1
     ((isStatus result && seq < 2 ^ 32 && detail < 2 ^ 32 : Bool) = true) ∧
     True) ∧
    -- INTERNAL_ENTRY_FLUSH
    (let m : Mach := W
     True) := by
  refine ⟨?_, ?_, ?_, ?_, ?_, ?_, ?_, ?_, ?_, ?_, ?_, ?_, ?_⟩ <;> decide +kernel

theorem witness_ResetEvents :
    -- POR
    (let m : Mach := W
     True) ∧
    -- BOR
    (let m : Mach := W
     let vpreMv : Nat := 4199
     ((m.dev.vpreGood && (vpreMv < 4200 || m.dev.borDue.isSome) : Bool) = true) ∧
     True) ∧
    -- PIN_RESET
    (let m : Mach := W
     let lowNs : Nat := 1000
     (¬(!m.dev.vpreGood)) ∧
     True) ∧
    -- PPR_AUTO
    (let m₀ : Mach := (modProc W 1 fun x => { x with pprAt := some 9 })
     let proc : Nat := 1
     (proc < 2) ∧
     let m := m₀
     let d : Nat := 9
     ((getProc m proc).pprAt = some d) ∧
     let m := advanceTo m d
     True) ∧
    -- BLK_DONE
    (let m₀ : Mach := { W with pwr := { W.pwr with blkAt := [(0x8A, 1000)] } }
     let block : Nat := 0x8A
     (((blkResetNs block).isSome) = true) ∧
     let m := m₀
     let d : Nat := 1000
     ((m.pwr.blkAt.find? fun x => x.1 = block).map (·.2) = some d) ∧
     let m := advanceTo m d
     True) ∧
    -- FER_AUTO
    (let m₀ : Mach := { W with pwr := { W.pwr with ferAuto := tupd W.pwr.ferAuto 1 fun _ => some 9 } }
     let die : Nat := 1
     (die < 2) ∧
     let m := m₀
     let d : Nat := 9
     (tget m.pwr.ferAuto none die = some d) ∧
     let m := advanceTo m d
     let m := { m with pwr := { m.pwr with ferTimes := tupd m.pwr.ferTimes die fun l => l ++ [nowMs m] } }
     let d := die
     (((tget m.pwr.ferAt none d).isSome) = false) ∧
     True) ∧
    -- FER_DONE
    (let m₀ : Mach := { W with pwr := { W.pwr with ferAt := tupd W.pwr.ferAt 1 fun _ => some 9 } }
     let die : Nat := 1
     (die < 2) ∧
     let m := m₀
     let d : Nat := 9
     (tget m.pwr.ferAt none die = some d) ∧
     let m := advanceTo m d
     True) ∧
    -- GDCLK_MISSING
    (let m : Mach := W
     True) ∧
    -- RESET_PHASE_END
    (let m : Mach := { W with dev := { W.dev with resetPhase := true } }
     let vstsMv : Nat := 65000
     (sysRated vstsMv = true) ∧
     ((m.dev.resetPhase && m.dev.vpreGood && m.dev.vioGood && m.dev.xin : Bool) = true) ∧
     True) ∧
    -- VPRE_GOOD
    (let m : Mach := { W with dev := { W.dev with vpreGood := false } }
     let vpreMv : Nat := 4500
     let bootOnly : Bool := false
     ((!m.dev.vpreGood && m.pwr.st ≠ .ship : Bool) = true) ∧
     True) ∧
    -- VIO_GOOD
    (let m : Mach := W
     (m.dev.vpreGood = true) ∧
     True) ∧
    -- STRAP_LATCH
    (let m : Mach := { W with dev := { W.dev with strapsLatched := false } }
     let hsel : Nat := 1
     let hadr : Nat := 1
     let dbp : Nat := 3
     ((hsel < 2 && hadr < 2 && dbp < 4 : Bool) = true) ∧
     ((m.dev.vioGood && !m.dev.strapsLatched : Bool) = true) ∧
     True) ∧
    -- RECALL_COMPLETE
    (let m : Mach := { W with dev := { W.dev with recallDone := false } }
     ((m.dev.vpreGood && m.dev.xin && !m.dev.recallDone && !m.dev.resetPhase : Bool) = true) ∧
     True) ∧
    -- CONFIG_APPLY
    (let m : Mach := { W with dev := { W.dev with configApplied := false } }
     ((m.dev.recallDone && !m.dev.resetPhase && !m.dev.configApplied && m.pwr.st ≠ .standby : Bool) = true) ∧
     True) := by
  refine ⟨?_, ?_, ?_, ?_, ?_, ?_, ?_, ?_, ?_, ?_, ?_, ?_, ?_, ?_⟩ <;> decide +kernel

theorem witness_RetentionEvents :
    -- HOLD_CHARGED
    (let m : Mach := W
     let holdMv : Nat := 12000
     ((m.dev.vpreGood && 12000 ≤ holdMv : Bool) = true) ∧
     True) ∧
    -- STORE_START
    (let m₀ : Mach := { W with dev := { W.dev with vpreGood := false } }
     let vstsMv : Nat := 8000
     let wake : Bool := false
     (sysRated vstsMv = true) ∧
     let m := m₀
     ((!m.dev.vpreGood && 8000 ≤ vstsMv && (wake || !m.pwr.shipLatch) : Bool) = true) ∧
     let m := leaveShip m 6
     True) ∧
    -- POWER_DOWN_WARNING
    (let m₀ : Mach := W
     let trigger : Nat := 0
     let mv : Nat := 4599
     let hold : List Nat := []
     (trigger < 3) ∧
     let m := m₀
     let m := if trigger = 1 then { m with path := { m.path with sysMv := mv } }
       else if trigger = 2 then { m with dev := { m.dev with vbootMv := mv } } else m
     let vb := warnsFromVboot m
     let hit := if trigger = 0 then !vb && mv < 4600 else if trigger = 1 then !vb && mv < m.nvm.pdwSysMv
       else vb && mv < 4500
     ((m.dev.vpreGood && !m.dev.resetPhase && !m.dev.warning && hit : Bool) = true) ∧
     True) ∧
    -- SAVE_COMPLETE
    (let m : Mach := { W with dev := { W.dev with warning := true } }
     let warningEnded : Bool := true
     ((m.dev.borDue.isNone && (m.dev.warning || m.pwr.stateDue = some 3) : Bool) = true) ∧
     True) ∧
    -- SAVE_REGION_ERASE
    (let m : Mach := { W with nvm := { W.nvm with stat := [(1280, .ok)] } }
     ((!saveReady m.nvm && m.dev.recallDone && m.dev.borDue.isNone : Bool) = true) ∧
     True) ∧
    -- CHECKPOINT
    (let m₀ : Mach := { W with nvm := { W.nvm with checkpointAt := some 9 } }
     let m := m₀
     let d : Nat := 9
     (m.nvm.checkpointAt = some d) ∧
     let m := advanceTo m d
     let m := writeCheckpoint m
     True) ∧
    -- NVM_PAGE_WRITE_DONE
    (let m₀ : Mach := { W with nvm := { W.nvm with cur := some { page := 440, bytes := some [], kind := .host } } }
     let ok1 : Bool := false
     let ok2 : Bool := true
     let m := m₀
     let w := ({ page := 440, bytes := some [], kind := .host } : PageWrite)
     ((if m.dev.xin then m.nvm.cur else none) = some w) ∧
     let once := ok1 || m.nvm.reverify
     let clean := ok1 && !m.nvm.reverify
     let more := if once then 0 else if w.kind = NvmKind.hostErase then 350000 else 1070000
     let m := advanceTo m (w.startAt + writeNs m.nvm w + more)
     let m :=
       match tornBy m w with
       | some b =>
         let bs := w.bytes.getD (List.replicate 64 0xFF)
         let nv := match w.item with
           | some (c, x) => { m.nvm with items := tornItem m.nvm.items c x }
           | none => nvFold (erasePage m.nvm w.page) (List.range b.value.toNat) fun nv k => programGroup nv w.page k bs
         let m := note { m with nvm := nv } blkNvm .nvmUnc 2
         answerWriter (ptbEnd m b.id) w 2
       | none =>
         if clean || ok2 then
           let m := { m with nvm := applyWrite m.nvm w }
           let m := match w.ctx with
             | some x => if w.kind = NvmKind.learned then
                 modCtx m x fun c => { c with learnPending := false, reverted := false } else m
             | none => m
           answerWriter m w (if clean then 0 else 1)
         else answerWriter (note (failWrite m w) blkNvm .nvmUnc 2) w 2
     True) ∧
    -- LEARNED_WRITE_DUE
    (let m : Mach := (modCtx W 271 fun x => { x with active := true, learnPending := true, actMs := 14400000 })
     let ctx : Nat := 271
     (ctx < 272) ∧
     (((getCtx m ctx).active && (getCtx m ctx).learnPending && 14400000 ≤ (getCtx m ctx).actMs : Bool) = true) ∧
     True) ∧
    -- XIN_RETURN
    (let m₀ : Mach := { W with dev := { W.dev with xin := false } }
     let m := m₀
     ((!m.dev.xin : Bool) = true) ∧
     let m := { m with dev := { m.dev with xin := true } }
     True) := by
  refine ⟨?_, ?_, ?_, ?_, ?_, ?_, ?_, ?_, ?_⟩ <;> decide +kernel

theorem witness_ClockAndLinkEvents :
    -- MCLK_LOSS
    (let m : Mach := W
     (m.dev.mclk = true) ∧
     True) ∧
    -- CLK_LOSS
    (let m₀ : Mach := W
     let dom : Nat := 3
     ((1 ≤ dom && dom ≤ 3 : Bool) = true) ∧
     let m := m₀
     (clkRuns m dom = true) ∧
     let d := m.dev
     let m := { m with dev := { d with ceclk := d.ceclk && dom ≠ 1, pwmclk := d.pwmclk && dom ≠ 2, adcclk := d.adcclk && dom ≠ 3 } }
     let m := setLive (note m blkClk .clkLoss 7) blkClk .clkLoss 7 true
     let first := m.grd.clkLost = 0
     let m := { m with grd := { m.grd with clkLost := m.grd.clkLost + flag (!bit m.grd.clkLost dom) dom } }
     (¬(!first)) ∧
     let ks := declaredConvs m
     let m := forAll m ks fun m k =>
       fenceConv (setLive (note m (cnvBlk k) .clkLoss 7) (cnvBlk k) .clkLoss 7 true) k (codeOf .clkLoss)
     let ports := (List.range 48).filter fun p => (getPort m p).mode ≠ 0 && !ks.contains p
     let m := forAll m ports fun m p => markFence (setLive (note m p .clkLoss 7) p .clkLoss 7 true) p (codeOf .clkLoss)
     True) ∧
    -- XIN_LOSS
    (let m : Mach := W
     (m.dev.xin = true) ∧
     True) ∧
    -- ESTCLK_LOSS
    (let m : Mach := W
     True) ∧
    -- DIE_LINK_LOSS
    (let m : Mach := W
     let die : Nat := 1
     (die < 2) ∧
     (((getBlk m (blkLinkE + die)).fence.isNone) = true) ∧
     True) ∧
    -- LINK_GLITCH
    (let m : Mach := W
     let die : Nat := 1
     (die < 2) ∧
     True) ∧
    -- FE_HEARTBEAT_LOSS
    (let m₀ : Mach := W
     let die : Nat := 1
     (die < 2) ∧
     let m := m₀
     let m := if (getBlk m (blkLinkE + die)).fence.isNone then dieLost m die else m
     let m := { m with dev := { m.dev with feDark := m.dev.feDark.filter (fun q => q ≠ die) ++ [die] } }
     True) ∧
    -- FE_W_REJOIN
    (let m : Mach := { (modChg W 0 fun x => { x with st := .suspended, cause := 7 }) with sto := { W.sto with tapsRead := true } }
     (((getBlk m (blkLinkE + 1)).fence.isNone && m.sto.tapsRead && (getChg m 0).st = .suspended
         && (getChg m 0).cause = 7 : Bool) = true) ∧
     True) ∧
    -- AONCLK_LOSS
    (let m : Mach := W
     (m.dev.aonclk = true) ∧
     True) ∧
    -- USBCLK_LOSS
    (let m : Mach := W
     True) := by
  refine ⟨?_, ?_, ?_, ?_, ?_, ?_, ?_, ?_, ?_, ?_⟩ <;> decide +kernel

theorem witness_EngineEvents :
    -- PERIOD_BOUNDARY
    (let m : Mach := (modCv W 54 fun x => { x with run := true })
     let conv : Nat := 54
     (conv < 55) ∧
     (((getCv m conv).run && m.dev.pwmclk : Bool) = true) ∧
     True) ∧
    -- SPECULATION
    (let m : Mach := (modCv W 54 fun x => { x with run := true, ctrl := { x.ctrl with cfg := { x.ctrl.cfg with specEn := true } } })
     let conv : Nat := 54
     let early : List (Option Int) := []
     (conv < 55) ∧
     ((specReady conv (getCv m conv) && specBefore m conv < 4 && m.dev.ceclk : Bool) = true) ∧
     let cv := getCv m conv
     True) ∧
    -- RESOLVE
    (let m : Mach := (modCv W 54 fun x => { x with run := true })
     let conv : Nat := 54
     let y : List Int := []
     (conv < 55) ∧
     (((getCv m conv).run && m.dev.ceclk && !(ctrlOf m conv).resolved
         && !(specOn (ctrlOf m conv) && (ctrlOf m conv).loaded) : Bool) = true) ∧
     True) ∧
    -- SHADOW_LOAD
    (let m : Mach := (modCv W 54 fun x => { x with run := true, ctrl := { x.ctrl with loaded := false, resolved := true } })
     let conv : Nat := 54
     (conv < 55) ∧
     let c := ctrlOf m conv
     (((getCv m conv).run && !c.loaded && m.dev.pwmclk
         && (!specOn c || c.resolved || heldPeriod (execNow conv (getCv m conv).decl c)) : Bool) = true) ∧
     True) ∧
    -- RECOVERY
    (let m : Mach := (modCv W 54 fun x => { x with run := true, ctrl := { x.ctrl with recovery := [{ why := 0, e := [], y := [], vin := 0, exec := [], snow := some 0 }] } })
     let conv : Nat := 54
     (conv < 55) ∧
     (((getCv m conv).run && m.dev.ceclk && recHead m conv
         && ((ctrlOf m conv).recovery.any fun r => r.snow.isSome || inTime (ctrlOf m conv) r) : Bool) = true) ∧
     True) ∧
    -- CTRL_STARVED
    (let m : Mach := (modCv W 54 fun x => { x with ctrl := { x.ctrl with starvedDue := true } })
     let conv : Nat := 54
     (conv < 55) ∧
     (((ctrlOf m conv).starvedDue) = true) ∧
     True) ∧
    -- SPEC_SUSPEND
    (let m₀ : Mach := { W with eng := { W.eng with starvedTimes := [0, 0, 0, 0] } }
     let m := m₀
     ((!m.eng.suspended
         && 4 ≤ (m.eng.starvedTimes.filter fun t => m.dev.now < t + ms 100).length : Bool) = true) ∧
     let m := note m blkEng .specSuspended 6
     True) ∧
    -- MODE_CHANGE
    (let m : Mach := (modCv W 54 fun x => { x with run := true, ctrl := { x.ctrl with resolved := true, committed := true, modeDwell := 4, modeNext := 2, mode := 1 } })
     let conv : Nat := 54
     (conv < 55) ∧
     let c := ctrlOf m conv
     (((getCv m conv).run && c.resolved && c.committed && !c.bank.ready && 4 ≤ c.modeDwell && c.modeNext ≠ c.mode : Bool) = true) ∧
     True) ∧
    -- PEAK_TRIP
    (let m : Mach := (modCv W 54 fun x => { x with run := true, decl := { x.decl with fswKhz := 600, blankNs := 120 }, ctrl := { x.ctrl with dutyEff := 65535 }, ph := tupd x.ph 0 fun y => { y with st := .inService } })
     let conv : Nat := 54
     let hit : PeakHit := { phase := 0, legB := false, imonUv := 65000000, sinceNs := 120 }
     ((conv < 55 && hit.phase < 8 : Bool) = true) ∧
     (((getCv m conv).run && (tget (getCv m conv).ph {} hit.phase).st = .inService && heard (getCv m conv) hit.sinceNs
         && crosses m conv (phaseChan m conv hit.phase + (if hit.legB then 1 else 0)) hit.imonUv : Bool) = true) ∧
     True) ∧
    -- SENSE_SPLIT
    (let m : Mach := (modCv W 54 fun x => { x with ph := tupd x.ph 0 fun y => { y with st := .inService } })
     let conv : Nat := 54
     let phase : Nat := 0
     let aMa : Int := 1
     let bMa : Int := 0
     ((conv < 55 && phase < 8 : Bool) = true) ∧
     (((tget (getCv m conv).ph {} phase).st = .inService
         && ((getCv m conv).decl.irateMa : Int) < 10 * (aMa - bMa).natAbs : Bool) = true) ∧
     True) := by
  refine ⟨?_, ?_, ?_, ?_, ?_, ?_, ?_, ?_, ?_, ?_⟩ <;> decide +kernel

theorem witness_PhaseAndAdcEvents :
    -- TMON_OPEN
    (let m : Mach := W
     let group : Nat := 15
     let mv : Nat := 99
     (group < 16) ∧
     ((mv < 100 && m.dev.adcclk : Bool) = true) ∧
     True) ∧
    -- STAGE_FAULT
    (let m : Mach := W
     let group : Nat := 15
     let mv : Nat := 2401
     (group < 16) ∧
     ((2400 < mv && m.dev.adcclk : Bool) = true) ∧
     True) ∧
    -- STAGE_IDENTIFY
    (let m : Mach := (modTmon W 15 fun x => { x with fault := true })
     let group : Nat := 15
     let found : List Nat := []
     (group < 16) ∧
     (((getTmon m group).fault && (getTmon m group).parkEnd.isNone : Bool) = true) ∧
     True) ∧
    -- PHASE_PARK_END
    (let m₀ : Mach := (modTmon W 15 fun x => { x with parkEnd := some 9 })
     let group : Nat := 15
     let mv : Nat := 600
     (group < 16) ∧
     let m := m₀
     let d : Nat := 9
     ((getTmon m group).parkEnd = some d) ∧
     let m := advanceTo m d
     True) ∧
    -- PHASE_SELFTEST
    (let m : Mach := (modCv W 54 fun x => { x with selftest := 1, decl := { x.decl with topo := 1, phases := 1 } })
     let conv : Nat := 54
     let phase : Nat := 0
     let meas : SelftestMeas := wTest
     ((conv < 55 && phase < 8 : Bool) = true) ∧
     (((getCv m conv).selftest ≠ 0 && !(getCv m conv).run && phase < declaredPhases (getCv m conv).decl
         && m.dev.configApplied && meas.peaks.length = 8 && meas.compSteps.length = 2 : Bool) = true) ∧
     True) ∧
    -- SELFTEST_DONE
    (let m : Mach := (modCv W 54 fun x => { x with selftest := 1 })
     let conv : Nat := 54
     (conv < 55) ∧
     (((getCv m conv).selftest ≠ 0 && !(getCv m conv).run : Bool) = true) ∧
     True) ∧
    -- SELFTEST_DEFERRED_RUN
    (let m : Mach := (modCv W 53 fun x => { x with selftest := 2 })
     let input : Nat := 5
     let vinMv : Nat := 5001
     (input < 6) ∧
     (vinMv ≤ 170000) ∧
     (((getCv m (48 + input)).selftest = 2 && 5000 < vinMv : Bool) = true) ∧
     True) ∧
    -- IMON_ZERO_CHECK
    (let m₀ : Mach := (modCv W 54 fun x => { x with decl := { x.decl with imonZeroMv := 600 }, ph := tupd x.ph 0 fun y => { y with st := .inService } })
     let conv : Nat := 54
     let phase : Nat := 0
     let zeroA : Nat := 651
     let zeroB : Nat := 600
     ((conv < 55 && phase < 8 : Bool) = true) ∧
     let m := m₀
     ((!(getCv m conv).run && (tget (getCv m conv).ph {} phase).st = .inService : Bool) = true) ∧
     let k := conv
     let idx := phase
     let za := zeroA
     let zb := zeroB
     let d := (getCv m k).decl
     let ok (z : Nat) : Bool := d.imonZeroMv ≤ z + 50 && z ≤ d.imonZeroMv + 50
     let za := ((za : Int) + ptbValue m 3 (phaseChan m k idx)).toNat
     let zb := ((zb : Int) + ptbValue m 3 (phaseChan m k idx + 1)).toNat
     let m := modCv m k fun c => { c with ph := tupd c.ph idx fun y =>
       { y with zeroA := za, zeroB := zb, zeroAt := m.dev.now } }
     (¬(ok za && ok zb)) ∧
     True) ∧
    -- ADC_ROTATION
    (let m₀ : Mach := { W with adc := { W.adc with rotateAt := some 9 } }
     let m := m₀
     (m.dev.adcclk = true) ∧
     let d : Nat := 9
     (m.adc.rotateAt = some d) ∧
     let m := advanceTo m d
     True) ∧
    -- ADC_HANDOVER
    (let m : Mach := W
     let disagree : List Nat := []
     let leavingErr : Nat := 0
     let standinErr : Nat := 0
     True) ∧
    -- ADC_CAL_DONE
    (let m₀ : Mach := (modAdc W 3 fun x => { x with st := .calibrating })
     let pass : Bool := true
     let m := m₀
     let a := 3
     ((adcIn m .calibrating).or (adcIn m .withdrawn) = some a) ∧
     let held := m.adc.retry
     let m := { m with adc := { m.adc with retry := false } }
     let m := if pass then adcFill (modAdc m a fun x => { x with st := .ready, fails := 0 })
       else if 1 ≤ (adcUnit m a).fails then adcShortage (modAdc m a fun x => { x with st := .retired })
       else modAdc m a fun x => { x with st := .calibrating, fails := 1 }
     True) ∧
    -- HOUSEKEEPING_ROUND
    (let m : Mach := W
     let round : Round := wRound
     ((round.taps.length = 17 && round.sensors.length = 94 : Bool) = true) ∧
     ((sysRated round.vstsMv && sysRated round.sysMv && sysRated round.auxMv && round.taps.all sysRated : Bool) = true) ∧
     (measuring m = true) ∧
     True) := by
  refine ⟨?_, ?_, ?_, ?_, ?_, ?_, ?_, ?_, ?_, ?_, ?_, ?_⟩ <;> decide +kernel

theorem witness_ConverterProtectionEvents :
    -- PREBIAS_CHECK
    (let m : Mach := (modCv W 54 fun x => { x with starting := true, selftest := 0, decl := { x.decl with topo := 1, phases := 1 }, ph := tupd x.ph 0 fun y => { y with st := .inService } })
     let conv : Nat := 54
     let meas : PrebiasMeas := wBias
     (conv < 55) ∧
     ((meas.vbsMv ≤ 60000 && meas.samples.all (· ≤ 65000) : Bool) = true) ∧
     ((mayCheck m conv && (protOf m conv).prebiasAt.isNone && meas.samples.length = 4 : Bool) = true) ∧
     True) ∧
    -- PREBIAS_RETRY
    (let m₀ : Mach := (modCv W 54 fun x => { x with starting := true, selftest := 0, decl := { x.decl with topo := 1, phases := 1 }, prot := { x.prot with prebiasAt := some 9 }, ph := tupd x.ph 0 fun y => { y with st := .inService } })
     let conv : Nat := 54
     let meas : PrebiasMeas := wBias
     (conv < 55) ∧
     ((meas.vbsMv ≤ 60000 && meas.samples.all (· ≤ 65000) : Bool) = true) ∧
     let m := m₀
     ((mayCheck m conv && meas.samples.length = 4 : Bool) = true) ∧
     let d : Nat := 9
     ((protOf m conv).prebiasAt = some d) ∧
     let m := advanceTo m d
     True) ∧
    -- BACKDRIVE_CLEAR
    (let m₀ : Mach := (modProt W 47 fun x => { x with backdrive := true })
     let port : Nat := 47
     let vbsMv : Nat := 799
     (port < 48) ∧
     (vbsMv ≤ 60000) ∧
     let m := m₀
     (((protOf m port).backdrive && vbsMv < 800 : Bool) = true) ∧
     let m := modProt m port fun p => { p with backdrive := false }
     True) ∧
    -- SHORT_DETECT
    (let m : Mach := (modCv W 47 fun x => { x with run := true, ctrl := { x.ctrl with softStart := true, loops := tupd x.ctrl.loops 0 fun y => { y with ref := fx 5000 } } })
     let conv : Nat := 47
     let sampleMv : Nat := 3999
     let limPermille : Nat := 900
     let ccOpen : Bool := false
     (conv < 55) ∧
     (sampleMv ≤ 65000) ∧
     True) ∧
    -- HICCUP_RETRY
    (let m₀ : Mach := (modCv W 47 fun x => { x with decl := { x.decl with topo := 1, phases := 1 }, prot := { x.prot with hiccupAt := some 9 } })
     let conv : Nat := 47
     (conv < 55) ∧
     let m := m₀
     let d : Nat := 9
     ((protOf m conv).hiccupAt = some d) ∧
     let m := advanceTo m d
     let m := modProt m conv fun p => { p with hiccupAt := none, hiccups := p.hiccups + 1 }
     (((conv < 48 || startWanted m conv) && (conv ≠ 54 || m.aux.wants) : Bool) = true) ∧
     let k := conv
     let c := getCv m k
     (¬(c.decl.topo = 0 || cnvFenced m k || c.run || m.grd.clkLost ≠ 0 || !m.dev.configApplied)) ∧
     let pend := (List.range (declaredPhases c.decl)).any fun j => (tget c.ph {} j).st = .pending
     True) ∧
    -- HICCUP_COUNT_RESET
    (let m₀ : Mach := (modProt W 54 fun x => { x with stableAt := some 9 })
     let conv : Nat := 54
     (conv < 55) ∧
     let m := m₀
     let d : Nat := 9
     ((protOf m conv).stableAt = some d) ∧
     let m := advanceTo m d
     True) ∧
    -- OV_DETECT
    (let m : Mach := (modCv W 47 fun x => { x with run := true })
     let conv : Nat := 47
     let sampleMv : Nat := 65000
     let ccOpen : Bool := false
     (conv < 55) ∧
     (sampleMv ≤ 65000) ∧
     (((getCv m conv).run) = true) ∧
     let k := conv
     (¬(thrUnit sampleMv ≤ ovNow m k)) ∧
     True) ∧
    -- UV_DETECT
    (let m : Mach := (modCv W 54 fun x => { x with run := true })
     let conv : Nat := 54
     let sampleMv : Nat := 0
     let limPermille : Nat := 0
     let ms : Nat := 1
     (conv < 55) ∧
     (sampleMv ≤ 65000) ∧
     (((getCv m conv).run) = true) ∧
     True) ∧
    -- PHASE_OPEN
    (let m : Mach := (modCv W 54 fun x => { x with run := true, decl := { x.decl with topo := 1, phases := 1 } })
     let conv : Nat := 54
     let legAMa : List Int := [0]
     let legBMa : List Int := [0]
     let valleyMa : List Int := [0]
     let periods : Nat := 32
     (conv < 55) ∧
     ((protJudged m conv && 32 ≤ periods && legAMa.length = declaredPhases (getCv m conv).decl
         && legBMa.length = legAMa.length && valleyMa.length = legAMa.length : Bool) = true) ∧
     True) ∧
    -- SENSE_RAIL
    (let m : Mach := (modCv W 54 fun x => { x with run := true, ph := tupd x.ph 0 fun y => { y with st := .inService } })
     let conv : Nat := 54
     let phase : Nat := 0
     let imonMv : Nat := 19
     ((conv < 55 && phase < 8 : Bool) = true) ∧
     (imonMv ≤ 3600) ∧
     ((protJudged m conv && (tget (getCv m conv).ph {} phase).st = .inService && (imonMv < 20 || 1780 < imonMv) : Bool) = true) ∧
     True) ∧
    -- SENSE_RIPPLE
    (let m : Mach := (modCv W 54 fun x => { x with run := true, ctrl := { x.ctrl with vinHist := [3145728000], dutyEff := 65535 }, decl := { x.decl with fswKhz := 600, lNh := 1000, irateMa := 1000 }, ph := tupd x.ph 0 fun y => { y with st := .inService } })
     let conv : Nat := 54
     let phase : Nat := 0
     let valleyMa : List Int := List.replicate 8 1000
     let midMa : List Int := List.replicate 8 1001
     ((conv < 55 && phase < 8 : Bool) = true) ∧
     ((protJudged m conv && (tget (getCv m conv).ph {} phase).st = .inService && valleyMa.length = 8 && midMa.length = 8
         && ((getCv m conv).decl.irateMa * riseDen m conv : Nat) ≤ 10 * halfRise m conv
         && (valleyMa.zip midMa).all fun e => 4 * (magnitude m conv e.2 - magnitude m conv e.1) * riseDen m conv < halfRise m conv : Bool) = true) ∧
     True) ∧
    -- DERATE_END
    (let m₀ : Mach := (modProt W 47 fun x => { x with derateAt := some 9 })
     let port : Nat := 47
     (port < 48) ∧
     let m := m₀
     let d : Nat := 9
     ((protOf m port).derateAt = some d) ∧
     let m := advanceTo m d
     True) := by
  refine ⟨?_, ?_, ?_, ?_, ?_, ?_, ?_, ?_, ?_, ?_, ?_, ?_⟩ <;> decide +kernel

theorem witness_PathAndInputEvents :
    -- BFET_MODE_EVAL
    (let m₀ : Mach := { W with path := { W.path with storePresent := true, sysMin := 15000 } }
     let vstsMv : Nat := 14699
     (sysRated vstsMv = true) ∧
     let m := m₀
     let v := vstsMv
     let m := { m with path := { m.path with vstsMv := v } }
     (¬(m.path.transAt.isSome || m.grd.clkLost ≠ 0)) ∧
     let dead := v + 300 < m.path.sysMin
     let near := (m.path.sysMv < v + 100 && v < m.path.sysMv + 100) || (dead && m.path.sysMin ≤ m.path.sysMv)
     (¬(m.path.joining && !near)) ∧
     let m := if m.path.joining then
         let m := { m with path := { m.path with joining := false } }
         modBlk m blkStore fun w => if w.fence = some (codeOf .storeRemoved) then { w with fence := none } else w
       else m
     let (md, m) := bfetSelect m v
     (¬(md = m.path.mode)) ∧
     True) ∧
    -- BFET_TRANSITION_DONE
    (let m₀ : Mach := { W with path := { W.path with transAt := some 9 } }
     let m := m₀
     (m.grd.clkLost = 0) ∧
     let d : Nat := 9
     (m.path.transAt = some d) ∧
     let m := advanceTo m d
     True) ∧
    -- REVERSE_COMPARATOR
    (let m₀ : Mach := { W with path := { W.path with mode := .diode } }
     let storeMa : Int := 201
     let m := m₀
     ((m.path.mode = .diode && 200 < storeMa : Bool) = true) ∧
     let m := modChg m 0 fun c => { c with iMa := storeMa }
     True) ∧
    -- LINEAR_UPDATE
    (let m : Mach := { W with path := { W.path with mode := .linear } }
     let sysMv : Nat := 48000
     let vstsMv : Nat := 20000
     let storeMa : Int := 100
     ((sysRated sysMv && sysRated vstsMv : Bool) = true) ∧
     (m.path.mode = .linear) ∧
     True) ∧
    -- LIN_OVERLOAD
    (let m₀ : Mach := { W with path := { W.path with mode := .linear, pdCapMw := 10000 } }
     let sysMv : Nat := 30000
     let vstsMv : Nat := 14999
     let storeMa : Int := 1000
     ((sysRated sysMv && sysRated vstsMv : Bool) = true) ∧
     let m := m₀
     ((m.path.mode = .linear && 1500 * (m.path.pdCapMw : Int) < ((sysMv : Int) - vstsMv) * storeMa : Bool) = true) ∧
     let (m, act) := detect m blkStore .linOverload 5 10000
     True) ∧
    -- INPUT_PRESENT
    (let m₀ : Mach := (modInp W 5 fun x => { x with typ := 1, enable := true, presentMv := 10000 })
     let input : Nat := 5
     let vinMv : Nat := 10000
     (input < 6) ∧
     (vinRated vinMv = true) ∧
     let m := m₀
     let i := input
     let vin := vinMv
     let x := getInp m i
     (¬(x.typ = 0 || !x.enable || x.present || vin < presMv x)) ∧
     let m := modInp m i fun x =>
       { x with present := true, parked := false, vinMv := vin, stopped := 0
                vehDetAt := if x.typ = 3 then after m (sec 1) else none, veh24 := none
                scanAt := if x.typ = 2 then after m (sec x.scanS) else none
                floorNow := if x.typ = 2 then x.floorNow else x.vfloorMv }
     True) ∧
    -- INPUT_ABSENT
    (let m₀ : Mach := (modInp W 5 fun x => { x with present := true, presentMv := 10000 })
     let input : Nat := 5
     let vinMv : Nat := 8999
     (input < 6) ∧
     (vinRated vinMv = true) ∧
     let m := m₀
     let i := input
     let vin := vinMv
     let x := getInp m i
     (¬(!x.present || 9 * presMv x ≤ 10 * vin)) ∧
     let m := modInp m i fun x =>
       { x with present := false, parked := false, vinMv := vin, scanning := false, scanEndAt := none, scanAt := none
                vehDetAt := none, veh24 := none, stopped := 0, restartAt := none }
     let m := setLive (stopRun m (48 + i)) (cnvBlk (48 + i)) .inOv 4 false
     let m := setLive (modProt m (48 + i) fun p => { p with hiccupAt := none, prebiasAt := none }) (cnvBlk (48 + i)) .short 4 false
     True) ∧
    -- IN_OV
    (let m₀ : Mach := (modInp W 5 fun x => { x with typ := 1, enable := true, vmaxMv := 20000 })
     let input : Nat := 5
     let vinMv : Nat := 20001
     (input < 6) ∧
     (vinRated vinMv = true) ∧
     let m := m₀
     let i := input
     let vin := vinMv
     let x := getInp m i
     (¬(x.typ = 0 || !x.enable || vin ≤ x.vmaxMv || cnvFenced m (48 + i))) ∧
     let b := cnvBlk (48 + i)
     let (m, act) := detect m b .inOv 4 10000
     let m := setLive (modInp m i fun x => { x with vinMv := vin }) b .inOv 4 true
     True) ∧
    -- IN_OV_RECOVER
    (let m₀ : Mach := (modInp W 5 fun x => { x with stopped := 1, vmaxMv := 20000 })
     let input : Nat := 5
     let vinMv : Nat := 18999
     (input < 6) ∧
     (vinRated vinMv = true) ∧
     let m := m₀
     let x := getInp m input
     ((x.stopped = 1 && 100 * vinMv < 95 * x.vmaxMv : Bool) = true) ∧
     let m := setLive (modInp m input fun x => { x with stopped := 0, vinMv := vinMv }) (cnvBlk (48 + input)) .inOv 4 false
     True) ∧
    -- INPUT_REVERSE
    (let m₀ : Mach := (modCv W 53 fun x => { x with run := true })
     let input : Nat := 5
     let iinMa : Int := -201
     (input < 6) ∧
     let m := m₀
     (((getCv m (48 + input)).run && iinMa < -200 : Bool) = true) ∧
     let (m, act) := detect m (cnvBlk (48 + input)) .reverse 4 10000
     True) ∧
    -- INPUT_REVERSE_RESTART
    (let m₀ : Mach := (modInp W 5 fun x => { x with restartAt := some 9 })
     let input : Nat := 5
     (input < 6) ∧
     let m := m₀
     let d : Nat := 9
     ((getInp m input).restartAt = some d) ∧
     let m := advanceTo m d
     let m := modInp m input fun x => { x with stopped := 0, restartAt := none }
     True) ∧
    -- VEHICLE_SYSTEM_DETECT
    (let m₀ : Mach := (modInp W 5 fun x => { x with vehDetAt := some 9 })
     let input : Nat := 5
     let vinMv : Nat := 18000
     (input < 6) ∧
     (vinRated vinMv = true) ∧
     let m := m₀
     let d : Nat := 9
     ((getInp m input).vehDetAt = some d) ∧
     let m := advanceTo m d
     True) ∧
    -- VEHICLE_PARK
    (let m₀ : Mach := (modInp W 5 fun x => { x with typ := 3, enable := true, present := true, veh24 := some false, vehHoldS := 1 })
     let input : Nat := 5
     let vinMv : Nat := 0
     (input < 6) ∧
     (vinRated vinMv = true) ∧
     let m := m₀
     let x := getInp m input
     ((x.typ = 3 && x.enable && x.present && !x.parked && x.veh24.isSome && x.vehHoldS ≠ 0 && vinMv < vehRun x : Bool) = true) ∧
     let m := modInp m input fun x => { x with parked := true, vinMv := vinMv }
     let m := modCv (stopRun m (48 + input)) (48 + input) fun c => { c with parked := true }
     True) ∧
    -- VEHICLE_UNPARK
    (let m₀ : Mach := (modInp W 5 fun x => { x with typ := 3, parked := true, veh24 := some false })
     let input : Nat := 5
     let vinMv : Nat := 60000
     (input < 6) ∧
     (vinRated vinMv = true) ∧
     let m := m₀
     let x := getInp m input
     ((x.typ = 3 && x.parked && vehRun x ≤ vinMv : Bool) = true) ∧
     let m := ladderApply (rankRecompute (modInp m input fun x => { x with parked := false, vinMv := vinMv }))
     True) := by
  refine ⟨?_, ?_, ?_, ?_, ?_, ?_, ?_, ?_, ?_, ?_, ?_, ?_, ?_, ?_⟩ <;> decide +kernel

theorem witness_SourceEvents :
    -- DONOR_LIMIT_UPDATE
    (let m : Mach := { W with path := { W.path with mode := .on } }
     let loadsMa : Nat := 0
     let inputsMa : Nat := 0
     ((m.path.mode = .on && !isLive m blkStore (codeOf .chgOc) && holderRuns m : Bool) = true) ∧
     True) ∧
    -- DONOR_WITHDRAW
    (let m₀ : Mach := { W with path := { W.path with donors := [47], donorPol := 2, donorSoc := 0, donorEndAt := some 9 } }
     let port : Nat := 47
     (port < 48) ∧
     let m := m₀
     ((m.path.donors.contains port && !donorCond m && (m.path.donorPol = 1 || m.path.donorPol = 2)
         && m.path.bootSink ≠ some port && !m.path.withdrawn.contains port : Bool) = true) ∧
     let d : Nat := 9
     (m.path.donorEndAt = some d) ∧
     let m := advanceTo m d
     True) ∧
    -- MPPT_STEP
    (let m₀ : Mach := (modInp (modCv W 53 fun x => { x with run := true }) 5 fun x => { x with typ := 2 })
     let input : Nat := 5
     let powerMw : Nat := 1000
     let foldPermille : Nat := 0
     (input < 6) ∧
     let m := m₀
     let x := getInp m input
     ((x.typ = 2 && (getCv m (48 + input)).run && !x.scanning && holderRuns m : Bool) = true) ∧
     let m := mpptStep m input powerMw foldPermille
     True) ∧
    -- MPPT_SCAN
    (let m₀ : Mach := (modInp W 5 fun x => { x with scanAt := some 9 })
     let input : Nat := 5
     (input < 6) ∧
     let m := m₀
     (holderRuns m = true) ∧
     let d : Nat := 9
     ((getInp m input).scanAt = some d) ∧
     let m := advanceTo m d
     True) ∧
    -- MPPT_SCAN_END
    (let m₀ : Mach := (modInp W 5 fun x => { x with scanEndAt := some 9 })
     let input : Nat := 5
     let vocMv : Nat := 170000
     (input < 6) ∧
     (vinRated vocMv = true) ∧
     let m := m₀
     let d : Nat := 9
     ((getInp m input).scanEndAt = some d) ∧
     let m := advanceTo m d
     let m := modInp m input fun x =>
       { x with scanning := false, scanEndAt := none, vocMv := vocMv, vinMv := vocMv, floorNow := x.foc * vocMv / 1000 }
     True) ∧
    -- SYS_LOW
    (let m₀ : Mach := { W with path := { W.path with mode := .on, sysMin := 15000 } }
     let sysMv : Nat := 14999
     (sysRated sysMv = true) ∧
     let m := m₀
     let sys := sysMv
     let m := { m with path := { m.path with sysMv := sys } }
     (¬((m.path.mode ≠ .on && m.path.mode ≠ .diode) || feeding m || m.path.sysMin ≤ sys || m.path.sysLow)) ∧
     let (m, act) := detect m blkStore .sysLow 4 (sec 1)
     (¬(!act)) ∧
     let ran := (List.range 48).filter fun p => (getCv m p).run || (getCv m p).starting
     let m := { m with path := { m.path with sysLow := true, lowRestart := ran } }
     let m := forAll m ran stopRun
     let m := forAll m ran fun m p => modProt m p fun x => { x with hiccupAt := none, prebiasAt := none }
     let m := forAll m (ran.filter fun p => !isBay m p && !(getCv m p).reverse) lowSignal
     let m := stopRun m 54
     True) ∧
    -- SYS_RECOVER
    (let m₀ : Mach := { W with path := { W.path with sysLow := true, sysFold := 16000 } }
     let sysMv : Nat := 16000
     (sysRated sysMv = true) ∧
     let m := m₀
     let sys := sysMv
     (¬(!(m.path.sysLow || m.path.restartWait) || sys < m.path.sysFold)) ∧
     let l := m.path.lowRestart
     let w := m.path.warnRestart
     let m := { m with path := { m.path with sysLow := false, restartWait := false, lowRestart := [], warnRestart := []
                                             sysMv := sys } }
     let m := forAll m l fun m p =>
       let m := modPd m p fun x => if x.pe = .hardReset then { x with pe := .startup } else x
       if attachedTypeC m p || isBay m p then requestStart m p else m
     let m := forAll m w fun m k => if k < 48 then portAgain m k else if k < 54 then inputGo m (k - 48) else m
     let m := auxEval m
     True) ∧
    -- CABLE_BOOT
    (let m₀ : Mach := { W with dev := { W.dev with vpreGood := false } }
     let port : Nat := 46
     let vbusMv : Nat := 4750
     let rp : Nat := 2
     ((port < 48 && rp < 3 : Bool) = true) ∧
     (vbusMv ≤ 60000) ∧
     let m := m₀
     let st := if m.dev.strapsLatched then strapped m.dev.dbp port else port % 2 = 0 || port < 4
     ((!m.dev.vpreGood && st && 4750 ≤ vbusMv && vbusMv ≤ 5500 : Bool) = true) ∧
     let (n, m) := draw m
     let m := { m with pwr := { m.pwr with lastWake := 7 }, path := { m.path with bootSink := some port }
                       dev := { m.dev with vbootMv := vbusMv - Config.freeNat n % 151 } }
     True) ∧
    -- BOOT_CAPS_TIMEOUT
    (let m₀ : Mach := { (modCv (modPort W 47 fun x => { x with partnerRp := 1 }) 47 fun x => { x with decl := { x.decl with topo := 1, phases := 1 } }) with path := { W.path with bootSink := some 47, bootCapsAt := some 9 } }
     let port : Nat := 47
     (port < 48) ∧
     let m := m₀
     (m.path.bootSink = some port) ∧
     let d : Nat := 9
     (m.path.bootCapsAt = some d) ∧
     let m := advanceTo m d
     let m := { m with path := { m.path with bootCapsAt := none } }
     (¬((getPort m port).partnerRp = 0)) ∧
     let k := port
     let c := getCv m k
     (¬(c.decl.topo = 0 || cnvFenced m k || c.run || m.grd.clkLost ≠ 0 || !m.dev.configApplied)) ∧
     let pend := (List.range (declaredPhases c.decl)).any fun j => (tget c.ph {} j).st = .pending
     True) ∧
    -- BOOT_SINK_LOSS
    (let m₀ : Mach := { W with path := { W.path with bootSink := some 47 } }
     let port : Nat := 47
     let sysMv : Nat := 0
     let vbootMv : Nat := 0
     let hold : List Nat := []
     (port < 48) ∧
     (sysRated sysMv = true) ∧
     let m := m₀
     (m.path.bootSink = some port) ∧
     let m := { m with path := { m.path with sysMv := sysMv }, dev := { m.dev with vbootMv := vbootMv } }
     let m := if (getPort m port).tc = .attachedSnk then sinkStop m port 1 4
       else { m with path := { m.path with bootSink := none, bootCapsAt := none } }
     True) ∧
    -- STORE_REMOVAL
    (let m : Mach := { W with path := { W.path with storePresent := true } }
     let detector : Nat := 2
     let sysMv : Nat := 48000
     let vstsMv : Nat := 48000
     let meanSysMv : Nat := 48000
     let storeMa : Int := 0
     (detector < 4) ∧
     ((sysRated sysMv && sysRated vstsMv && sysRated meanSysMv : Bool) = true) ∧
     let det := detector
     let sys := sysMv
     let vsts := vstsMv
     let mean := meanSysMv
     let i := storeMa
     let p := m.path
     let x := getChg m 0
     let hit : Bool :=
       if det = 0 then p.mode = .on && chgPermits x && x.vChg + 300 < sys && 10 * i < x.iNow
       else if det = 1 then (p.mode = .on || p.mode = .diode) && (mean + 500 < sys || sys + 500 < mean) && -100 ≤ i && i ≤ 100
       else if det = 2 then true
       else vsts < 2000 || (8000 ≤ vsts && m.sto.tapsRead && m.sto.taps.getD 16 0 - m.sto.taps.getD 0 0 < x.prof.cells * 1000)
     (¬(!p.storePresent || (getBlk m blkStore).fence.isSome || !hit)) ∧
     True) ∧
    -- STORE_ACCEPT
    (let m : Mach := { (modChg W 0 fun x => { x with prof := { x.prof with sntc := 0 } }) with sto := { W.sto with tapsRead := true } }
     let vstsMv : Nat := 2000
     (sysRated vstsMv = true) ∧
     let vsts := vstsMv
     let pr := (getChg m 0).prof
     (¬(!storeJudged m vsts)) ∧
     True) ∧
    -- SHIP_INPUT_WAKE
    (let m₀ : Mach := { W with pwr := { W.pwr with shipLatch := true }, dev := { W.dev with vpreGood := false } }
     let input : Nat := 5
     let volts : WakeVolts := { vinMv := 3001, vstsMv := 8000 }
     (input < 6) ∧
     ((vinRated volts.vinMv && sysRated volts.vstsMv : Bool) = true) ∧
     let m := m₀
     ((m.pwr.shipLatch && !m.dev.vpreGood && 3000 < volts.vinMv : Bool) = true) ∧
     let m := leaveShip (modInp m input fun x => { x with vinMv := volts.vinMv }) 4
     True) := by
  refine ⟨?_, ?_, ?_, ?_, ?_, ?_, ?_, ?_, ?_, ?_, ?_, ?_, ?_⟩ <;> decide +kernel

theorem witness_ChargeEvents :
    -- CHG_EVAL
    (let mc : Mach := W
     let m : Nat := 48
     let vMv : Nat := 65000
     let iMa : Int := 0
     (m < 49) ∧
     (sysRated vMv = true) ∧
     True) ∧
    -- V_CHG_UPDATE
    (let mc : Mach := (modChg W 48 fun x => { x with st := .cc })
     let m : Nat := 48
     let dMv : Int := 1
     (m < 49) ∧
     (((getChg mc m).st ≠ .off && holderRuns mc : Bool) = true) ∧
     True) ∧
    -- CHG_TIMER_SECOND
    (let mc : Mach := W
     let m : Nat := 48
     let noFeeder : Bool := true
     let feederIsrcFold : Bool := false
     let iMa : Int := 0
     let vMv : Nat := 0
     (m < 49) ∧
     (sysRated vMv = true) ∧
     True) ∧
    -- CHG_TIMER_EXPIRE
    (let mc : Mach := W
     let m : Nat := 48
     (m < 49) ∧
     True) ∧
    -- CHG_OC
    (let mc : Mach := W
     let m : Nat := 48
     let iMa : Int := 0
     (m < 49) ∧
     True) ∧
    -- CHG_OC_PERSIST
    (let m₀ : Mach := (modChg W 48 fun x => { x with ocAt := some 9 })
     let m : Nat := 48
     let iMa : Int := 0
     (m < 49) ∧
     let mc := m₀
     let d : Nat := 9
     ((getChg mc m).ocAt = some d) ∧
     let mc := advanceTo mc d
     True) ∧
    -- CELL_OV
    (let mc : Mach := W
     let m : Nat := 48
     let cellMv : Nat := 65000
     (m < 49) ∧
     (cellMv ≤ 65000) ∧
     True) ∧
    -- CUTOFF
    (let m₀ : Mach := { (modChg W 0 fun x => { x with prof := { x.prof with cut := 2800 } }) with path := { W.path with storePresent := true } }
     let cellMv : Nat := 2799
     let feederBefore : Bool := false
     let feederDuring : Bool := false
     let hold : List Nat := []
     let m := m₀
     let cell := cellMv
     let before := feederBefore
     let during := feederDuring
     (¬(feeding m || !m.path.storePresent || (getChg m 0).prof.cut ≤ cell || m.pwr.st = .ship)) ∧
     let m := stopSome m (List.range 48 ++ [54])
     True) ∧
    -- DSG_OC
    (let m : Mach := { (modChg W 0 fun x => { x with prof := { x.prof with valid := true, iDsg := 1000 } }) with path := { W.path with storePresent := true } }
     let iMa : Int := -2001
     let i := iMa
     let lim : Int := (getChg m 0).prof.iDsg
     (¬(!m.path.storePresent || !(getChg m 0).prof.valid)) ∧
     True) ∧
    -- AUX_POLICY_CHANGE
    (let m : Mach := W
     True) ∧
    -- AUX_HOLD_EXPIRE
    (let m₀ : Mach := { W with aux := { W.aux with holdAt := some 9 } }
     let m := m₀
     let d : Nat := 9
     (m.aux.holdAt = some d) ∧
     let m := advanceTo m d
     True) ∧
    -- CELL_TAP_FAST_LANE
    (let m : Mach := (modChg W 0 fun x => { x with prof := { x.prof with valid := true } })
     let taps : List Nat := List.replicate 17 65000
     (taps.length = 17) ∧
     (taps.all (· ≤ 65000) = true) ∧
     (((getChg m 0).prof.valid && (getBlk m (blkLinkE + 1)).fence.isNone : Bool) = true) ∧
     True) := by
  refine ⟨?_, ?_, ?_, ?_, ?_, ?_, ?_, ?_, ?_, ?_, ?_, ?_⟩ <;> decide +kernel

theorem witness_LiftEvents :
    -- LIFT_CYCLE
    (let m₀ : Mach := W
     let published : Bool := true
     let m := m₀
     (¬(!holderRuns m)) ∧
     let m := match m.lft.cycleAt with
       | some t => advanceTo m t
       | none => m
     let m := donorWatch (bibCheck { m with lft := { m.lft with cycleAt := after m (ms 1) } })
     True) ∧
    -- PASS_REQUEST
    (let m : Mach := W
     let holder : Nat := 48
     let mw : Nat := 1000
     (holder < 49) ∧
     ((holder = 48 || isBay m holder || (getHold m holder).held : Bool) = true) ∧
     True) ∧
    -- GRANT_DELIVERY
    (let m₀ : Mach := (modHold W 49 fun x => { x with deliver := true })
     let holder : Nat := 49
     (holder < 50) ∧
     let m := m₀
     let h := holder
     let x := getHold m h
     (¬(!x.deliver)) ∧
     let m := modHold m h fun x => { x with deliver := false, answers := false }
     True) ∧
    -- PASS_EXCESS
    (let m : Mach := (modHold (modCv W 47 fun x => { x with run := true }) 47 fun x => { x with held := true })
     let port : Nat := 47
     let mw : Nat := 1000
     (port < 48) ∧
     let p := port
     let h := getHold m p
     let c := getCv m p
     let moving := (getPd m p).pe = .transition || !settled (tget c.ctrl.loops {} 0)
     (¬(!h.held || isBay m p || !c.run || c.reverse || !overGrant h mw || !holderRuns m)) ∧
     (¬(c.ctrl.softStart || moving || c.prot.derateAt.isSome || h.renego)) ∧
     True) ∧
    -- RECLAIM_HARD_RESET
    (let m₀ : Mach := (modHold W 47 fun x => { x with hardAt := some 9 })
     let port : Nat := 47
     (port < 48) ∧
     let m := m₀
     let d : Nat := 9
     ((getHold m port).hardAt = some d) ∧
     let m := advanceTo m d
     True) ∧
    -- REST_GRANT_END
    (let m : Mach := { W with lft := { W.lft with restAt := some 9 } }
     let sLow : Bool := false
     let t := 9
     (m.lft.restAt = some t) ∧
     True) ∧
    -- EIS_GRANT_END
    (let mc : Mach := W
     let m : Nat := 48
     (m < 49) ∧
     True) := by
  refine ⟨?_, ?_, ?_, ?_, ?_, ?_, ?_⟩ <;> decide +kernel

theorem witness_TypeCEvents :
    -- RD_DETECT
    (let m : Mach := W
     let port : Nat := 47
     let cc : Nat := 1
     let ra : Bool := true
     ((port < 48 && cc < 2 : Bool) = true) ∧
     ((!(getPort m port).accessory : Bool) = true) ∧
     True) ∧
    -- CC_DEBOUNCE
    (let m₀ : Mach := (modPort W 47 fun x => { x with debounceAt := some 9 })
     let port : Nat := 47
     (port < 48) ∧
     let m := m₀
     let d : Nat := 9
     ((getPort m port).debounceAt = some d) ∧
     let m := advanceTo m d
     True) ∧
    -- ATTACHED_SRC
    (let m : Mach := (modPort W 47 fun x => { x with checkOk := true, tc := .attachWaitSrc })
     let port : Nat := 47
     (port < 48) ∧
     let x := getPort m port
     ((x.checkOk && (x.tc = .attachWaitSrc || x.tc = .trySrc || x.tc = .tryWaitSrc) && !m.grd.tsd : Bool) = true) ∧
     True) ∧
    -- SOURCE_DETACH
    (let m : Mach := W
     let port : Nat := 47
     (port < 48) ∧
     True) ∧
    -- SINK_DETACH
    (let m : Mach := W
     let port : Nat := 47
     let vbsMv : Nat := 60000
     let rpAbsent : Bool := true
     (port < 48) ∧
     (vbsMv ≤ 60000) ∧
     True) ∧
    -- SINK_ATTACH
    (let m : Mach := W
     let port : Nat := 47
     let cc : Nat := 1
     let rp : Nat := 2
     ((port < 48 && cc < 2 && rp < 3 : Bool) = true) ∧
     (((getPort m port).checkEndAt.isNone) = true) ∧
     True) ∧
    -- DRP_TOGGLE
    (let m₀ : Mach := (modPort W 47 fun x => { x with toggleAt := some 9 })
     let port : Nat := 47
     (port < 48) ∧
     let m := m₀
     let d : Nat := 9
     ((getPort m port).toggleAt = some d) ∧
     let m := advanceTo m d
     True) ∧
    -- TRY_TIMEOUT
    (let m₀ : Mach := (modPort W 47 fun x => { x with tryAt := some 9 })
     let port : Nat := 47
     (port < 48) ∧
     let m := m₀
     let d : Nat := 9
     ((getPort m port).tryAt = some d) ∧
     let m := advanceTo m d
     True) ∧
    -- ERROR_RECOVERY_END
    (let m₀ : Mach := (modPort W 47 fun x => { x with recoverAt := some 9 })
     let port : Nat := 47
     (port < 48) ∧
     let m := m₀
     let d : Nat := 9
     ((getPort m port).recoverAt = some d) ∧
     let m := advanceTo m d
     True) ∧
    -- ACCESSORY_DETECT
    (let m₀ : Mach := W
     let port : Nat := 47
     let present : Bool := false
     (port < 48) ∧
     let m := m₀
     let p := port
     (¬(present && !isUnattached (getPort m p))) ∧
     let m := if present && !(getPort m p).accessory then note m p .accessory 2 else m
     True) ∧
    -- VCONN_OC
    (let m₀ : Mach := (modPort W 47 fun x => { x with tc := .attachedSrc, vconn := true })
     let port : Nat := 47
     let ma : Nat := 201
     let atLimit : Bool := false
     (port < 48) ∧
     let m := m₀
     let p := port
     let m := modPort m p fun x => { x with vconnMa := ma }
     (¬(!isSource m p || !(getPort m p).vconn || !(200 < ma || atLimit))) ∧
     let m := note (modPort m p fun x => { x with vconn := false, vconnOc := true }) p .vconnOc 3
     let m := modPd m p fun x => { x with cable := 0, discAt := none }
     True) ∧
    -- MOISTURE_CHECK
    (let m₀ : Mach := (modPort W 47 fun x => { x with tc := .unattachedSrc, checkAt := some 9 })
     let port : Nat := 47
     (port < 48) ∧
     let m := m₀
     let x := getPort m port
     let may := isUnattached x || x.tc = .moistHold || (x.tc = .bay && bayEmpty m port && !m.ui.washdown)
     ((may && x.checkEndAt.isNone : Bool) = true) ∧
     let d : Nat := 9
     (x.checkAt = some d) ∧
     let m := advanceTo m d
     True) ∧
    -- MOISTURE_CHECK_DONE
    (let m₀ : Mach := (modPort W 47 fun x => { x with checkEndAt := some 9 })
     let port : Nat := 47
     let pins : List PinMeas := []
     (port < 48) ∧
     let m := m₀
     let d : Nat := 9
     ((getPort m port).checkEndAt = some d) ∧
     let m := advanceTo m d
     True) ∧
    -- WASHDOWN_AUTO_EXIT
    (let m : Mach := { W with ui := { W.ui with washdown := true } }
     ((m.ui.washdown && washClean m : Bool) = true) ∧
     True) ∧
    -- CC_OVERVOLTAGE
    (let m₀ : Mach := W
     let port : Nat := 47
     let pin : Nat := 3
     let mv : Nat := 6001
     ((port < 48 && pin < 4 : Bool) = true) ∧
     (mv ≤ 60000) ∧
     let m := m₀
     let p := port
     (¬(mv ≤ 6000 || (getPort m p).pinsOff.contains pin)) ∧
     let m := modPort m p fun x =>
       { x with pinsOff := x.pinsOff ++ [pin], checkEndAt := none, checkOk := false
                checkAt := if x.checkEndAt.isSome then after m (sec 10) else x.checkAt }
     let m := note m p .backdrive 4
     let x := getPort m p
     True) ∧
    -- CC_PIN_RECONNECT
    (let m : Mach := W
     let port : Nat := 47
     let pin : Nat := 3
     let mv : Nat := 5499
     ((port < 48 && pin < 4 : Bool) = true) ∧
     (mv ≤ 60000) ∧
     (mv < 5500) ∧
     True) := by
  refine ⟨?_, ?_, ?_, ?_, ?_, ?_, ?_, ?_, ?_, ?_, ?_, ?_, ?_, ?_, ?_, ?_⟩ <;> decide +kernel

theorem witness_UserInterfaceEvents :
    -- UI_FRAME
    (let m₀ : Mach := W
     let caps : List Nat := List.replicate 48 65535
     (caps.length = 48) ∧
     ((caps.all fun c => c ≤ 65535) = true) ∧
     let m := m₀
     ((m.dev.tchclk && m.dev.configApplied && m.pwr.st ≠ .standby && m.pwr.st ≠ .ship : Bool) = true) ∧
     let m := toFrame m
     let n := m.ui.frames + 1
     let d := frameDiv m
     let m := { m with ui := { m.ui with frameAt := after m (ms 1), frames := if d ≤ n then 0 else n } }
     (¬(n < d)) ∧
     let m := caps.zipIdx.foldl (fun m x => keyStep m n x.2 x.1) m
     True) ∧
    -- HOLD_REACHED
    (let m₀ : Mach := (modPort (modKey W 47 fun x => { x with holdAt := some 9 }) 47 fun x => { x with mode := 1 })
     let port : Nat := 47
     (port < 48) ∧
     let m := m₀
     (touchOn m port = true) ∧
     let d : Nat := 9
     ((getKey m port).holdAt = some d) ∧
     let m := advanceTo m d
     let m := modKey (closeWindow m port) port fun k => { k with held := true, holdAt := none }
     True) ∧
    -- LONG_HOLD_REACHED
    (let m₀ : Mach := (modPort (modKey W 47 fun x => { x with longAt := some 9 }) 47 fun x => { x with mode := 1 })
     let port : Nat := 47
     (port < 48) ∧
     let m := m₀
     (touchOn m port = true) ∧
     let d : Nat := 9
     ((getKey m port).longAt = some d) ∧
     let m := advanceTo m d
     True) ∧
    -- STUCK
    (let m₀ : Mach := (modPort (modKey W 47 fun x => { x with stuckAt := some 9 }) 47 fun x => { x with mode := 1 })
     let port : Nat := 47
     (port < 48) ∧
     let m := m₀
     (touchOn m port = true) ∧
     let d : Nat := 9
     ((getKey m port).stuckAt = some d) ∧
     let m := advanceTo m d
     True) ∧
    -- SERVICE_WINDOW_END
    (let m₀ : Mach := (modKey W 47 fun x => { x with serviceAt := some 9 })
     let port : Nat := 47
     (port < 48) ∧
     let m := m₀
     let d : Nat := 9
     ((getKey m port).serviceAt = some d) ∧
     let m := advanceTo m d
     True) ∧
    -- BASELINE_RESEED
    (let m : Mach := (modKey W 47 fun x => { x with water := true })
     let port : Nat := 47
     let cap : Nat := 65535
     (port < 48) ∧
     (cap ≤ 65535) ∧
     (((getKey m port).water) = true) ∧
     True) ∧
    -- ARM_EXPIRE
    (let m₀ : Mach := { W with svc := { W.svc with armAt := some 9 } }
     let m := m₀
     let d : Nat := 9
     (m.svc.armAt = some d) ∧
     let m := advanceTo m d
     True) := by
  refine ⟨?_, ?_, ?_, ?_, ?_, ?_, ?_⟩ <;> decide +kernel

theorem witness_PdMessages :
    -- PD_SOURCE_CAPABILITIES_RX
    (let m₀ : Mach := wSnk
     let port : Nat := 47
     let objs : List PdObj := [.fixed 5000 3000]
     let epr : Bool := false
     let eprCapable : Bool := false
     let rev2 : Bool := false
     (port < 48) ∧
     let m := m₀
     ((attachedTypeC m port && served m port : Bool) = true) ∧
     (¬(m.svc.ptbs.any fun b => b.kind = 5 && b.target = port && 0 < b.remaining)) ∧
     (m.mbx.eccPd.contains (tget m.serves 0 port) = false) ∧
     (frozen m port = false) ∧
     let p := port
     let m := rxd m p
     (¬(!isSink m p || inTransition (getPd m p) || objs.isEmpty || 260 < 4 * objs.length)) ∧
     let m := modPd m p fun x =>
       { x with partnerCaps := objs, partnerEpr := eprCapable && !rev2, hardCount := 0, rev := if rev2 then 2 else 3 }
     let m := if m.path.bootSink = some p then { m with path := { m.path with bootCapsAt := none } } else m
     True) ∧
    -- PD_REQUEST_RX
    (let m₀ : Mach := wSrc
     let port : Nat := 47
     let req : PdReq := { pos := 1, ma := 100, mv := 0, mismatch := false, epr := false }
     (port < 48) ∧
     let m := m₀
     ((attachedTypeC m port && served m port : Bool) = true) ∧
     (¬(m.svc.ptbs.any fun b => b.kind = 5 && b.target = port && 0 < b.remaining)) ∧
     (m.mbx.eccPd.contains (tget m.serves 0 port) = false) ∧
     (frozen m port = false) ∧
     let p := port
     let r := req
     let m := rxd m p
     let x := getPd m p
     (¬(!isSource m p)) ∧
     True) ∧
    -- PD_ACCEPT_RX
    (let m : Mach := wSnk
     let port : Nat := 47
     let sameRole : Bool := false
     (port < 48) ∧
     ((attachedTypeC m port && served m port : Bool) = true) ∧
     (¬(m.svc.ptbs.any fun b => b.kind = 5 && b.target = port && 0 < b.remaining)) ∧
     (m.mbx.eccPd.contains (tget m.serves 0 port) = false) ∧
     (frozen m port = false) ∧
     True) ∧
    -- PD_REJECT_RX
    (let m : Mach := wSnk
     let port : Nat := 47
     let wait : Bool := true
     (port < 48) ∧
     ((attachedTypeC m port && served m port : Bool) = true) ∧
     (¬(m.svc.ptbs.any fun b => b.kind = 5 && b.target = port && 0 < b.remaining)) ∧
     (m.mbx.eccPd.contains (tget m.serves 0 port) = false) ∧
     (frozen m port = false) ∧
     True) ∧
    -- PD_PS_RDY_RX
    (let m₀ : Mach := (modPd wSnk 47 fun x => { x with pe := .snkTransition, req := some { pos := 1, ma := 100, mv := 0, mismatch := false, epr := false } })
     let port : Nat := 47
     (port < 48) ∧
     let m := m₀
     ((attachedTypeC m port && served m port : Bool) = true) ∧
     (¬(m.svc.ptbs.any fun b => b.kind = 5 && b.target = port && 0 < b.remaining)) ∧
     (m.mbx.eccPd.contains (tget m.serves 0 port) = false) ∧
     (frozen m port = false) ∧
     let p := port
     let m := rxd m p
     let x := getPd m p
     (¬(x.pe ≠ .snkTransition)) ∧
     let r := ({ pos := 1, ma := 100, mv := 0, mismatch := false, epr := false } : PdReq)
     (x.req = some r) ∧
     let o := snkObj x r
     let v := reqMv o r
     let m := modPd m p fun x =>
       { x with contract := true, pe := .snkReady, psTransAt := none, kind := kindOf o, pos := r.pos, opMa := r.ma
                mismatch := r.mismatch, vTarget := v, ilim := r.ma, hardCount := 0
                ppsRepAt := if kindOf o = 2 then after m tPPSRequest else none }
     let m := setRef (setRef m p 2 r.ma) p 3 (if 5000 < v then v * 9 / 10 else 4400)
     let m := if m.path.bootSink = some p && !(getCv m p).run then requestStart m p else m
     let m := if x.snkEpr && x.partnerEpr && !x.epr && !(getPort m p).damp5 then pdTell m p .eprEnter else m
     True) ∧
    -- PD_SOFT_RESET_RX
    (let m : Mach := wSrc
     let port : Nat := 47
     (port < 48) ∧
     ((attachedTypeC m port && served m port : Bool) = true) ∧
     (¬(m.svc.ptbs.any fun b => b.kind = 5 && b.target = port && 0 < b.remaining)) ∧
     (m.mbx.eccPd.contains (tget m.serves 0 port) = false) ∧
     (frozen m port = false) ∧
     True) ∧
    -- PD_HARD_RESET
    (let m : Mach := wSrc
     let port : Nat := 47
     let sent : Bool := true
     (port < 48) ∧
     ((isSource m port && (getPd m port).pe ≠ .hardReset : Bool) = true) ∧
     True) ∧
    -- PD_DR_SWAP_RX
    (let m : Mach := wSrc
     let port : Nat := 47
     (port < 48) ∧
     ((attachedTypeC m port && served m port : Bool) = true) ∧
     (¬(m.svc.ptbs.any fun b => b.kind = 5 && b.target = port && 0 < b.remaining)) ∧
     (m.mbx.eccPd.contains (tget m.serves 0 port) = false) ∧
     (frozen m port = false) ∧
     True) ∧
    -- PD_EPR_MODE_RX
    (let m : Mach := wSrc
     let port : Nat := 47
     let enter : Bool := true
     (port < 48) ∧
     ((attachedTypeC m port && served m port : Bool) = true) ∧
     (¬(m.svc.ptbs.any fun b => b.kind = 5 && b.target = port && 0 < b.remaining)) ∧
     (m.mbx.eccPd.contains (tget m.serves 0 port) = false) ∧
     (frozen m port = false) ∧
     True) ∧
    -- PD_EPR_KEEPALIVE_RX
    (let m : Mach := wSrc
     let port : Nat := 47
     (port < 48) ∧
     ((attachedTypeC m port && served m port : Bool) = true) ∧
     (¬(m.svc.ptbs.any fun b => b.kind = 5 && b.target = port && 0 < b.remaining)) ∧
     (m.mbx.eccPd.contains (tget m.serves 0 port) = false) ∧
     (frozen m port = false) ∧
     True) ∧
    -- PD_GET_CAP_RX
    (let m : Mach := wSrc
     let port : Nat := 47
     let sinkCap : Bool := false
     let epr : Bool := false
     (port < 48) ∧
     ((attachedTypeC m port && served m port : Bool) = true) ∧
     (¬(m.svc.ptbs.any fun b => b.kind = 5 && b.target = port && 0 < b.remaining)) ∧
     (m.mbx.eccPd.contains (tget m.serves 0 port) = false) ∧
     (frozen m port = false) ∧
     True) ∧
    -- PD_INFO_QUERY_RX
    (let m : Mach := wSrc
     let port : Nat := 47
     let q : PdQuery := .getStatus
     (port < 48) ∧
     ((attachedTypeC m port && served m port : Bool) = true) ∧
     (¬(m.svc.ptbs.any fun b => b.kind = 5 && b.target = port && 0 < b.remaining)) ∧
     (m.mbx.eccPd.contains (tget m.serves 0 port) = false) ∧
     (frozen m port = false) ∧
     True) ∧
    -- PD_UNSUPPORTED_RX
    (let m : Mach := wSrc
     let port : Nat := 47
     (port < 48) ∧
     ((attachedTypeC m port && served m port : Bool) = true) ∧
     (¬(m.svc.ptbs.any fun b => b.kind = 5 && b.target = port && 0 < b.remaining)) ∧
     (m.mbx.eccPd.contains (tget m.serves 0 port) = false) ∧
     (frozen m port = false) ∧
     True) ∧
    -- PD_ALERT_RX
    (let m : Mach := wSnk
     let port : Nat := 47
     let bits : Nat := 255
     (port < 48) ∧
     ((attachedTypeC m port && served m port : Bool) = true) ∧
     (¬(m.svc.ptbs.any fun b => b.kind = 5 && b.target = port && 0 < b.remaining)) ∧
     (m.mbx.eccPd.contains (tget m.serves 0 port) = false) ∧
     (frozen m port = false) ∧
     True) ∧
    -- PD_VENDOR_DEFINED_RX
    (let m : Mach := wSrc
     let port : Nat := 47
     let discoverIdentity : Bool := true
     (port < 48) ∧
     ((attachedTypeC m port && served m port : Bool) = true) ∧
     (¬(m.svc.ptbs.any fun b => b.kind = 5 && b.target = port && 0 < b.remaining)) ∧
     (m.mbx.eccPd.contains (tget m.serves 0 port) = false) ∧
     (frozen m port = false) ∧
     True) ∧
    -- PD_CABLE_IDENTITY_RX
    (let m₀ : Mach := (modPd (modPort wSrc 47 fun x => { x with vconn := true }) 47 fun x => { x with offer := [.fixed 5000 3000] })
     let port : Nat := 47
     let ma : Nat := 5000
     let vmaxMv : Nat := 48000
     let eprCable : Bool := true
     (port < 48) ∧
     let m := m₀
     ((attachedTypeC m port && served m port : Bool) = true) ∧
     let p := port
     let vmax := vmaxMv
     let epr := eprCable
     (¬(!isSource m p || !(getPort m p).vconn)) ∧
     let old := (iCab m p, eprCapable m p)
     let c := if epr && 5000 ≤ ma && 50000 ≤ vmax then 3 else if 5000 ≤ ma then 2 else 1
     let m := modPd m p fun x => { x with cable := c, discAt := none }
     (¬((getPd m p).offer.isEmpty || (iCab m p, eprCapable m p) = old)) ∧
     True) ∧
    -- PD_BIST_RX
    (let m : Mach := wSrc
     let port : Nat := 47
     let mode : Nat := 0
     let vbusMv : Nat := 5000
     (port < 48) ∧
     ((attachedTypeC m port && served m port : Bool) = true) ∧
     (¬(m.svc.ptbs.any fun b => b.kind = 5 && b.target = port && 0 < b.remaining)) ∧
     (m.mbx.eccPd.contains (tget m.serves 0 port) = false) ∧
     (frozen m port = false) ∧
     True) ∧
    -- PD_SINK_CAPABILITIES_RX
    (let m : Mach := wSrc
     let port : Nat := 47
     let objs : List PdObj := [.fixed 5000 3000]
     (port < 48) ∧
     ((attachedTypeC m port && served m port : Bool) = true) ∧
     (¬(m.svc.ptbs.any fun b => b.kind = 5 && b.target = port && 0 < b.remaining)) ∧
     (m.mbx.eccPd.contains (tget m.serves 0 port) = false) ∧
     (frozen m port = false) ∧
     True) ∧
    -- CABLE_RESET_RX
    (let m : Mach := W
     let port : Nat := 47
     (port < 48) ∧
     True) := by
  refine ⟨?_, ?_, ?_, ?_, ?_, ?_, ?_, ?_, ?_, ?_, ?_, ?_, ?_, ?_, ?_, ?_, ?_, ?_, ?_⟩ <;> decide +kernel

theorem witness_PdTransmissionTimers :
    -- PD_RETRANSMIT
    (let m₀ : Mach := (modPd W 47 fun x => { x with txAt := some 9 })
     let port : Nat := 47
     (port < 48) ∧
     let m := m₀
     let x := getPd m port
     (x.retries < nRetryCount x) ∧
     let d : Nat := 9
     (x.txAt = some d) ∧
     let m := advanceTo m d
     True) ∧
    -- PD_TX_FAIL
    (let m : Mach := (modPd wSrc 47 fun x => { x with txAt := some 9, retries := 3 })
     let port : Nat := 47
     (port < 48) ∧
     ((attachedTypeC m port && served m port : Bool) = true) ∧
     let x := getPd m port
     ((x.txAt.isSome && nRetryCount x ≤ x.retries : Bool) = true) ∧
     True) ∧
    -- SENDER_RESPONSE_TIMEOUT
    (let m₀ : Mach := (modPd wSrc 47 fun x => { x with senderAt := some 9 })
     let port : Nat := 47
     (port < 48) ∧
     let m := m₀
     ((attachedTypeC m port && served m port : Bool) = true) ∧
     let d : Nat := 9
     ((getPd m port).senderAt = some d) ∧
     let m := advanceTo m d
     True) ∧
    -- PS_TRANSITION_TIMEOUT
    (let m₀ : Mach := (modPd wSnk 47 fun x => { x with psTransAt := some 9 })
     let port : Nat := 47
     (port < 48) ∧
     let m := m₀
     ((attachedTypeC m port && served m port : Bool) = true) ∧
     (isSink m port = true) ∧
     let d : Nat := 9
     ((getPd m port).psTransAt = some d) ∧
     let m := advanceTo m d
     True) ∧
    -- SRC_TRANSITION_START
    (let m₀ : Mach := (modPd wSrc 47 fun x => { x with transAt := some 9, req := some { pos := 1, ma := 100, mv := 0, mismatch := false, epr := false } })
     let port : Nat := 47
     (port < 48) ∧
     let m := m₀
     ((attachedTypeC m port && served m port : Bool) = true) ∧
     (isSource m port = true) ∧
     let d : Nat := 9
     ((getPd m port).transAt = some d) ∧
     let m := advanceTo m d
     let p := port
     let x := getPd m p
     let r := ({ pos := 1, ma := 100, mv := 0, mismatch := false, epr := false } : PdReq)
     (x.req = some r) ∧
     let o := (reqObj x r).getD .zero
     let v := reqMv o r
     let lim := contractLimit m p o r
     let same := x.vTarget = v
     let m := setRef (setRef m p 1 lim) p 0 v
     let m := modPd m p fun x => { x with transAt := none, vTarget := v, ilim := lim }
     True) ∧
    -- TRANSITION_SETTLED
    (let m : Mach := (modCv (modPd wSrc 47 fun x => { x with pe := .transition, vTarget := 9000 }) 47 fun x => { x with ctrl := { x.ctrl with loops := tupd x.ctrl.loops 0 fun y => { y with ref := fx 9000 } } })
     let port : Nat := 47
     let vcsMv : Nat := 8730
     (port < 48) ∧
     (vcsMv ≤ 60000) ∧
     let x := getPd m port
     let l := tget (getCv m port).ctrl.loops {} 0
     ((isSource m port && x.pe = .transition && x.transAt.isNone && l.ref = fx x.vTarget && settled l
         && 97 * x.vTarget ≤ 100 * vcsMv && 100 * vcsMv ≤ 103 * x.vTarget : Bool) = true) ∧
     True) ∧
    -- SEND_SOURCE_CAP
    (let m₀ : Mach := (modPd wSrc 47 fun x => { x with pe := .startup, capsAt := some 9 })
     let port : Nat := 47
     (port < 48) ∧
     let m := m₀
     ((attachedTypeC m port && served m port : Bool) = true) ∧
     let x := getPd m port
     ((isSource m port && !inTransition x && (x.pe = .startup || x.pe = .negotiate || x.pe = .ready) : Bool) = true) ∧
     let d : Nat := 9
     (x.capsAt = some d) ∧
     let m := advanceTo m d
     True) ∧
    -- NO_RESPONSE_TIMEOUT
    (let m₀ : Mach := (modPd wSrc 47 fun x => { x with noRespAt := some 9 })
     let port : Nat := 47
     (port < 48) ∧
     let m := m₀
     ((attachedTypeC m port && served m port : Bool) = true) ∧
     let d : Nat := 9
     ((getPd m port).noRespAt = some d) ∧
     let m := advanceTo m d
     True) ∧
    -- SINK_EPR_KEEPALIVE
    (let m₀ : Mach := (modPd wSnk 47 fun x => { x with epr := true, keepAliveAt := some 9 })
     let port : Nat := 47
     (port < 48) ∧
     let m := m₀
     ((attachedTypeC m port && served m port : Bool) = true) ∧
     ((isSink m port && (getPd m port).epr : Bool) = true) ∧
     let d : Nat := 9
     ((getPd m port).keepAliveAt = some d) ∧
     let m := advanceTo m d
     True) ∧
    -- PPS_REQUEST_REPEAT
    (let m₀ : Mach := (modPd wSnk 47 fun x => { x with kind := 2, ppsRepAt := some 9 })
     let port : Nat := 47
     (port < 48) ∧
     let m := m₀
     ((attachedTypeC m port && served m port : Bool) = true) ∧
     ((isSink m port && (getPd m port).kind = 2 : Bool) = true) ∧
     let d : Nat := 9
     ((getPd m port).ppsRepAt = some d) ∧
     let m := advanceTo m d
     let m := modPd m port fun x => { x with ppsRepAt := after m tPPSRequest }
     True) := by
  refine ⟨?_, ?_, ?_, ?_, ?_, ?_, ?_, ?_, ?_, ?_⟩ <;> decide +kernel

theorem witness_PdRecoveryEvents :
    -- SOURCE_EPR_KEEPALIVE_TIMEOUT
    (let m₀ : Mach := (modPd wSrc 47 fun x => { x with epr := true, srcKeepAt := some 9 })
     let port : Nat := 47
     (port < 48) ∧
     let m := m₀
     ((attachedTypeC m port && served m port : Bool) = true) ∧
     ((isSource m port && (getPd m port).epr : Bool) = true) ∧
     let d : Nat := 9
     ((getPd m port).srcKeepAt = some d) ∧
     let m := advanceTo m d
     True) ∧
    -- PPS_TIMEOUT
    (let m₀ : Mach := (modPd wSrc 47 fun x => { x with contract := true, ppsAt := some 9 })
     let port : Nat := 47
     (port < 48) ∧
     let m := m₀
     ((attachedTypeC m port && served m port : Bool) = true) ∧
     ((isSource m port && (getPd m port).contract : Bool) = true) ∧
     let d : Nat := 9
     ((getPd m port).ppsAt = some d) ∧
     let m := advanceTo m d
     True) ∧
    -- DISCOVER_IDENTITY_RETRY
    (let m₀ : Mach := (modPd wSrc 47 fun x => { x with discAt := some 9 })
     let port : Nat := 47
     (port < 48) ∧
     let m := m₀
     ((attachedTypeC m port && served m port : Bool) = true) ∧
     let d : Nat := 9
     ((getPd m port).discAt = some d) ∧
     let m := advanceTo m d
     True) ∧
    -- HARD_RESET_STOP
    (let m₀ : Mach := (modPd W 47 fun x => { x with hrStopAt := some 9 })
     let port : Nat := 47
     (port < 48) ∧
     let m := m₀
     let d : Nat := 9
     ((getPd m port).hrStopAt = some d) ∧
     let m := advanceTo m d
     let m := modPort (stopRun m port) port fun x => { x with vconn := false, dcp := false, rp := 0 }
     True) ∧
    -- SRC_RECOVER
    (let m₀ : Mach := (modPd W 47 fun x => { x with recoverAt := some 9 })
     let port : Nat := 47
     (port < 48) ∧
     let m := m₀
     let d : Nat := 9
     ((getPd m port).recoverAt = some d) ∧
     let m := advanceTo m d
     let m := modPd m port fun x => { x with recoverAt := none }
     True) ∧
    -- PPS_UNDERVOLTAGE
    (let m : Mach := (modCv (modPd wSrc 47 fun x => { x with contract := true, kind := 2 }) 47 fun x => { x with ctrl := { x.ctrl with sel := 1 } })
     let port : Nat := 47
     let vcsMv : Nat := 3299
     (port < 48) ∧
     (vcsMv ≤ 60000) ∧
     let x := getPd m port
     ((isSource m port && x.contract && x.kind = 2 && (getCv m port).ctrl.sel = 1 && vcsMv < 3300 && served m port : Bool) = true) ∧
     True) ∧
    -- PD_MIGRATION
    (let m : Mach := (modPd W 47 fun x => { x with migTo := some 4 })
     let port : Nat := 47
     (port < 48) ∧
     let p := port
     let src := tget m.serves 0 p
     let k := 4
     ((getPd m p).migTo = some k) ∧
     (¬(!atBoundary m p)) ∧
     True) ∧
    -- MIGRATION_ABANDON
    (let m₀ : Mach := (modPd W 47 fun x => { x with migAt := some 9 })
     let port : Nat := 47
     (port < 48) ∧
     let m := m₀
     let d : Nat := 9
     ((getPd m port).migAt = some d) ∧
     let m := advanceTo m d
     True) ∧
    -- PD_CORE_FENCE
    (let m : Mach := W
     let core : Nat := 7
     (core < 8) ∧
     True) ∧
    -- SINK_HARD_RESET
    (let m : Mach := wSnk
     let port : Nat := 47
     (port < 48) ∧
     (isSink m port = true) ∧
     True) ∧
    -- SINK_VBUS_RESTORED
    (let m : Mach := (modPd wSnk 47 fun x => { x with snkHrAt := some 9 })
     let port : Nat := 47
     let vbsMv : Nat := 4750
     (port < 48) ∧
     (vbsMv ≤ 60000) ∧
     ((isSink m port && (getPd m port).snkHrAt.isSome : Bool) = true) ∧
     True) ∧
    -- SINK_RP_CHANGE
    (let m₀ : Mach := wSnk
     let port : Nat := 47
     let txOk : Bool := true
     (port < 48) ∧
     let m := m₀
     (isSink m port = true) ∧
     let p := port
     let ok := txOk
     let w := (getPd m p).waiting
     let m := modPort m p fun y => { y with partnerRp := if ok then 2 else 1 }
     let m := modPd m p fun x => { x with txOk := ok, waiting := if ok then none else x.waiting }
     (¬(!ok)) ∧
     True) := by
  refine ⟨?_, ?_, ?_, ?_, ?_, ?_, ?_, ?_, ?_, ?_, ?_, ?_⟩ <;> decide +kernel

theorem witness_BayEvents :
    -- BAY_ID_READ
    (let m : Mach := wBay
     let port : Nat := 47
     let cc1Mv : Nat := 5500
     (port < 48) ∧
     (cc1Mv ≤ 5500) ∧
     let st := (getBay m port).st
     ((isBay m port && m.dev.configApplied && st ≠ .link && st ≠ .verify && st ≠ .trickle && st ≠ .charging : Bool) = true) ∧
     True) ∧
    -- PACK_INSERT
    (let m₀ : Mach := (modBay W 47 fun x => { x with insertAt := some 9 })
     let port : Nat := 47
     (port < 48) ∧
     let m := m₀
     let d : Nat := 9
     ((getBay m port).insertAt = some d) ∧
     let m := advanceTo m d
     True) ∧
    -- PACK_REMOVAL
    (let m₀ : Mach := (modBay wBay 47 fun x => { x with st := .link })
     let port : Nat := 47
     let detector : Nat := 0
     let vbsMv : Nat := 0
     let iMa : Nat := 0
     ((port < 48 && detector < 3 : Bool) = true) ∧
     (vbsMv ≤ 60000) ∧
     let m := m₀
     (isBay m port = true) ∧
     let p := port
     let det := detector
     let vbs := vbsMv
     let i := iMa
     let x := getChg m (p + 1)
     let hit : Bool := if det = 0 then true
       else if det = 1 then (getCv m p).run && (getCv m p).vbg && chgPermits x && x.vChg + 300 < vbs && 10 * i < x.iNow
       else vbs < 2000
     (¬(!packPresent m p || !hit)) ∧
     let m := modBay m p fun b => { b with lateId := if det = 0 then b.lateId else wrap32 (b.lateId + 1)
                                           idMv := if det = 0 then 2500 else b.idMv }
     True) ∧
    -- BAY_LINK_REPLY
    (let m : Mach := (modBay wBay 47 fun x => { x with reqType := 1 })
     let port : Nat := 47
     let type : Nat := 1
     let payload : List Nat := []
     let crcOk : Bool := true
     (port < 48) ∧
     ((isBay m port && (getBay m port).reqType ≠ 0 : Bool) = true) ∧
     True) ∧
    -- BAY_REPLY_TIMEOUT
    (let m₀ : Mach := (modBay W 47 fun x => { x with replyAt := some 9 })
     let port : Nat := 47
     (port < 48) ∧
     let m := m₀
     let d : Nat := 9
     ((getBay m port).replyAt = some d) ∧
     let m := advanceTo m d
     True) ∧
    -- AUTH_VERDICT
    (let m₀ : Mach := (modBay W 47 fun x => { x with verdictAt := some 9 })
     let port : Nat := 47
     (port < 48) ∧
     let m := m₀
     let d : Nat := 9
     ((getBay m port).verdictAt = some d) ∧
     let m := advanceTo m d
     True) ∧
    -- AUTH_RETRY
    (let m₀ : Mach := (modBay W 47 fun x => { x with retryAt := some 9 })
     let port : Nat := 47
     (port < 48) ∧
     let m := m₀
     let d : Nat := 9
     ((getBay m port).retryAt = some d) ∧
     let m := advanceTo m d
     True) ∧
    -- BAY_STATUS_POLL
    (let m₀ : Mach := (modBay W 47 fun x => { x with pollAt := some 9 })
     let port : Nat := 47
     (port < 48) ∧
     let m := m₀
     let d : Nat := 9
     ((getBay m port).pollAt = some d) ∧
     let m := advanceTo m d
     let m := modBay m port fun b => { b with pollAt := if b.st = .charging then after m (sec 1) else none }
     True) ∧
    -- TRICKLE_RETRY
    (let m₀ : Mach := (modBay W 47 fun x => { x with trickleTryAt := some 9 })
     let port : Nat := 47
     (port < 48) ∧
     let m := m₀
     let d : Nat := 9
     ((getBay m port).trickleTryAt = some d) ∧
     let m := advanceTo m d
     let m := modBay m port fun b => { b with trickleTryAt := after m (sec 10) }
     True) ∧
    -- TRICKLE_EXPIRE
    (let m₀ : Mach := (modBay W 47 fun x => { x with trickleAt := some 9 })
     let port : Nat := 47
     (port < 48) ∧
     let m := m₀
     let d : Nat := 9
     ((getBay m port).trickleAt = some d) ∧
     let m := advanceTo m d
     True) ∧
    -- BAY_START
    (let m : Mach := (modCv (modBay wBay 47 fun x => { x with startAt := some 9 }) 47 fun x => { x with run := true, vbg := false })
     let port : Nat := 47
     let vcsMv : Nat := 0
     let vbsMv : Nat := 0
     (port < 48) ∧
     ((vcsMv ≤ 60000 && vbsMv ≤ 60000 : Bool) = true) ∧
     ((isBay m port && (getBay m port).startAt.isSome && (getCv m port).run && !(getCv m port).vbg : Bool) = true) ∧
     True) ∧
    -- BAY_DONE_READ
    (let m₀ : Mach := (modChg wBay 48 fun x => { x with st := .done })
     let port : Nat := 47
     let vbsMv : Nat := 60000
     (port < 48) ∧
     (vbsMv ≤ 60000) ∧
     let m := m₀
     ((isBay m port && (getChg m (port + 1)).st = .done : Bool) = true) ∧
     let d : Nat := 60000000000
     (some (doneDue m port) = some d) ∧
     let m := advanceTo m d
     let m := modBay m port fun b => { b with doneAt := after m (sec 60) }
     let m := modChg m (port + 1) fun c => { c with vMv := vbsMv }
     let cell : Int := vbsMv * 1000 / max 1 (getChg m (port + 1)).prof.cells
     True) ∧
    -- PROOFING_PAUSE
    (let m : Mach := (modChg { wBay with dev := { wBay.dev with now := 300000000000 } } 48 fun x => { x with st := .cc, pauseReq := true })
     let port : Nat := 47
     (port < 48) ∧
     let want := (getChg m (port + 1)).pauseReq || (machCtxs m (port + 1)).any fun x =>
       (m.est.pauseSigma : Rat) < 100 * (getCtx m x).sigma || m.est.pauseAgeH * 3600000 ≤ (getCtx m x).anchorAge
     ((isBay m port && want && pauseBase m port : Bool) = true) ∧
     True) ∧
    -- PROOFING_PAUSE_END
    (let m₀ : Mach := (modBay W 47 fun x => { x with pauseAt := some 9 })
     let port : Nat := 47
     (port < 48) ∧
     let m := m₀
     let d : Nat := 9
     ((getBay m port).pauseAt = some d) ∧
     let m := advanceTo m d
     True) ∧
    -- KEY_REVOKE_REAUTH
    (let m₀ : Mach := (modBay W 47 fun x => { x with revokeAt := some 9 })
     let port : Nat := 47
     (port < 48) ∧
     let m := m₀
     let d : Nat := 9
     ((getBay m port).revokeAt = some d) ∧
     let m := advanceTo m d
     True) := by
  refine ⟨?_, ?_, ?_, ?_, ?_, ?_, ?_, ?_, ?_, ?_, ?_, ?_, ?_, ?_, ?_⟩ <;> decide +kernel

theorem witness_EstimatorEvents :
    -- SOC_COUNT
    (let m : Mach := W
     let obs : List CtxObs := [{ ctx := 271, dqMaMs := 0, iMa := 0, vUv := 0 }]
     ((obs.all fun o => o.ctx < 272) = true) ∧
     ((m.dev.adcclk && m.pwr.st ≠ .standby : Bool) = true) ∧
     True) ∧
    -- NO_ANCHOR
    (let m : Mach := (modCtx W 271 fun x => { x with active := true, anchorAge := W.est.noAnchorH * 3600000 })
     let ctx : Nat := 271
     (ctx < 272) ∧
     (((getCtx m ctx).active && m.est.noAnchorH * 3600000 ≤ (getCtx m ctx).anchorAge : Bool) = true) ∧
     True) ∧
    -- EKF_STEP
    (let m : Mach := W
     let obs : List EkfObs := [{ ctx := 271, iMa := 0, vUv := 0 }]
     ((obs.all fun o => o.ctx < 272) = true) ∧
     ((m.dev.estclk && m.pwr.st ≠ .standby : Bool) = true) ∧
     True) ∧
    -- FILTER_RESET
    (let m₀ : Mach := (modCtx W 271 fun x => { x with active := true, nisRun := 50 })
     let ctx : Nat := 271
     (ctx < 272) ∧
     let m := m₀
     (((getCtx m ctx).active && 50 ≤ (getCtx m ctx).nisRun : Bool) = true) ∧
     let m := modCtx (filterInit m ctx) ctx fun c => { c with lastFull := none, lastRest := none }
     let m := { m with upd := { m.upd with resets := if m.upd.resets.contains ctx then m.upd.resets else m.upd.resets ++ [ctx] } }
     True) ∧
    -- STALE
    (let m : Mach := (modCtx W 271 fun x => { x with active := true })
     let ctx : Nat := 271
     (ctx < 272) ∧
     let c := getCtx m ctx
     let lim := if m.pwr.st = .quiet then sec 10 else sec 1
     ((c.active && !c.stale : Bool) = true) ∧
     True) ∧
    -- REST_REQUEST
    (let m : Mach := W
     let w := restWanted m
     True) ∧
    -- RELAX_FIT
    (let m : Mach := (modCtx W 271 fun x => { x with active := true, fit := some { pts := List.replicate 110 0 } })
     let ctx : Nat := 271
     (ctx < 272) ∧
     let w := ({ pts := List.replicate 110 0 } : Fit)
     ((getCtx m ctx).fit = some w) ∧
     let n := if ctxStore ctx then 110 else 80
     (((getCtx m ctx).active && !m.est.halted && n ≤ w.pts.length : Bool) = true) ∧
     True) ∧
    -- EIS_RUN
    (let mc : Mach := W
     let m : Nat := 48
     (m < 49) ∧
     True) ∧
    -- EIS_FREQUENCY_DONE
    (let mc : Mach := W
     let m : Nat := 48
     let meas : List EisMeas := [{ ctx := 271, vRe := 0, vIm := 0, iRe := 0, iIm := 0 }]
     let ampMa : Nat := 0
     let dropPermille : Nat := 0
     ((m < 49 && meas.all fun o => o.ctx < 272 : Bool) = true) ∧
     True) ∧
    -- EIS_ABORT
    (let mc : Mach := W
     let m : Nat := 48
     (m < 49) ∧
     (((getChg mc m).st ≠ .cc || !(mc.lft.eis.any fun g => g.mach = m) || (machCtxs mc m).isEmpty : Bool) = true) ∧
     True) ∧
    -- EIS_DUE
    (let m : Mach := (modCtx W 271 fun x => { x with active := true })
     let ctx : Nat := 271
     (ctx < 272) ∧
     (((getCtx m ctx).active && m.est.eisDays ≠ 0 && eisOld m ctx && !eisPending m (ctxMach m ctx) : Bool) = true) ∧
     True) := by
  refine ⟨?_, ?_, ?_, ?_, ?_, ?_, ?_, ?_, ?_, ?_, ?_⟩ <;> decide +kernel

theorem witness_ThermalEvents :
    -- THM_SAMPLE
    (let m : Mach := W
     let sensor : Nat := 93
     let t : Int := 250
     (sensor < 94) ∧
     ((measuring m && sensUsed m sensor : Bool) = true) ∧
     True) ∧
    -- LANE_CHANGE
    (let near : Mach := modSens W 93 fun x => { x with valid := true, t := (thmClass W 93).warn }
     let far : Mach := modSens W 93 fun x => { x with fast := true, far := 1000 }
     ((!(getSens near 93).fast && (getSens near 93).valid
       && nearEdge (thmClass near 93) (getSens near 93) ((getSens near 93).t + ptbValue near 4 93) (thmClass near 93).fastBand : Bool) = true) ∧
     (((getSens far 93).fast && 1000 ≤ (getSens far 93).far : Bool) = true) ∧
     True) ∧
    -- HOVER
    (let m : Mach := (modSens W 93 fun x => { x with changes := List.replicate 8 (2, 0) })
     let sensor : Nat := 93
     let level : Nat := 2
     ((sensor < 94 && level < 3 : Bool) = true) ∧
     (8 ≤ recentChanges m sensor level) ∧
     True) ∧
    -- THM_CAP_LIFT
    (let m : Mach := W
     let scope : Nat := 68
     (scope < 69) ∧
     True) ∧
    -- PULSE_SKIP_ENTRY
    (let m : Mach := (modSens (modCv W 54 fun x => { x with run := true, decl := { x.decl with topo := 1, phases := 1, irateMa := 1000 }, ph := tupd x.ph 0 fun y => { y with st := .inService } }) 39 fun x => { x with inLvl := [true, true, false] })
     let conv : Nat := 54
     let ma : Nat := 0
     (conv < 55) ∧
     ((maySkip m conv && groupAt m conv 2 && 10 * ma < irateTotal m conv : Bool) = true) ∧
     True) ∧
    -- PULSE_SKIP_EXIT
    (let m : Mach := (modCv W 54 fun x => { x with prot := { x.prot with pulseSkip := true } })
     let conv : Nat := 54
     let ma : Nat := 1
     (conv < 55) ∧
     (((getCv m conv).prot.pulseSkip && 15 * irateTotal m conv < 100 * ma : Bool) = true) ∧
     True) ∧
    -- TSD
    (let m : Mach := W
     let sensor : Nat := 23
     (sensor < 24) ∧
     ((!m.grd.tsd : Bool) = true) ∧
     True) ∧
    -- TSD_RELEASE
    (let m : Mach := { W with grd := { W.grd with tsd := true } }
     (m.grd.tsd = true) ∧
     True) ∧
    -- TSD_RESTART
    (let m₀ : Mach := { W with grd := { W.grd with restartAt := some 9 } }
     let m := m₀
     let d : Nat := 9
     (m.grd.restartAt = some d) ∧
     let m := advanceTo m d
     True) := by
  refine ⟨?_, ?_, ?_, ?_, ?_, ?_, ?_, ?_, ?_⟩ <;> decide +kernel

theorem witness_GuardEvents :
    -- HW_OV
    (let m : Mach := (modCv W 54 fun x => { x with run := true })
     let conv : Nat := 54
     let mv1 : Nat := 65001
     let mv2 : Nat := 65001
     (conv < 55) ∧
     (((getCv m conv).run && hwCeil m conv < mv1 && hwCeil m conv < mv2 : Bool) = true) ∧
     True) ∧
    -- SYS_CRIT
    (let m : Mach := W
     let sysMv : Nat := 65000
     (sysRated sysMv = true) ∧
     True) ∧
    -- SYS_CRIT_RECOVER
    (let m : Mach := { W with grd := { W.grd with sysCritHi := true } }
     let sysMv : Nat := 58999
     (sysRated sysMv = true) ∧
     ((m.grd.sysCritHi && !m.grd.tsd && sysMv < 59000 : Bool) = true) ∧
     True) ∧
    -- SYS_UV1
    (let m : Mach := { W with path := { W.path with sysFold := 16000 } }
     let sysMv : Nat := 15999
     (sysRated sysMv = true) ∧
     (sysMv < m.path.sysFold) ∧
     True) ∧
    -- WINDOW_END
    (let m₀ : Mach := { W with grd := { W.grd with windows := [wWin] } }
     let origin : Nat := 0x8A
     (isBlock origin = true) ∧
     let m := m₀
     let w := wWin
     (m.grd.windows.find? fun w => w.origin = origin = some w) ∧
     let m := advanceTo m w.endAt
     let m := { m with grd := { m.grd with windows := m.grd.windows.erase w } }
     True) ∧
    -- CONTROL_PLANE_WRITE
    (let m : Mach := W
     let proc : Nat := 1
     let w : CpWrite := .sysTarget 48000
     ((proc < 2 && cpIndexOk w : Bool) = true) ∧
     True) ∧
    -- FAILOVER
    (let m : Mach := W
     let cause : FailCause := .exception
     let c := cause
     let h := 0
     (holder m = some h) ∧
     let quick : Bool := match m.grd.lastFailover with
       | some t => m.dev.now < t + sec 1
       | none => false
     True) ∧
    -- HALT_ACK
    (let m₀ : Mach := { W with grd := { W.grd with failingProc := some 0 } }
     let m := m₀
     let h := 0
     (m.grd.failingProc = some h) ∧
     let m := modProc m h fun x => { x with halted := true, pprAt := after m (ms 100) }
     True) ∧
    -- HALT_TIMEOUT
    (let m₀ : Mach := { W with grd := { W.grd with failingProc := some 0, haltAckBy := some 9 } }
     let m := m₀
     let h := 0
     (m.grd.failingProc = some h) ∧
     let d : Nat := 9
     (m.grd.haltAckBy = some d) ∧
     let m := advanceTo m d
     let m := modBlk m (procBlk h) fun w => blkRecord w (codeOf .haltTimeout) 5 (nowMs m) m.dev.aonTick true
     True) ∧
    -- HANDOVER_OWNER_MOVE
    (let m : Mach := W
     True) ∧
    -- SYNC_SET
    (let m₀ : Mach := (modProc W 1 fun x => { x with running := true })
     let proc : Nat := 1
     (proc < 2) ∧
     let m := m₀
     let a := proc
     let x := getProc m a
     (¬(!x.running || x.halted || m.grd.owner = a + 1 || (getBlk m (procBlk a)).fence.isSome || !m.dev.mclk || m.grd.escHalt)) ∧
     let m := modProc m a fun x => { x with sync := true }
     True) ∧
    -- HOLD_TIME_EXPIRE
    (let m₀ : Mach := { W with grd := { W.grd with holdAt := some 9, hold := true } }
     let m := m₀
     let d : Nat := 9
     (m.grd.holdAt = some d) ∧
     let m := advanceTo m d
     (m.grd.hold = true) ∧
     True) ∧
    -- HOLD_PARK_STEP
    (let m₀ : Mach := { W with grd := { W.grd with parkAt := some 9 } }
     let m := m₀
     let d : Nat := 9
     (m.grd.parkAt = some d) ∧
     let m := advanceTo m d
     True) := by
  refine ⟨?_, ?_, ?_, ?_, ?_, ?_, ?_, ?_, ?_, ?_, ?_, ?_, ?_⟩ <;> decide +kernel

theorem witness_WatchdogAndPowerStateEvents :
    -- WDH_EXPIRY
    (let m₀ : Mach := { W with wdh := { W.wdh with st := .running, waiting := false } }
     let m := m₀
     let w := m.wdh
     (¬(w.st = .off || w.waiting || !wdhUp m)) ∧
     let m := advance m ((w.close - w.count) * 1000 - w.presc)
     let m := { m with wdh := { m.wdh with expired := true } }
     True) ∧
    -- HOSTRST_PULSE_END
    (let m₀ : Mach := { W with dev := { W.dev with hostRstUntil := some 9 } }
     let m := m₀
     let d : Nat := 9
     (m.dev.hostRstUntil = some d) ∧
     let m := advanceTo m d
     True) ∧
    -- WDS_CHECKIN
    (let m : Mach := W
     let proc : Nat := 1
     let supervisor : Bool := false
     let word : Nat := 2 ^ 32 - 1
     ((proc < 2 && word < 2 ^ 32 : Bool) = true) ∧
     True) ∧
    -- WDS_PERIOD_END
    (let m₀ : Mach := { W with wds := { W.wds with periodAt := some 9 } }
     let m := m₀
     let d : Nat := 9
     (m.wds.periodAt = some d) ∧
     let m := advanceTo m d
     True) ∧
    -- WDS_ENABLE
    (let m : Mach := W
     ((!m.wds.enabled && holderRuns m : Bool) = true) ∧
     True) ∧
    -- WD_TOTAL_RAISE
    (let m : Mach := { W with wds := { W.wds with wdTarget := 1 } }
     ((ctrRead m.nvm 0).1 < m.wds.wdTarget) ∧
     (((m.nvm.queue ++ m.nvm.cur.toList).any fun w => w.kind = NvmKind.counter && w.ctx = some 0 && m.wds.wdTarget ≤ w.page) = false) ∧
     True) ∧
    -- QUIET_AUTO
    (let m : Mach := W
     (m.pwr.st = .run) ∧
     (m.pwr.quietAfterS ≠ 0) ∧
     (m.dev.configApplied = true) ∧
     (holderRuns m = true) ∧
     (anyAttached m = false) ∧
     ((∀ p < 48, ((!isBay m p || bayEmpty m p || (getChg m (p + 1)).st = .done) && !(getKey m p).pressed : Bool) = true)) ∧
     True) ∧
    -- QUIET_EXIT
    (let m : Mach := { W with pwr := { W.pwr with st := .quiet } }
     (m.pwr.st = .quiet) ∧
     True) ∧
    -- STANDBY_WAKE
    (let m : Mach := { W with pwr := { W.pwr with st := .standby } }
     let source : Nat := 6
     (source < 7) ∧
     let en := source = 0 || source = 6 || bit m.pwr.wakeEn (source - 1)
     ((m.pwr.st = .standby && en : Bool) = true) ∧
     True) ∧
    -- WAKE_TIMER
    (let m₀ : Mach := { W with pwr := { W.pwr with st := .standby, wakeAt := some 9 } }
     let m := m₀
     (m.pwr.st = .standby) ∧
     let d : Nat := 9
     (m.pwr.wakeAt = some d) ∧
     let m := advanceTo m d
     True) ∧
    -- STANDBY_COUNT_SAMPLE
    (let m : Mach := { W with pwr := { W.pwr with st := .standby } }
     let storeMa : Int := -1
     (m.pwr.st = .standby) ∧
     True) := by
  refine ⟨?_, ?_, ?_, ?_, ?_, ?_, ?_, ?_, ?_, ?_, ?_⟩ <;> decide +kernel

theorem witness_UpdateEvents :
    -- UPD_VERIFY_DONE
    (let m : Mach := { W with upd := { W.upd with st := .verifying, kind := 4 } }
     let u := m.upd
     (¬(u.st ≠ .verifying)) ∧
     let v := verdictFor m u.kind (regionOf m u.kind (stagedBank m u.kind)).bytes
     True) ∧
    -- UPD_SYNC_TIMEOUT
    (let m₀ : Mach := { W with upd := { W.upd with kind := 1, st := .applying, step := 2, timerAt := some 9 } }
     let m := m₀
     ((m.upd.kind = 1 && m.upd.st = .applying && m.upd.step = 2 : Bool) = true) ∧
     let d : Nat := 9
     (m.upd.timerAt = some d) ∧
     let m := advanceTo m d
     True) ∧
    -- UPD_PROBATION_END
    (let m₀ : Mach := { W with upd := { W.upd with kind := 1, st := .probation, step := 4, timerAt := some 9 } }
     let m := m₀
     ((m.upd.kind = 1 && m.upd.st = .probation && m.upd.step = 4 : Bool) = true) ∧
     let d : Nat := 9
     (m.upd.timerAt = some d) ∧
     let m := advanceTo m d
     True) ∧
    -- UPD_POINTER_WRITE
    (let m : Mach := { W with upd := { W.upd with kind := 4, st := .applying, step := 3 } }
     (pointerDue m = true) ∧
     True) ∧
    -- PD_UPD_CORE_STEP
    (let m : Mach := { W with upd := { W.upd with kind := 2 } }
     let u := m.upd
     (¬(u.kind ≠ 2)) ∧
     True) ∧
    -- PD_UPD_PROBATION_END
    (let m₀ : Mach := { W with upd := { W.upd with kind := 2, st := .probation, step := 4, timerAt := some 9 } }
     let m := m₀
     ((m.upd.kind = 2 && m.upd.st = .probation && m.upd.step = 4 : Bool) = true) ∧
     let d : Nat := 9
     (m.upd.timerAt = some d) ∧
     let m := advanceTo m d
     True) ∧
    -- EST_UCODE_SWAP
    (let m₀ : Mach := { W with upd := { W.upd with kind := 3, st := .applying, step := 1 } }
     let m := m₀
     ((m.upd.kind = 3 && m.upd.st = .applying && m.upd.step = 1 : Bool) = true) ∧
     let m := estSwap m
     True) ∧
    -- EST_UCODE_PROBATION_END
    (let m : Mach := { W with upd := { W.upd with kind := 3, st := .probation, timerAt := some 9 } }
     ((m.upd.kind = 3 && m.upd.st = .probation : Bool) = true) ∧
     True) ∧
    -- LIMITS_PREPARE
    (let m : Mach := { W with upd := { W.upd with kind := 4, st := .applying, step := 1 } }
     let u := m.upd
     (¬(u.kind ≠ 4 || u.st ≠ .applying || !holderRuns m || !(u.step = 1 || (u.step = 2 && u.former ≠ m.grd.owner)))) ∧
     let t := limitsOf ((regionOf m 4 (stagedBank m 4)).bytes.drop 192)
     True) ∧
    -- LIMITS_COMMIT
    (let m : Mach := { W with upd := { W.upd with kind := 4, st := .applying, step := 2 }, grd := { W.grd with shadow := some {} } }
     ((m.upd.kind = 4 && m.upd.st = .applying && m.upd.step = 2 && holderRuns m : Bool) = true) ∧
     let t := ({} : Limits)
     (m.grd.shadow = some t) ∧
     True) ∧
    -- TMON_MASK_EXPIRE
    (let m₀ : Mach := (modTmon W 15 fun x => { x with maskUntil := some 9 })
     let group : Nat := 15
     (group < 16) ∧
     let m := m₀
     let d : Nat := 9
     ((getTmon m group).maskUntil = some d) ∧
     let m := advanceTo m d
     True) := by
  refine ⟨?_, ?_, ?_, ?_, ?_, ?_, ?_, ?_, ?_, ?_, ?_⟩ <;> decide +kernel

theorem witness_ServiceLinkEvents :
    -- STAVSKA_LINK_START
    (let m : Mach := { (modPd wSrc 47 fun x => { x with contract := true, dfp := false }) with svc := { W.svc with armPort := some 47 } }
     let port : Nat := 47
     (port < 48) ∧
     (linkReady m port = true) ∧
     True) ∧
    -- STAVSKA_SWAP_RETRY
    (let m₀ : Mach := { W with svc := { W.svc with armPort := some 47, swapAt := some 9 } }
     let port : Nat := 47
     (port < 48) ∧
     let m := m₀
     (m.svc.armPort = some port) ∧
     let d : Nat := 9
     (m.svc.swapAt = some d) ∧
     let m := advanceTo m d
     True) ∧
    -- STAVSKA_NO_PD
    (let m₀ : Mach := { W with svc := { W.svc with armPort := some 47, noPdAt := some 9 } }
     let port : Nat := 47
     (port < 48) ∧
     let m := m₀
     (m.svc.armPort = some port) ∧
     let d : Nat := 9
     (m.svc.noPdAt = some d) ∧
     let m := advanceTo m d
     True) ∧
    -- USB_SET_CONFIGURATION
    (let m : Mach := { W with svc := { W.svc with link := 2 } }
     (m.svc.link = 2) ∧
     True) ∧
    -- ENUM_TIMEOUT
    (let m₀ : Mach := { W with svc := { W.svc with link := 2, enumAt := some 9 } }
     let m := m₀
     (m.svc.link = 2) ∧
     let d : Nat := 9
     (m.svc.enumAt = some d) ∧
     let m := advanceTo m d
     True) ∧
    -- STAVSKA_FRAME
    (let m : Mach := { W with svc := { W.svc with link := 3 } }
     let bytes : List Nat := [255]
     ((bytes.all fun b => b < 256) = true) ∧
     (m.svc.link = 3) ∧
     True) ∧
    -- STAVSKA_FRAME_TIMEOUT
    (let m₀ : Mach := { W with svc := { W.svc with frameAt := some 9 } }
     let m := m₀
     let d : Nat := 9
     (m.svc.frameAt = some d) ∧
     let m := advanceTo m d
     True) ∧
    -- STAVSKA_IDLE
    (let m₀ : Mach := { W with svc := { W.svc with link := 3, idleAt := some 9 } }
     let m := m₀
     (m.svc.link ≠ 0) ∧
     let d : Nat := 9
     (m.svc.idleAt = some d) ∧
     let m := advanceTo m d
     True) ∧
    -- STAVSKA_LINK_END
    (let m : Mach := W
     let reason : Nat := 9
     ((4 ≤ reason && reason ≤ 9 : Bool) = true) ∧
     True) ∧
    -- NONCE_EXPIRE
    (let m₀ : Mach := { W with svc := { W.svc with nonceAt := some 9 } }
     let m := m₀
     let d : Nat := 9
     (m.svc.nonceAt = some d) ∧
     let m := advanceTo m d
     True) ∧
    -- AUTH_LOCKOUT_END
    (let m₀ : Mach := { W with svc := { W.svc with lockoutAt := some 9 } }
     let m := m₀
     let d : Nat := 9
     (m.svc.lockoutAt = some d) ∧
     let m := advanceTo m d
     True) ∧
    -- PTB_UNLOCK_EXPIRE
    (let m₀ : Mach := { W with svc := { W.svc with unlockAt := some 9 } }
     let m := m₀
     let d : Nat := 9
     (m.svc.unlockAt = some d) ∧
     let m := advanceTo m d
     True) ∧
    -- PTB_TTL_EXPIRE
    (let m : Mach := { W with svc := { W.svc with ptbs := [wPtb] } }
     let id : Nat := 254
     (id < 255) ∧
     let b := wPtb
     ((m.svc.ptbs.find? fun b => b.id = id) = some b) ∧
     True) ∧
    -- JTAG_INSTRUCTION
    (let m : Mach := W
     let opcode : Nat := 255
     (opcode < 256) ∧
     (m.dev.vioGood = true) ∧
     True) ∧
    -- TAP_RESET
    (let m : Mach := W
     True) := by
  refine ⟨?_, ?_, ?_, ?_, ?_, ?_, ?_, ?_, ?_, ?_, ?_, ?_, ?_, ?_, ?_⟩ <;> decide +kernel

/-! ### Terms that no check lets pass -/

theorem test_illFormed_refused_1 : ([
    .devInfoGet 5, .devCmdCapsGet 5, .devEcho 5, .pwrStateSet 5, .pwrReset 5, .pwrStatGet 5, .pwrWakeCfg 5, .srcInputCfg 5,
    .srcPathCfg 5, .srcInputStatGet 5, .srcMpptScan 5, .srcSysTargetSet 5, .stoProfileSet 5, .stoTwinSet 5, .stoChgCtrl 5,
    .stoChgStatGet 5, .stoAuxCfg 5, .lftCfg 5, .lftClassSet 5, .lftBudgetGet 5, .lftPassGet 5, .prtCfg 5, .prtStatGet 5,
    .prtMoistGet 5, .prtMoistClear 5, .prtWashdown 5, .prtUiCfg 5, .prtUiEventGet 5, .prtLedSet 5, .pdSrcCfg 5, .pdSnkCfg 5,
    .pdStatGet 5, .pdDrSwapReq 5, .pdReset 5, .pdCoreStatGet 5, .pdMigrate 5, .bayCfg 5, .bayKeySet 5, .bayStatGet 5,
    .bayRecordGet 5, .bayKeyGet 5, .bayRecordForget 5, .bayReauth 5, .estCfg 5, .estCtxGet 5, .estOcvSet 5, .estOcvGet 5,
    .estEisReq 5, .estEisGet 5, .estCtxSet 5, .estRestReq 5, .thmCfg 5, .thmGroupsGet 5, .thmSensorGet 5, .fltDetailGet 5,
    .fltClear 5, .fltFence 5, .bibHandover 5, .grdHoldCfg 5, .wdhCfgSet 5, .wdsStatGet 5, .wdCountGet 5, .nvmRead 5,
    .nvmWrite 5, .nvmErase 5, .nvmCounterGet 5, .nvmSave 5, .nvmPdwSet 5, .jnlGet 5, .jnlFind 5, .updBegin 5, .updData 5,
    .updCommit 5, .updAbort 5, .updStatGet 5] : List Instr).all (fun c => !c.wf) = true := by decide +kernel

theorem test_illFormed_refused_2 : ([
    .svcLinkArm 5, .svcLinkStop 5, .svcAuthChallenge 5, .svcAuthResponse 5, .ptbUnlock 5, .ptbSet 5, .ptbClear 5,
    .svcStatGet 5, .cnvDeclare 5, .phsSelftest 5, .phsStatusGet 5, .cnvLoopCfg 5, .cnvCoefWrite 5, .cnvSetMap 5,
    .cnvRefSet 5, .cnvSpecStatsGet 5, .cnvSpecResume 5, .cnvProtCfg 5, .cnvProtStatGet 5, .spiTransaction ([2 ^ 40]) 7,
    .i2cTransaction ([.write 128 []]), .wdhServe (2 ^ 40), .wdhDisableSequence (2 ^ 40), .mbxDoorbell (2 ^ 40),
    .mbxAck (2 ^ 40), .mbxSlotWrite (2 ^ 40) (2 ^ 32 - 1), .causeClear (2 ^ 40) 255, .registerWrite (2 ^ 40) (2 ^ 32 - 1),
    .commandOutcome (2 ^ 40) 0x010B (2 ^ 32 - 1), .pprAuto (2 ^ 40), .blkDone (2 ^ 40), .ferAuto (2 ^ 40), .ferDone (2 ^ 40),
    .resetPhaseEnd (2 ^ 40), .strapLatch (2 ^ 40) 1 3, .storeStart (2 ^ 40) false, .powerDownWarning (2 ^ 40) 4599 [],
    .learnedWriteDue (2 ^ 40), .clkLoss (2 ^ 40), .dieLinkLoss (2 ^ 40), .linkGlitch (2 ^ 40), .feHeartbeatLoss (2 ^ 40),
    .periodBoundary (2 ^ 40), .speculation (2 ^ 40) [], .resolve (2 ^ 40) [], .shadowLoad (2 ^ 40), .recovery (2 ^ 40),
    .ctrlStarved (2 ^ 40), .modeChange (2 ^ 40),
    .peakTrip (2 ^ 40) ({ phase := 0, legB := false, imonUv := 65000000, sinceNs := 120 }), .senseSplit (2 ^ 40) 0 1 0,
    .tmonOpen (2 ^ 40) 99, .stageFault (2 ^ 40) 2401, .stageIdentify (2 ^ 40) [], .phaseParkEnd (2 ^ 40) 600,
    .phaseSelftest (2 ^ 40) 0 wTest, .selftestDone (2 ^ 40), .selftestDeferredRun (2 ^ 40) 5001,
    .imonZeroCheck (2 ^ 40) 0 651 600, .prebiasCheck (2 ^ 40) wBias, .prebiasRetry (2 ^ 40) wBias,
    .backdriveClear (2 ^ 40) 799, .shortDetect (2 ^ 40) 3999 900 false, .hiccupRetry (2 ^ 40), .hiccupCountReset (2 ^ 40),
    .ovDetect (2 ^ 40) 65000 false, .uvDetect (2 ^ 40) 0 0 1, .phaseOpen (2 ^ 40) [0] [0] [0] 32, .senseRail (2 ^ 40) 0 19,
    .senseRipple (2 ^ 40) 0 (List.replicate 8 1000) (List.replicate 8 1001), .derateEnd (2 ^ 40), .bfetModeEval (2 ^ 40),
    .linearUpdate (2 ^ 40) 20000 100, .linOverload (2 ^ 40) 14999 1000,
    .inputPresent (2 ^ 40) 10000] : List Instr).all (fun c => !c.wf) = true := by decide +kernel

theorem test_illFormed_refused_3 : ([
    .inputAbsent (2 ^ 40) 8999, .inOv (2 ^ 40) 20001, .inOvRecover (2 ^ 40) 18999, .inputReverse (2 ^ 40) (-201),
    .inputReverseRestart (2 ^ 40), .vehicleSystemDetect (2 ^ 40) 18000, .vehiclePark (2 ^ 40) 0,
    .vehicleUnpark (2 ^ 40) 60000, .donorWithdraw (2 ^ 40), .mpptStep (2 ^ 40) 1000 0, .mpptScan (2 ^ 40),
    .mpptScanEnd (2 ^ 40) 170000, .sysLow (2 ^ 40), .sysRecover (2 ^ 40), .cableBoot (2 ^ 40) 4750 2,
    .bootCapsTimeout (2 ^ 40), .bootSinkLoss (2 ^ 40) 0 0 [], .storeAccept (2 ^ 40), .chgEval (2 ^ 40) 65000 0,
    .vChgUpdate (2 ^ 40) 1, .chgTimerSecond (2 ^ 40) true false 0 0, .chgTimerExpire (2 ^ 40), .chgOc (2 ^ 40) 0,
    .chgOcPersist (2 ^ 40) 0, .cellOv (2 ^ 40) 65000, .passRequest (2 ^ 40) 1000, .grantDelivery (2 ^ 40),
    .passExcess (2 ^ 40) 1000, .reclaimHardReset (2 ^ 40), .eisGrantEnd (2 ^ 40), .rdDetect (2 ^ 40) 1 true,
    .ccDebounce (2 ^ 40), .attachedSrc (2 ^ 40), .sourceDetach (2 ^ 40), .sinkDetach (2 ^ 40) 60000 true,
    .sinkAttach (2 ^ 40) 1 2, .drpToggle (2 ^ 40), .tryTimeout (2 ^ 40), .errorRecoveryEnd (2 ^ 40),
    .accessoryDetect (2 ^ 40) false, .vconnOc (2 ^ 40) 201 false, .moistureCheck (2 ^ 40), .moistureCheckDone (2 ^ 40) [],
    .ccOvervoltage (2 ^ 40) 3 6001, .ccPinReconnect (2 ^ 40) 3 5499, .uiFrame ([2 ^ 40]), .holdReached (2 ^ 40),
    .longHoldReached (2 ^ 40), .stuck (2 ^ 40), .serviceWindowEnd (2 ^ 40), .baselineReseed (2 ^ 40) 65535,
    .pdSourceCapabilitiesRx (2 ^ 40) ([.fixed 5000 3000]) false false false,
    .pdRequestRx (2 ^ 40) ({ pos := 1, ma := 100, mv := 0, mismatch := false, epr := false }), .pdAcceptRx (2 ^ 40) false,
    .pdRejectRx (2 ^ 40) true, .pdPsRdyRx (2 ^ 40), .pdSoftResetRx (2 ^ 40), .pdHardReset (2 ^ 40) true,
    .pdDrSwapRx (2 ^ 40), .pdEprModeRx (2 ^ 40) true, .pdEprKeepaliveRx (2 ^ 40), .pdGetCapRx (2 ^ 40) false false,
    .pdInfoQueryRx (2 ^ 40) .getStatus, .pdUnsupportedRx (2 ^ 40), .pdAlertRx (2 ^ 40) 255, .pdVendorDefinedRx (2 ^ 40) true,
    .pdCableIdentityRx (2 ^ 40) 5000 48000 true, .pdBistRx (2 ^ 40) 0 5000, .pdRetransmit (2 ^ 40), .pdTxFail (2 ^ 40),
    .senderResponseTimeout (2 ^ 40), .psTransitionTimeout (2 ^ 40), .srcTransitionStart (2 ^ 40),
    .transitionSettled (2 ^ 40) 8730, .sendSourceCap (2 ^ 40)] : List Instr).all (fun c => !c.wf) = true := by decide +kernel

theorem test_illFormed_refused_4 : ([
    .noResponseTimeout (2 ^ 40), .sinkEprKeepalive (2 ^ 40), .ppsRequestRepeat (2 ^ 40), .sourceEprKeepaliveTimeout (2 ^ 40),
    .ppsTimeout (2 ^ 40), .discoverIdentityRetry (2 ^ 40), .hardResetStop (2 ^ 40), .srcRecover (2 ^ 40),
    .ppsUndervoltage (2 ^ 40) 3299, .pdMigration (2 ^ 40), .migrationAbandon (2 ^ 40), .pdCoreFence (2 ^ 40),
    .bayIdRead (2 ^ 40) 5500, .packInsert (2 ^ 40), .packRemoval (2 ^ 40) 0 0 0, .bayLinkReply (2 ^ 40) 1 [] true,
    .bayReplyTimeout (2 ^ 40), .authVerdict (2 ^ 40), .authRetry (2 ^ 40), .bayStatusPoll (2 ^ 40), .trickleRetry (2 ^ 40),
    .trickleExpire (2 ^ 40), .bayStart (2 ^ 40) 0 0, .bayDoneRead (2 ^ 40) 60000, .proofingPause (2 ^ 40),
    .proofingPauseEnd (2 ^ 40), .keyRevokeReauth (2 ^ 40), .noAnchor (2 ^ 40), .filterReset (2 ^ 40), .stale (2 ^ 40),
    .relaxFit (2 ^ 40), .eisRun (2 ^ 40),
    .eisFrequencyDone (2 ^ 40) ([{ ctx := 271, vRe := 0, vIm := 0, iRe := 0, iIm := 0 }]) 0 0, .eisAbort (2 ^ 40),
    .eisDue (2 ^ 40), .thmSample (2 ^ 40) 250, .laneChange (2 ^ 40), .hover (2 ^ 40) 2, .thmCapLift (2 ^ 40),
    .pulseSkipEntry (2 ^ 40) 0, .pulseSkipExit (2 ^ 40) 1, .tsd (2 ^ 40), .hwOv (2 ^ 40) 65001 65001, .sysCrit (2 ^ 40),
    .sysCritRecover (2 ^ 40), .sysUv1 (2 ^ 40), .windowEnd (2 ^ 40), .controlPlaneWrite (2 ^ 40) (.sysTarget 48000),
    .syncSet (2 ^ 40), .wdsCheckin (2 ^ 40) false (2 ^ 32 - 1), .standbyWake (2 ^ 40), .tmonMaskExpire (2 ^ 40),
    .stavskaLinkStart (2 ^ 40), .stavskaSwapRetry (2 ^ 40), .stavskaNoPd (2 ^ 40), .stavskaFrame ([2 ^ 40]),
    .stavskaLinkEnd (2 ^ 40), .ptbTtlExpire (2 ^ 40), .jtagInstruction (2 ^ 40),
    .shipInputWake (2 ^ 40) ({ vinMv := 3001, vstsMv := 8000 }), .pdSinkCapabilitiesRx (2 ^ 40) ([.fixed 5000 3000]),
    .sinkHardReset (2 ^ 40), .sinkVbusRestored (2 ^ 40) 4750, .sinkRpChange (2 ^ 40) true, .cableResetRx (2 ^ 40),
    .cellTapFastLane ([2 ^ 40])] : List Instr).all (fun c => !c.wf) = true := by decide +kernel
theorem test_beyondRatings_refused : ([
    .resetPhaseEnd (2 ^ 40), .storeStart (2 ^ 40) false, .selftestDeferredRun 5 (2 ^ 40), .backdriveClear 47 (2 ^ 40),
    .shortDetect 47 (2 ^ 40) 900 false, .ovDetect 47 (2 ^ 40) false, .uvDetect 54 (2 ^ 40) 0 1, .senseRail 54 0 (2 ^ 40),
    .bfetModeEval (2 ^ 40), .linearUpdate (2 ^ 40) 20000 100, .linOverload (2 ^ 40) 14999 1000, .inputPresent 5 (2 ^ 40),
    .inputAbsent 5 (2 ^ 40), .inOv 5 (2 ^ 40), .inOvRecover 5 (2 ^ 40), .vehicleSystemDetect 5 (2 ^ 40),
    .vehiclePark 5 (2 ^ 40), .vehicleUnpark 5 (2 ^ 40), .mpptScanEnd 5 (2 ^ 40), .sysLow (2 ^ 40), .sysRecover (2 ^ 40),
    .cableBoot 46 (2 ^ 40) 2, .bootSinkLoss 47 (2 ^ 40) 0 [], .storeAccept (2 ^ 40), .chgEval 48 (2 ^ 40) 0,
    .chgTimerSecond 48 true false 0 (2 ^ 40), .cellOv 48 (2 ^ 40), .sinkDetach 47 (2 ^ 40) true,
    .ccOvervoltage 47 3 (2 ^ 40), .ccPinReconnect 47 3 (2 ^ 40), .uiFrame (List.replicate 48 (2 ^ 40)),
    .baselineReseed 47 (2 ^ 40), .transitionSettled 47 (2 ^ 40), .ppsUndervoltage 47 (2 ^ 40), .bayIdRead 47 (2 ^ 40),
    .packRemoval 47 0 (2 ^ 40) 0, .bayStart 47 (2 ^ 40) 0, .bayDoneRead 47 (2 ^ 40), .sysCrit (2 ^ 40),
    .sysCritRecover (2 ^ 40), .sysUv1 (2 ^ 40), .sinkVbusRestored 47 (2 ^ 40), .cellTapFastLane (List.replicate 17 (2 ^ 40)),
    .shipInputWake 5 { vinMv := 2 ^ 40, vstsMv := 8000 }, .prebiasCheck 54 { wBias with vbsMv := 60001 },
    .prebiasRetry 54 { wBias with vbsMv := 60001 }, .housekeepingRound { wRound with vstsMv := 65001 },
    .storeRemoval 2 0 65001 0 0] : List Instr).all (fun c => c.judge = .unrated) = true := by decide +kernel

theorem test_illFormed_lists_refused : ([
    .housekeepingRound { wRound with taps := [] }, .socCount [{ ctx := 272, dqMaMs := 0, iMa := 0, vUv := 0 }],
    .ekfStep [{ ctx := 272, iMa := 0, vUv := 0 }], .storeRemoval 4 0 0 0 0] : List Instr).all
    (fun c => c.judge = .noUnit) = true := by decide +kernel

/-! ### Worked examples of the manual -/

/-- Chapter 2, the food-truck hub: CC1_P17 is BC43, VBG_P30 AP2, PWM_H200 BC16, IMON_H200 BB16 and IMON_H41 D17. -/
theorem test_balls : (portBall 17 .cc1).name = "BC43" ∧ (portBall 30 .vbg).name = "AP2" ∧ (pwmBall 200).name = "BC16" ∧
    (imonBall 200).name = "BB16" ∧ (imonBall 41).name = "D17" := by decide +kernel

/-- A running host watchdog with PERIOD_MS 100 and WIN 4 (chapter 15). -/
def cafeWdh : Mach :=
  wdhStart { W with wdh := { W.wdh with cfg := { W.wdh.cfg with periodMs := 100, win := 4 } } } .running

/-- Chapter 15: OPEN is 50 000 ticks and CLOSE 100 000; a serve 80 ms after the last is accepted; one 40 ms after that is
EARLY, with HOSTRST_N low for 10 ms and WD_COUNT one up; 55 ms later a serve brings the watchdog back. -/
theorem test_cafe_serves :
    let a := wdhServe (advance cafeWdh 80000000) 0x6C3E
    let b := wdhServe (advance a 40000000) 0x6C3E
    let c := wdhServe (advance b 55000000) 0x6C3E
    cafeWdh.wdh.openAt = 50000 ∧ cafeWdh.wdh.close = 100000 ∧ a.wdh.st = .running ∧ a.wdh.count = 0 ∧
    b.wdh.st = .hostLost ∧ b.dev.hostRstUntil = some 130000000 ∧ b.wds.wdCount = 1 ∧ (getBlk b blkWdh).sev = 2 ∧
    c.wdh.st = .running := by decide +kernel

/-- Chapter 16, the return tally: 20 bytes at offset 52 reach offsets 52 to 63 and 0 to 7, and no other. -/
theorem test_tally_wraps :
    mergeHost {} 3100 52 ((List.range 20).map (BitVec.ofNat 8)) =
      ((List.range 8).map fun i => BitVec.ofNat 8 (12 + i)) ++ List.replicate 44 0xFF#8 ++ (List.range 12).map (BitVec.ofNat 8) := by
  decide +kernel

/-- Chapter 17, the rental kiosk: slot 0 holds PRT_LED_SET for P12 with tag 0x00310007, LEN 3 and its CRC. -/
def kiosk : Mach :=
  let h : List Byte := [0x08, 0x06, 0, 0, 0x07, 0, 0x31, 0, 3, 0, 0, 0]
  let p : List Byte := [0x0C, 0x02, 0x64]
  doorbell (slotPut { W with mbx := { W.mbx with nextSeq := 4812 } } 0 0 (h ++ le 4 (crc32 (h ++ p)) ++ p)) 1

/-- It is accepted as SEQ 4 812; executed, the slot is DONE with OK and that JSEQ; acknowledged and sent again, it is answered
DUPLICATE from entry 4 812, with DUPS 1. -/
theorem test_kiosk_duplicate :
    let a := serve kiosk
    let b := execute a 0x0608 0 cmdPrtLedSet
    let c := serve (doorbell (slotPut (mbxAck b 1) 0 0 (slotBytes kiosk 0 0 19)) 1)
    (getSlot a 0).jseq = 4812 ∧ mbxStatWord b = 3 ∧ slotBytes b 0 10 2 = [0, 0] ∧ slotBytes b 0 16 4 = le 4 4812 ∧
    slotBytes c 0 10 2 = le 2 0x0108 ∧ slotBytes c 0 16 4 = le 4 4812 ∧ (slotBytes c 0 47 1 = [1]) := by decide +kernel

/-- Chapter 6: SYS_MIN is derived as 14 x 3 000 = 42 000 mV for 14 Li-ion cells, and as 16 x 2 500 = 40 000 mV with SYS_FOLD
41 000 mV for 16 LiFePO4 cells. -/
theorem test_sysMin_derived :
    let f (chem cells : Nat) := (pathDerive (modChg W 0 fun x => { x with prof := { x.prof with chem := chem, cells := cells } })).path
    (f 1 14).sysMin = 42000 ∧ (f 2 16).sysMin = 40000 ∧ (f 2 16).sysFold = 41000 := by decide +kernel

/-- Chapter 13, the receptacle beside the boiler: after 559, readings of 561, 560, 560 and 562 in the fast lane hold the entry
condition of THROTTLE, and the fourth of them enters it. -/
theorem test_port_throttles :
    let m0 := modPort W 5 fun x => { x with mode := 1 }
    let run := [559, 561, 560, 560].foldl (fun m t => thmRead m 45 t) m0
    (getSens run 45).inLvl.getD 1 false = false ∧ (getSens (thmRead run 45 562) 45).inLvl.getD 1 false = true := by
  decide +kernel

/-- Chapter 15: gate 3 expects 0x6C0004, then 0x360002, 0x1B0001 and 0xEC8000. -/
theorem test_gate_three : wdsSeed 3 = 0x6C0004#24 ∧ wdsStep (wdsSeed 3) = 0x360002#24 ∧
    wdsStep (wdsStep (wdsStep (wdsSeed 3))) = 0xEC8000#24 := by decide +kernel

/-! ### The conditions of the other statements can be met -/

/-- A command of each outcome. -/
theorem witness_CommandsCompleteExactlyWhenLegal : (Instr.por).judge = .legal ∧ (Instr.causeClear 0x8A 255).judge = .legal ∧
    (Instr.causeClear 0x8B 255).judge = .noUnit ∧ (Instr.storeStart 65000 false).judge = .legal ∧
    (Instr.storeStart 65001 false).judge = .unrated := by decide +kernel

theorem witness_LegalQueuesNeverStop : ∀ c ∈ [Instr.por, .mbxDoorbell (2 ^ 32 - 1)], c.wf = true := by decide +kernel

/-- A machine in order, and a step from it. -/
theorem witness_StoresStayInOrder : storesWf W = true ∧ step ⟨[.mbxServe], W⟩ = .next ⟨[], serve W⟩ := ⟨by decide +kernel, rfl⟩

/-- DEV_CMD_CAPS_GET for group 0x12 in slots 0 and 4. -/
theorem witness_RefusalLeavesTheRest : ∀ s ∈ [0, 4],
    let m := mkCmd W 0x0102 s [0x12, 0, 0, 0]
    s < 5 ∧ ready m 0x0102 s = true ∧ storesWf m = true ∧
      (match cmdDevCmdCapsGet (begun m s) s (payload m s) with | .refuse .outOfRange => true | _ => false) = true := by
  decide +kernel

/-- A slot at the front of the order whose frame fails (BAD_CRC), and one whose frame is accepted. -/
theorem witness_CommandsAreNeverDropped :
    (let m := doorbell W 8
     holderRuns m = true ∧ m.mbx.order = [3] ∧ storesWf m = true ∧ (getSlot (serve m) 3).st = .done) ∧
    (holderRuns kiosk = true ∧ kiosk.mbx.order = [0] ∧ storesWf kiosk = true ∧ (getSlot (serve kiosk) 0).st = .executing) ∧
    (let m := stavskaFrame wSvc (List.replicate 16 0xFF#8 |>.set 8 0 |>.set 9 0)
     holderRuns m = true ∧ m.mbx.order = [4] ∧ storesWf m = true ∧ (getSlot (serve m) 4).st = .empty) := by
  decide +kernel

/-- An earlier entry of the kiosk's tag: with its arguments, with others, ABANDONED, and none at all. -/
theorem witness_DuplicateTags :
    let crc := argCrc 0x0608 (payload kiosk 0)
    let e : JEntry := { seq := 7, acceptMs := 0, tag := 0x310007, argCrc := crc, code := 0x0608, cls := 0, slot := 0 }
    let k (l : List JEntry) : Mach := { kiosk with mbx := { kiosk.mbx with ring := l } }
    pU (slotBytes kiosk 0 0 16) 4 4 = 0x310007 ∧ isService kiosk 0 = false ∧
    slotBytes (judge (k [e]) 0) 0 10 2 = le 2 0x108 ∧ slotBytes (judge (k [{ e with argCrc := crc + 1 }]) 0) 0 10 2 = le 2 0x10B ∧
    (getSlot (judge (k [{ e with st := .abandoned }]) 0) 0).st = .executing ∧ (getSlot (judge (k []) 0) 0).st = .executing := by
  decide +kernel

/-- The first and the last word of the aperture, an EMPTY slot and a slot that waits. -/
theorem witness_MailboxWordWrites : storesWf W = true ∧ (getSlot W ((0x1000 - 0x1000) / 0x400)).st = .empty ∧
    (getSlot W ((0x1FFC - 0x1000) / 0x400)).st = .empty ∧ storesWf kiosk = true ∧
    (getSlot kiosk ((0x13FC - 0x1000) / 0x400)).st ≠ .empty := by decide +kernel

theorem witness_PageWritesTouchTheirPage : nvWf W.nvm = true ∧ (List.replicate 64 0x5A#8).length = 64 := by decide +kernel

/-- The longest write at the last offset; NVM_WRITE with LENGTH 0, with LENGTH 65 and with OFFSET 64; a read of 64. -/
theorem witness_WritesWrapInTheirPage :
    63 < 64 ∧ (List.replicate 64 0x5A#8).length = 64 ∧
    (∀ l ∈ [[255, 15, 0, 0], [255, 15, 0, 65], [255, 15, 64, 1]],
      let m := mkCmd W 0x0D02 3 l
      let p := payload m 3
      ready m 0x0D02 3 = true ∧ 3072 ≤ pU p 0 2 ∧ (64 < pU p 3 1 ∨ pU p 3 1 = 0 ∨ 63 < pU p 2 1)) ∧
    (let p : List Byte := [0xFF, 0x0F, 63, 64]
     pU p 0 2 = 4095 ∧ pU p 2 1 = 63 ∧ pU p 3 1 = 64) := by decide +kernel

/-- A counter raised to its top, and then asked to fall. -/
theorem witness_SpreadCountersOnlyRise : nvWf W.nvm = true ∧ (ctrRead (ctrRaise W.nvm 2 0xFFFFFFFF) 2).1 = 0xFFFFFFFF ∧
    (ctrRead (ctrRaise (ctrRaise W.nvm 2 9) 2 8) 2).1 = 9 := by decide +kernel

/-- A block without a cause and one with, on a port converter and its port; causes cleared in part and whole. -/
theorem witness_FirstCauseStands :
    let m := note W 0x30 .short 5
    isBlock 0x30 = true ∧ blocksOf 0x30 = [0x30, 0] ∧ causeBits W 0 = 0 ∧ causeBits m 0 ≠ 0 ∧ codeOf .warn ≠ (getBlk m 0).first ∧
    (getBlk m 0).details.length < 8 ∧ causeBits (causeClear m 0 0x80) 0 = 0 ∧ causeBits (causeClear m 0 0x7F) 0 ≠ 0 := by
  decide +kernel

/-- A reaction of severity 5 in progress in block 0x67, and a fault less severe and one more severe. -/
theorem witness_FaultsDuringReactionMerge :
    let m := (detect W 0x67 .dsgOc 5 1000).1
    isBlock 0x67 = true ∧ reacting m 0x67 = true ∧ causeBits m 0x67 ≠ 0 ∧ (detect m 0x67 .chgOc 5 1000).2 = false ∧
    (detect m 0x67 .cutoff 6 1000).2 = true ∧ codeOf .chgOc ≠ (getBlk m 0x67).first ∧ (getBlk m 0x67).details.length < 8 := by
  decide +kernel

theorem witness_ConsequencesAreOnlyListed :
    let m : Mach := { W with grd := { W.grd with windows := [wWin] } }
    isBlock 47 = true ∧ maskedBy m (.uv 47) = some 0x8A ∧ (getBlk m 47).details.length < 8 := by decide +kernel

/-- Counts just below OPEN, at OPEN, just below CLOSE and at CLOSE; and a bad key. -/
theorem witness_WatchdogServe :
    let at_ (n : Nat) : Mach := { cafeWdh with wdh := { cafeWdh.wdh with count := n } }
    (∀ n ∈ [0, 49999, 50000, 99999, 100000], wdhUp (at_ n) = true ∧ (at_ n).wdh.st = .running ∧ (at_ n).wdh.waiting = false) ∧
    49999 < cafeWdh.wdh.openAt ∧ cafeWdh.wdh.openAt ≤ 50000 ∧ 99999 < cafeWdh.wdh.close ∧ cafeWdh.wdh.close ≤ 100000 ∧
    wdhUp W = true ∧ ¬(W.wdh.cfg.compat = true ∧ W.wdh.st = .off) ∧
    (let lost (n : Nat) : Mach := { at_ n with wdh := { (at_ n).wdh with st := .hostLost } }
     let off : Mach := { W with wdh := { W.wdh with st := .off, waiting := false } }
     let held : Mach := { W with wdh := { cafeWdh.wdh with waiting := true } }
     wdhUp off = true ∧ off.wdh.waiting = false ∧ off.wdh.cfg.compat = false ∧ off.wdh.st = .off ∧
     (lost 99999).wdh.waiting = false ∧ (lost 99999).wdh.count < (lost 99999).wdh.close ∧
     (lost 100000).wdh.close ≤ (lost 100000).wdh.count ∧ wdhUp (lost 0) = true ∧
     wdhUp held = true ∧ held.wdh.waiting = true ∧ held.wdh.st ≠ .off) := by decide +kernel

/-- A serve accepted and a second one cycle later, with WIN 4; and with WIN 0. -/
theorem witness_SecondServeIsEarly :
    let m : Mach := { cafeWdh with wdh := { cafeWdh.wdh with count := 50000 } }
    let k := wdhStart { W with wdh := { W.wdh with cfg := { W.wdh.cfg with periodMs := 100, win := 0 } } } .running
    (wdhUp m = true ∧ m.wdh.st = .running ∧ m.wdh.waiting = false ∧ m.wdh.openAt ≤ m.wdh.count ∧ m.wdh.count < m.wdh.close ∧
      m.wdh.cfg.win ≤ 7 ∧ 5 / 1000 < m.wdh.cfg.periodMs * 1000 * m.wdh.cfg.win / 8) ∧
    (wdhUp k = true ∧ k.wdh.st = .running ∧ k.wdh.waiting = false ∧ k.wdh.openAt ≤ k.wdh.count ∧ k.wdh.count < k.wdh.close ∧
      k.wdh.cfg.win = 0 ∧ 99999999 / 1000 < k.wdh.cfg.periodMs * 1000) := by decide +kernel

/-- A check-in that is accepted at gate 3, and one with a wrong token. -/
theorem witness_GateTokens :
    let m := wdsRestart { W with wds := { W.wds with enabled := true } }
    let w := m.wds
    w.enabled = true ∧ m.grd.owner = 0 + 1 ∧ bit w.mask 3 = true ∧ bit w.passed 3 = false ∧
    BitVec.ofNat 24 0x036C0004 = tget w.tokens 0 3 ∧ BitVec.ofNat 24 0x036C0005 ≠ tget w.tokens 0 3 := by decide +kernel

theorem witness_LowestEffortGoverns : (∃ i < 4, bit 0b1010 i = true) ∧ selectLoop 0b1010 [0, 5, 0, 5] = 3 := by decide +kernel

/-- A profile of 13 cells that breaks each condition in turn: the cell voltages, the currents, the pack voltage, SNTC_MASK. -/
theorem witness_BadProfilesAreRefused :
    let bytes (chem cells term : Nat) (iPre : Nat) (mask : Nat) : List Nat :=
      [chem, cells, term % 256, term / 256] ++ List.replicate 35 0 ++ [mask]
    (∀ l ∈ [bytes 1 13 4200 0 255, bytes 1 16 4400 0 15], 
      let m := mkCmd W 0x0401 3 l
      let p := payload m 3
      let x := profileOf p
      let fold := (pathDerive (modChg (begun m 3) 0 fun c => { c with prof := x })).path.sysFold
      ready m 0x0401 3 = true ∧
        (¬(fold + 500 ≤ x.cells * x.term ∧ x.cells * x.term ≤ 59000) ∨ 16 ≤ pU p 39 1)) := by decide +kernel

/-- A record of its own, a free one, and a full table with a record that no bay holds. -/
theorem witness_PackRecordChoice :
    let id : List Byte := [1, 2, 3, 4, 5, 6, 7, 8]
    let full : Mach := { W with recs := Vector.replicate 256 { used := true, packId := [9] } }
    ((∃ y < 256, (tget (modRec W 255 fun r => { r with used := true, packId := id }).recs {} y).used = true ∧
      (tget (modRec W 255 fun r => { r with used := true, packId := id }).recs {} y).packId = id)) ∧
    (tget W.recs {} 0).used = false ∧
    (∀ y < 256, (tget full.recs {} y).used = true) ∧ (∀ y < 256, (tget full.recs {} y).packId ≠ id) ∧ recHeld full 255 = false := by
  refine ⟨⟨255, by decide +kernel⟩, ?_⟩
  decide +kernel

/-- Both branches at their edges. -/
theorem witness_MoistureResistance :
    pinOhm { measured := true, voff := 0, v20 := 2399, v2 := 239 } = some 120000 ∧
    pinOhm { measured := true, voff := 0, v20 := 2400, v2 := 2399 } = some 1199500 ∧
    pinOhm { measured := true, voff := 0, v20 := 2400, v2 := 2400 } = none := by decide +kernel

theorem witness_TimeAddsUp : W.dev.aonFrac < 1000000000 ∧ W.dev.aonAcc < 32768 ∧ W.wdh.presc < 1000 ∧ W.dev.aonclk = true := by
  decide +kernel


/-- One aperture an interval: of five housekeeping requests that meet and find later intervals full, some are dropped. -/
theorem witness_SampleArbitration :
    let q (n : Nat) : ApReq := { cls := 5, conv := 0, phase := 0, atNs := n }
    (arbitrate 1 [q 0, q 1, q 2, q 3, q 4] 6 0 []).length ≠ 0 := by decide +kernel

/-- Chapter 2: the counts of the table add up to the whole field. -/
theorem test_ball_counts : (groupBalls.map (·.2)).sum = 2025 := by decide +kernel

end Machine
end Sys2Proof
end

section
/-! Serving a mailbox slot (R464, R467): what a response leaves of the mailboxes' queues, the status it carries, and that a
served slot is either refused with a status or accepted and journalled (R26). -/
namespace Sys2Proof
namespace Machine

/-! ### Responses -/

@[simp] theorem writeResponse_order (m : Mach) (s : Nat) (st : Status) (q : Nat) (out : List Byte) :
    (writeResponse m s st q out).mbx.order = m.mbx.order := by
  simp only [writeResponse]
  split
  · rw [streamOut_frame]; rfl
  · rfl

@[simp] theorem writeResponse_accepted (m : Mach) (s : Nat) (st : Status) (q : Nat) (out : List Byte) :
    (writeResponse m s st q out).mbx.accepted = m.mbx.accepted := by
  simp only [writeResponse]
  split
  · rw [streamOut_frame]; rfl
  · rfl

/-- STATUS stands in bytes 10 and 11 of a response (R462). -/
theorem responseFrame_status (m : Mach) (s k : Nat) (st : Status) (q : Nat) (out : List Byte) :
    ((responseFrame (slotBytes m k 0 8) s st q out).drop 10).take 2 = le 2 (statusCode st) := by
  have before : (bytesAt (slotBytes m k 0 8) 0 2 ++ [1#8, BitVec.ofNat 8 s] ++ bytesAt (slotBytes m k 0 8) 4 4
      ++ le 2 out.length).length = 10 := by
    simp [bytesAt, length_le, length_slotBytes]
  simp only [responseFrame]
  generalize bytesAt (slotBytes m k 0 8) 0 2 ++ [1#8, BitVec.ofNat 8 s] ++ bytesAt (slotBytes m k 0 8) 4 4
    ++ le 2 out.length = front at before ⊢
  simp only [List.append_assoc]
  rw [List.drop_left' before, List.take_left' (length_le 2 _)]

/-- The STATUS that a slot reads after a response was written to it. -/
theorem slotBytes_writeResponse_status {m : Mach} (h : storesWf m = true) (s : Nat) (st : Status) (q : Nat)
    (out : List Byte) : slotBytes (writeResponse m s st q out) s 10 2 = le 2 (statusCode st) := by
  simp only [slotBytes, writeResponse_mem]
  rw [amGetAll_amPutAll (mem_of_stores h) _ _ 10 2 (by rw [← slotBytes, length_responseFrame]; omega)]
  exact responseFrame_status m s s st q out

/-! ### The two ways a served slot is answered -/

/-- From `m` to `e` slot `s` was refused: its response carries a refusing status, and both queues stand. -/
structure SlotRefused (m e : Mach) (s : Nat) : Prop where
  order : e.mbx.order = m.mbx.order
  accepted : e.mbx.accepted = m.mbx.accepted
  slot : (getSlot e s).st = if s = 4 then .empty else .done
  status : ∃ st : Status, slotBytes e s 10 2 = le 2 (statusCode st) ∧ st ≠ .ok ∧ st ≠ .accepted

/-- From `m` to `e` the frame in slot `s` was accepted: it waits to be executed, and its entry is the journal's newest. -/
structure SlotJournalled (m e : Mach) (s : Nat) : Prop where
  order : e.mbx.order = m.mbx.order
  accepted : e.mbx.accepted = m.mbx.accepted ++ [s]
  slot : (getSlot e s).st = .executing
  entry : ∃ x, e.mbx.ring.getLast? = some x ∧ x.seq = (getSlot e s).jseq ∧ x.st = .accepted ∧ x.slot = s

theorem writeResponse_refuses {m : Mach} (h : storesWf m = true) {s : Nat} (hs : s < 5) {st : Status} (q : Nat)
    (out : List Byte) (hok : st ≠ .ok) (hacc : st ≠ .accepted) : SlotRefused m (writeResponse m s st q out) s where
  order := writeResponse_order m s st q out
  accepted := writeResponse_accepted m s st q out
  slot := getSlot_writeResponse m hs st q out
  status := ⟨st, slotBytes_writeResponse_status h s st q out, hok, hacc⟩

/-- A pushed entry is the newest of the ring, whether or not the oldest had to leave. -/
@[simp] theorem getLast?_ringPush (r : List JEntry) (e : JEntry) : (ringPush r e).getLast? = some e := by
  unfold ringPush
  split <;> exact List.getLast?_concat

theorem getSlot_accept (m : Mach) {s : Nat} (hs : s < 5) (code tag cls crc : Nat) :
    getSlot (accept m s code tag cls crc) s =
      { getSlot m s with st := .executing, jseq := m.mbx.nextSeq, code := code, deferred := false } :=
  getSlot_modSlot_same _ _ hs

theorem accept_journals (m : Mach) {s : Nat} (hs : s < 5) (code tag cls crc : Nat) :
    SlotJournalled m (accept m s code tag cls crc) s where
  order := rfl
  accepted := rfl
  slot := by rw [getSlot_accept m hs]
  entry := ⟨_, getLast?_ringPush _ _, by rw [getSlot_accept m hs], rfl, rfl⟩

/-! ### The doorbell's checks -/

/-- Each failure of steps 1 to 7 of R464 names a refusing status. -/
theorem frameCheck_refuses {m : Mach} {s : Nat} {st : Status} (h : frameCheck m s = some st) :
    st ≠ .ok ∧ st ≠ .accepted := by
  simp only [frameCheck] at h
  repeat' split at h
  all_goals cases h
  all_goals decide

/-- The journal with entry `e` replaced by `e'`, a repeat of its frame counted (R472). -/
def recounted (m : Mach) (e e' : JEntry) : Mach :=
  { m with mbx := { m.mbx with ring := ringMod m.mbx.ring e.seq fun _ => e' } }

theorem recounted_stores {m : Mach} (h : storesWf m = true) (e e' : JEntry) : storesWf (recounted m e e') = true :=
  setMbx_stores m _ h (mbxWf_of (mem_of_stores h) (ringOk_mod _ _ (ring_of_stores h)))

/-- What steps 8 and 9 of R464 can do: DUPLICATE with an earlier entry, TAG_CONFLICT, acceptance, or BUSY. -/
theorem judge_cases (m : Mach) (s : Nat) :
    (∃ e e', judge m s = writeResponse (recounted m e e') s .duplicate e.seq (entryBytes e')) ∨
    (∃ e : JEntry, judge m s = writeResponse m s .tagConflict e.seq []) ∨
    (∃ code tag cls crc, judge m s = accept m s code tag cls crc) ∨
    judge m s = refuseAt m s .busy := by
  simp only [judge]
  split
  · exact .inl ⟨_, _, rfl⟩
  · exact .inr (.inl ⟨_, rfl⟩)
  · by_cases room : ringRoom m.mbx.ring = true
    · exact .inr (.inr (.inl ⟨_, _, _, _, if_pos room⟩))
    · exact .inr (.inr (.inr (if_neg room)))

theorem judge_refuses_or_journals {m : Mach} (h : storesWf m = true) {s : Nat} (hs : s < 5) :
    SlotRefused m (judge m s) s ∨ SlotJournalled m (judge m s) s := by
  obtain ⟨e, e', eq⟩ | ⟨e, eq⟩ | ⟨code, tag, cls, crc, eq⟩ | eq := judge_cases m s <;> rw [eq]
  · obtain ⟨order, accepted, slot, status⟩ :=
      writeResponse_refuses (recounted_stores h e e') hs (st := .duplicate) e.seq (entryBytes e') (by decide) (by decide)
    exact .inl ⟨order, accepted, slot, status⟩
  · exact .inl (writeResponse_refuses h hs e.seq [] (by decide) (by decide))
  · exact .inr (accept_journals m hs code tag cls crc)
  · exact .inl (writeResponse_refuses h hs 0 [] (by decide) (by decide))

/-! ### The slot whose turn it is -/

/-- The machine with the first slot taken out of the order in which the doorbells came (R467). -/
def unqueued (m : Mach) (rest : List Nat) : Mach := { m with mbx := { m.mbx with order := rest } }

theorem unqueued_stores {m : Mach} (h : storesWf m = true) (rest : List Nat) : storesWf (unqueued m rest) = true :=
  setMbx_stores m _ h (mbxWf_of (mem_of_stores h) (ring_of_stores h))

/-- While a holder runs, MBX_SERVE takes the first slot of the order and refuses or judges its frame. -/
theorem serve_of_order {m : Mach} (hr : holderRuns m = true) {s : Nat} {rest : List Nat} (ho : m.mbx.order = s :: rest) :
    (∃ st, frameCheck (unqueued m rest) s = some st ∧ serve m = refuseAt (unqueued m rest) s st) ∨
    (frameCheck (unqueued m rest) s = none ∧ serve m = judge (unqueued m rest) s) := by
  simp only [serve, hr, ho, if_true]
  cases hc : frameCheck (unqueued m rest) s with
  | some st => exact .inl ⟨st, rfl, by simp only [unqueued] at hc ⊢; rw [hc]⟩
  | none => exact .inr ⟨rfl, by simp only [unqueued] at hc ⊢; rw [hc]⟩

theorem serve_refuses_or_journals {m : Mach} (hr : holderRuns m = true) {s : Nat} {rest : List Nat}
    (ho : m.mbx.order = s :: rest) (hs : s < 5) (h : storesWf m = true) :
    SlotRefused (unqueued m rest) (serve m) s ∨ SlotJournalled (unqueued m rest) (serve m) s := by
  have hq := unqueued_stores h rest
  obtain ⟨st, hc, e⟩ | ⟨-, e⟩ := serve_of_order hr ho
  · obtain ⟨hok, hacc⟩ := frameCheck_refuses hc
    rw [e]
    exact .inl (writeResponse_refuses hq hs 0 [] hok hacc)
  · rw [e]
    exact judge_refuses_or_journals hq hs

/-- Settles O10: the served slot's frame fails a check or is judged, and each of these refuses it with a status or accepts it
with an entry. -/
theorem commandsAreNeverDropped : Obligations.CommandsAreNeverDropped := by
  intro m s rest qs hr ho hs h
  refine ⟨serve m, rfl, ?_⟩
  obtain ⟨order, accepted, slot, status⟩ | ⟨order, accepted, slot, entry⟩ := serve_refuses_or_journals hr ho hs h
  · exact ⟨order, .inl ⟨slot, accepted, status⟩⟩
  · exact ⟨order, .inr ⟨slot, accepted, entry⟩⟩

end Machine
end Sys2Proof
end

section
/-! Recording and clearing causes (R381): CAUSE is the bit map of the recorded categories; what one recorded cause does to a
status word, and what a write of 1 to its CAUSE bits does. -/
namespace Sys2Proof
namespace Machine

/-! ### Bit maps of categories (R376, R378) -/

theorem nodup_eraseDups (l : List Nat) : l.eraseDups.Nodup := by
  match l with
  | [] => simp
  | k :: t =>
    rw [List.eraseDups_cons, List.nodup_cons]
    exact ⟨by simp, nodup_eraseDups _⟩
termination_by l.length
decreasing_by exact Nat.lt_succ_of_le (List.length_filter_le _ _)

/-- A power of two added where the number has no bit sets that bit and no other: no carry. -/
theorem testBit_add_two_pow (k : Nat) :
    ∀ (v j : Nat), v.testBit k = false → (v + 2 ^ k).testBit j = (v.testBit j || decide (j = k)) := by
  induction k with
  | zero =>
    intro v j clear
    rw [Nat.testBit_zero, decide_eq_false_iff_not] at clear
    cases j with
    | zero =>
      rw [Nat.testBit_zero, Nat.testBit_zero, decide_eq_true (show (v + 2 ^ 0) % 2 = 1 by omega), decide_eq_true rfl,
        Bool.or_true]
    | succ j =>
      rw [Nat.testBit_add_one, Nat.testBit_add_one, show (v + 2 ^ 0) / 2 = v / 2 by omega,
        decide_eq_false (Nat.succ_ne_zero j), Bool.or_false]
  | succ k ih =>
    intro v j clear
    rw [Nat.testBit_add_one] at clear
    have twice : 2 ^ (k + 1) = 2 * 2 ^ k := Nat.pow_succ'
    cases j with
    | zero =>
      rw [Nat.testBit_zero, Nat.testBit_zero, show (v + 2 ^ (k + 1)) % 2 = v % 2 by omega,
        decide_eq_false (Ne.symm (Nat.succ_ne_zero k)), Bool.or_false]
    | succ j =>
      rw [Nat.testBit_add_one, Nat.testBit_add_one, show (v + 2 ^ (k + 1)) / 2 = v / 2 + 2 ^ k by omega, ih _ _ clear]
      simp only [Nat.add_right_cancel_iff]

/-- The bits of a sum of distinct powers of two, none of them a bit of the number it starts from. -/
theorem testBit_foldl_two_pow (j : Nat) : ∀ (l : List Nat) (v : Nat), l.Nodup → (∀ k ∈ l, v.testBit k = false) →
    ((l.foldl (fun acc k => acc + 2 ^ k) v).testBit j = true ↔ v.testBit j = true ∨ j ∈ l)
  | [], v, _, _ => by simp only [List.foldl_nil, List.not_mem_nil, or_false]
  | k :: t, v, distinct, clear => by
    obtain ⟨fresh, distinct⟩ := List.nodup_cons.mp distinct
    have added (i : Nat) := testBit_add_two_pow k v i (clear k List.mem_cons_self)
    have clear' : ∀ i ∈ t, (v + 2 ^ k).testBit i = false := fun i hi => by
      have ne : i ≠ k := fun e => fresh (e ▸ hi)
      rw [added, clear i (List.mem_cons_of_mem _ hi), decide_eq_false ne, Bool.or_false]
    rw [List.foldl_cons, testBit_foldl_two_pow j t _ distinct clear', added, Bool.or_eq_true, decide_eq_true_eq, or_assoc,
      List.mem_cons]

theorem bit_bitmap (l : List Nat) (k : Nat) : bit (bitmap l) k = true ↔ k ∈ l := by
  rw [bit, bitmap, testBit_foldl_two_pow k _ 0 (nodup_eraseDups l) fun i _ => Nat.zero_testBit i, Nat.zero_testBit,
    List.mem_eraseDups]
  simp only [Bool.false_eq_true, false_or]

theorem bit_catBits (l : List (Nat × Nat)) (k : Nat) : bit (catBits l) k = true ↔ ∃ x ∈ l, catOf x.1 = k := by
  rw [catBits, bit_bitmap, List.mem_map]

/-- CAUSE reads 0 exactly where no cause is recorded. -/
theorem catBits_eq_zero {l : List (Nat × Nat)} : catBits l = 0 ↔ l = [] := by
  refine ⟨fun h => List.eq_nil_iff_forall_not_mem.mpr fun x hx => ?_, fun h => by subst h; rfl⟩
  have isSet := (bit_catBits l (catOf x.1)).mpr ⟨x, hx, rfl⟩
  simp [h, bit] at isSet

theorem catOf_lt (code : Nat) : catOf code < 8 := by
  unfold catOf
  repeat' split
  all_goals decide

/-- The causes outside the written categories leave CAUSE without the written bits. -/
theorem catBits_filter (l : List (Nat × Nat)) {mask : Nat} (h : mask < 256) :
    catBits (l.filter fun x => !bit mask (catOf x.1)) = Nat.land (catBits l) (255 - mask) := by
  have kept (k : Nat) : (255 - mask).testBit k = (decide (k < 8) && !mask.testBit k) := by
    rw [show 255 - mask = 2 ^ 8 - (mask + 1) by omega]
    exact Nat.testBit_two_pow_sub_succ h k
  refine Nat.eq_of_testBit_eq fun k => Bool.eq_iff_iff.mpr ?_
  calc bit (catBits (l.filter fun x => !bit mask (catOf x.1))) k = true
      ↔ ∃ x ∈ l, catOf x.1 = k ∧ bit mask (catOf x.1) = false := by
        simp only [bit_catBits, List.mem_filter, Bool.not_eq_true', and_assoc, and_comm (a := bit _ _ = _)]
    _ ↔ (∃ x ∈ l, catOf x.1 = k) ∧ k < 8 ∧ bit mask k = false := by
        constructor
        · rintro ⟨x, hx, rfl, off⟩
          exact ⟨⟨x, hx, rfl⟩, catOf_lt _, off⟩
        · rintro ⟨⟨x, hx, rfl⟩, -, off⟩
          exact ⟨x, hx, rfl, off⟩
    _ ↔ (catBits l &&& (255 - mask)).testBit k = true := by
        rw [← bit_catBits, Nat.testBit_and, kept]
        simp [bit]

/-! ### A recorded cause -/

theorem mem_blocksOf_self (b : Nat) : b ∈ blocksOf b := by
  unfold blocksOf
  split <;> simp

theorem blocksOf_lt {b x : Nat} (h : isBlock b = true) (hx : x ∈ blocksOf b) : x < 139 := by
  simp only [isBlock, Bool.or_eq_true, Bool.and_eq_true, decide_eq_true_eq] at h
  simp only [blocksOf] at hx
  split at hx <;> simp only [List.mem_cons, List.not_mem_nil, or_false] at hx <;> omega

/-- An occurrence of a listed code stays listed, and one of a new code finds room in a list of fewer than eight. -/
theorem detailAdd_lists (l : List Detail) (code : Nat) (consequential merged : Bool) (origin timeMs : Nat)
    (room : l.length < 8) : ∃ d ∈ detailAdd l code consequential merged origin timeMs, d.code = code := by
  unfold detailAdd
  split
  case isTrue known =>
    obtain ⟨d, hd, e⟩ := List.any_eq_true.mp known
    have e : d.code = code := of_decide_eq_true e
    exact ⟨_, List.mem_map_of_mem hd, by rw [if_pos e]; exact e⟩
  case isFalse =>
    exact ⟨_, List.mem_append_right _ (List.mem_singleton_self _), rfl⟩

section
variable (w : Blk) (code sev timeMs tick : Nat) (merged : Bool)

/-- The first cause of a status word. -/
theorem blkRecord_of_empty (h : w.sticky = []) :
    blkRecord w code sev timeMs tick merged =
      { w with first := code, sev := sev, sticky := [(code, sev)], firstMs := timeMs, firstTick := tick, maxSev := sev,
               occur := 1, merged := w.merged + (if merged then 1 else 0) } := by
  simp [blkRecord, h]

/-- A later cause of a status word. -/
theorem blkRecord_of_recorded (h : w.sticky ≠ []) :
    blkRecord w code sev timeMs tick merged =
      { w with
        sticky := if w.sticky.contains (code, sev) then w.sticky else w.sticky ++ [(code, sev)]
        maxSev := max w.maxSev sev
        occur := if code = w.first then satTo 65535 (w.occur + 1) else w.occur
        merged := if merged then satTo 65535 (w.merged + 1) else w.merged
        details := if code = w.first then w.details else detailAdd w.details code false merged 0xFF timeMs } := by
  simp [blkRecord, h]

theorem mem_blkRecord_sticky : (code, sev) ∈ (blkRecord w code sev timeMs tick merged).sticky := by
  by_cases h : w.sticky = []
  · simp [blkRecord_of_empty, h]
  · rw [blkRecord_of_recorded _ _ _ _ _ _ h]
    by_cases known : (code, sev) ∈ w.sticky <;> simp [known]

theorem blkRecord_lists (h : w.sticky ≠ []) (other : code ≠ w.first) (room : w.details.length < 8) :
    ∃ d ∈ (blkRecord w code sev timeMs tick merged).details, d.code = code := by
  simpa [blkRecord_of_recorded, h, other] using detailAdd_lists w.details code false merged 0xFF timeMs room

end

/-- A cause is recorded once in each of its blocks. -/
theorem getBlk_note (m : Mach) (b : Nat) (c : Cause) (sev : Nat) {x : Nat} (hx : x ∈ blocksOf b) (h : x < 139) :
    getBlk (note m b c sev) x = blkRecord (getBlk m x) (codeOf c) sev (nowMs m) m.dev.aonTick false :=
  getBlk_forBlocks m b (fun m w => blkRecord w (codeOf c) sev (nowMs m) m.dev.aonTick false) (fun _ _ => rfl) hx h

/-! ### CAUSE bits written as 1 -/

/-- A status word after `mask` was written to its CAUSE. -/
def blkCleared (mask : Nat) (w : Blk) : Blk :=
  let st := w.sticky.filter fun x => !bit mask (catOf x.1)
  if w.sticky.isEmpty then w
  else if st.isEmpty then
    { w with sticky := [], first := 0, sev := 0, details := [], occur := 0, maxSev := 0, merged := 0, firstMs := 0,
             firstTick := 0 }
  else { w with sticky := st }

theorem getBlk_causeClear_same (m : Mach) {b : Nat} (h : b < 139) (mask : Nat) :
    getBlk (causeClear m b mask) b = blkCleared mask (getBlk m b) := by
  simp only [causeClear]
  rw [getBlk_modBlk_same _ _ h]
  split <;> rfl

theorem getBlk_causeClear_ne (m : Mach) {b x : Nat} (h : x ≠ b) (mask : Nat) :
    getBlk (causeClear m b mask) x = getBlk m x := by
  simp only [causeClear]
  rw [getBlk_modBlk_ne _ _ (Ne.symm h)]
  split <;> rfl

/-- A write to CAUSE finds no cause, takes the last one, or leaves one that the mask does not name. -/
theorem blkCleared_cases (mask : Nat) (w : Blk) :
    (w.sticky = [] ∧ blkCleared mask w = w) ∨
    (w.sticky.filter (fun x => !bit mask (catOf x.1)) = [] ∧
      blkCleared mask w = { w with sticky := [], first := 0, sev := 0, details := [], occur := 0, maxSev := 0, merged := 0,
                                   firstMs := 0, firstTick := 0 }) ∨
    (w.sticky.filter (fun x => !bit mask (catOf x.1)) ≠ [] ∧
      blkCleared mask w = { w with sticky := w.sticky.filter fun x => !bit mask (catOf x.1) }) := by
  simp only [blkCleared, List.isEmpty_iff]
  by_cases empty : w.sticky = []
  · exact .inl ⟨empty, if_pos empty⟩
  · rw [if_neg empty]
    by_cases last : w.sticky.filter (fun x => !bit mask (catOf x.1)) = []
    · exact .inr (.inl ⟨last, if_pos last⟩)
    · exact .inr (.inr ⟨last, if_neg last⟩)

theorem blkCleared_sticky (mask : Nat) (w : Blk) :
    (blkCleared mask w).sticky = w.sticky.filter fun x => !bit mask (catOf x.1) := by
  obtain ⟨empty, e⟩ | ⟨last, e⟩ | ⟨-, e⟩ := blkCleared_cases mask w <;> rw [e]
  · simp [empty]
  · exact last.symm

/-- FIRST, SEV and the detail list go with the last cause. -/
theorem blkCleared_of_last {mask : Nat} {w : Blk} (held : w.sticky ≠ []) (last : (blkCleared mask w).sticky = []) :
    (blkCleared mask w).first = 0 ∧ (blkCleared mask w).sev = 0 ∧ (blkCleared mask w).details = [] := by
  obtain ⟨empty, -⟩ | ⟨-, e⟩ | ⟨rest, -⟩ := blkCleared_cases mask w
  · exact absurd empty held
  · rw [e]
    exact ⟨rfl, rfl, rfl⟩
  · exact absurd (blkCleared_sticky mask w ▸ last) rest

/-- A write to CAUSE releases no fence and changes no LIVE bit. -/
theorem blkCleared_frame (mask : Nat) (w : Blk) :
    (blkCleared mask w).fence = w.fence ∧ (blkCleared mask w).live = w.live := by
  obtain ⟨-, e⟩ | ⟨-, e⟩ | ⟨-, e⟩ := blkCleared_cases mask w <;> rw [e] <;> exact ⟨rfl, rfl⟩

theorem exec_causeClear {b mask : Nat} (hb : isBlock b = true) (h : mask < 256) (s : State) :
    exec (.causeClear b mask) s = .next { s with m := causeClear s.m b mask } := by
  show execCauseClear b mask s = _
  simp [execCauseClear, guardUnit, next, hb, h]

/-! ### The first cause stands -/

/-- Settles O16: a recorded cause meets a status word with no cause or with one, and a write to CAUSE keeps the causes of the
other categories. -/
theorem firstCauseStands : Obligations.FirstCauseStands := by
  refine ⟨fun m b sev c hb x hx => ?_, fun qs m b mask hb hmask => ?_⟩
  · simp only [Ne, causeBits, catBits_eq_zero, getBlk_note m b c sev hx (blocksOf_lt hb hx)]
    refine ⟨(bit_catBits _ _).mpr ⟨_, mem_blkRecord_sticky _ _ _ _ _ _, rfl⟩, fun empty => ?_, fun held => ?_⟩
    · rw [blkRecord_of_empty _ _ _ _ _ _ empty]
      exact ⟨rfl, rfl⟩
    · refine ⟨?_, ?_, blkRecord_lists _ _ _ _ _ _ held⟩ <;> rw [blkRecord_of_recorded _ _ _ _ _ _ held]
  · have here := getBlk_causeClear_same m (blocksOf_lt hb (mem_blocksOf_self b)) mask
    refine ⟨causeClear m b mask, exec_causeClear hb hmask _, ?_, ?_, ?_⟩
    · rw [causeBits, here, blkCleared_sticky, catBits_filter _ hmask, causeBits]
    · simp only [Ne, causeBits, catBits_eq_zero, here]
      exact blkCleared_of_last
    · rw [here]
      obtain ⟨fence, live⟩ := blkCleared_frame mask (getBlk m b)
      exact ⟨fence, live, fun x hx => getBlk_causeClear_ne m hx mask⟩

end Machine
end Sys2Proof
end

section
/-! The host watchdog's serves (R404, R405, R407, R412, R416, R417): what a write to WDH_SERVE does in each state of the
watchdog, the host-lost reaction read by its fields, and the count as time passes over an accepted serve. -/
namespace Sys2Proof
namespace Machine

/-! ### Recorded causes and the host-lost reaction -/

@[simp] theorem note_dev (m : Mach) (b : Nat) (c : Cause) (sev : Nat) : (note m b c sev).dev = m.dev := by
  rw [note_frame]

@[simp] theorem note_wdh (m : Mach) (b : Nat) (c : Cause) (sev : Nat) : (note m b c sev).wdh = m.wdh := by
  rw [note_frame]

/-- HOST_LOST is entered: the cause recorded and HOSTRST_N driven low, before the PARK profile of R416 acts. -/
def hostLostPulse (m : Mach) (c : Cause) : Mach :=
  let n := note m blkWdh c (if m.wdh.cfg.park then 3 else 2)
  wdhPulse { n with wdh := { n.wdh with st := .hostLost } }

/-- The reaction takes its profile from the configuration that stood before it. -/
theorem hostLost_eq (m : Mach) (c : Cause) :
    hostLost m c = if m.wdh.cfg.park then wdhParkOn (hostLostPulse m c) else hostLostPulse m c := by
  have cfg : (hostLostPulse m c).wdh.cfg = m.wdh.cfg := by
    simp [hostLostPulse, wdhPulse, wdCountUp]
  show (if (hostLostPulse m c).wdh.cfg.park then wdhParkOn (hostLostPulse m c) else hostLostPulse m c) = _
  rw [cfg]

@[simp] theorem hostLostPulse_st (m : Mach) (c : Cause) : (hostLostPulse m c).wdh.st = .hostLost := rfl
@[simp] theorem hostLostPulse_count (m : Mach) (c : Cause) : (hostLostPulse m c).wdh.count = 0 := rfl

@[simp] theorem hostLostPulse_early (m : Mach) (c : Cause) : (hostLostPulse m c).wdh.early = m.wdh.early := by
  simp [hostLostPulse, wdhPulse, wdCountUp]

@[simp] theorem hostLostPulse_hostRstUntil (m : Mach) (c : Cause) :
    (hostLostPulse m c).dev.hostRstUntil = some (m.dev.now + ms 10) := by
  simp [hostLostPulse, wdhPulse, wdCountUp, after]

/-! ### A value written to WDH_SERVE -/

theorem exec_wdhServe {key : Nat} (h : key < 65536) (s : State) :
    exec (.wdhServe key) s = .next { s with m := wdhServe s.m key } := by
  show execWdhServe key s = _
  simp [execWdhServe, guardUnit, next, h]

/-- A serve that comes with the expiry loses to it, in RUNNING and in HOST_LOST. -/
theorem wdhServe_atClose {m : Mach} (on : m.wdh.st ≠ .off) (closed : m.wdh.close ≤ m.wdh.count) : wdhServe m 0x6C3E = m := by
  cases st : m.wdh.st with
  | off => exact absurd st on
  | running => simp [wdhServe, st, closed]
  | hostLost => simp [wdhServe, st, closed]

section
variable {m : Mach} (up : wdhUp m = true)
include up

/-- Outside the compatibility mode's OFF, where any value starts the watchdog, only 0x6C3E is a serve. -/
theorem wdhServe_badKey {key : Nat} (in16 : key < 65536) (bad : key ≠ 0x6C3E)
    (native : ¬(m.wdh.cfg.compat = true ∧ m.wdh.st = .off)) :
    wdhServe m key = note { m with wdh := { m.wdh with badKey := true } } blkWdh .event 1 := by
  simp [wdhServe, up, native, Nat.mod_eq_of_lt in16, bad]

theorem wdhServe_off (free : m.wdh.waiting = false) (native : m.wdh.cfg.compat = false) (off : m.wdh.st = .off) :
    wdhServe m 0x6C3E = wdhStart m .running := by
  simp [wdhServe, up, free, native, off]

theorem wdhServe_waiting (held : m.wdh.waiting = true) (on : m.wdh.st ≠ .off) : wdhServe m 0x6C3E = m := by
  simp [wdhServe, up, held, on]

theorem wdhServe_hostLost (free : m.wdh.waiting = false) (lost : m.wdh.st = .hostLost) (below : m.wdh.count < m.wdh.close) :
    wdhServe m 0x6C3E = wdhParkOff (wdhStart m .running) := by
  simp [wdhServe, up, free, lost, Nat.not_le.mpr below]

variable (runs : m.wdh.st = .running) (free : m.wdh.waiting = false) (below : m.wdh.count < m.wdh.close)
include runs free below

theorem wdhServe_early (early : m.wdh.count < m.wdh.openAt) :
    wdhServe m 0x6C3E = hostLost { m with wdh := { m.wdh with early := true } } .wdhEarly := by
  simp [wdhServe, up, runs, free, Nat.not_le.mpr below, early]

theorem wdhServe_inWindow (opened : m.wdh.openAt ≤ m.wdh.count) : wdhServe m 0x6C3E = wdhStart m .running := by
  simp [wdhServe, up, runs, free, Nat.not_le.mpr below, Nat.not_lt.mpr opened]

end

/-- In a watchdog that runs, an accepted serve restarts the count and takes up the configured window, and nothing else. -/
theorem wdhStart_of_running {m : Mach} (runs : m.wdh.st = .running) (free : m.wdh.waiting = false) :
    wdhStart m .running = { m with wdh := { m.wdh with
      count := 0, presc := 0, close := m.wdh.cfg.periodMs * 1000
      openAt := m.wdh.cfg.periodMs * 1000 * m.wdh.cfg.win / 8 } } := by
  rw [wdhStart, ← runs, ← free]

/-! ### The count over time -/

@[simp] theorem wdhUp_wdhStart (m : Mach) (st : WdhState) : wdhUp (wdhStart m st) = wdhUp m := rfl
@[simp] theorem wdhUp_advance (m : Mach) (n : Nat) : wdhUp (advance m n) = wdhUp m := rfl

/-- A count that has just restarted takes one tick each 1 us and stands at CLOSE. -/
theorem count_advance_wdhStart {m : Mach} (up : wdhUp m = true) (n : Nat) :
    (advance (wdhStart m .running) n).wdh.count = min (m.wdh.cfg.periodMs * 1000) (n / 1000) := by
  simp only [wdhUp, Bool.and_eq_true, decide_eq_true_eq] at up
  obtain ⟨⟨clock, awake⟩, -⟩ := up
  simp [advance, wdhStart, clock, awake]

/-- OPEN never lies past CLOSE: WIN is at most 7 eighths. -/
theorem open_le_close {close win : Nat} (h : win ≤ 7) : close * win / 8 ≤ close := by
  have : close * win ≤ close * 7 := Nat.mul_le_mul_left close h
  omega

/-! ### The obligations -/

/-- Settles O20: after an accepted serve the count restarts at 0 with OPEN and CLOSE of the configuration, and the second serve
is judged against the microseconds since. -/
theorem secondServeIsEarly : Obligations.SecondServeIsEarly := by
  intro qs m n up runs free opened below
  simp only [wdhServe_inWindow up runs free below opened, exec_wdhServe (show 0x6C3E < 65536 by decide)]
  have count := count_advance_wdhStart up n
  have up : wdhUp (advance (wdhStart m .running) n) = true := by rw [wdhUp_advance, wdhUp_wdhStart, up]
  have runs : (advance (wdhStart m .running) n).wdh.st = .running := rfl
  have free : (advance (wdhStart m .running) n).wdh.waiting = false := rfl
  have close : (advance (wdhStart m .running) n).wdh.close = m.wdh.cfg.periodMs * 1000 := rfl
  have openAt : (advance (wdhStart m .running) n).wdh.openAt = m.wdh.cfg.periodMs * 1000 * m.wdh.cfg.win / 8 := rfl
  generalize advance (wdhStart m .running) n = e at *
  refine ⟨count, openAt, fun win early => ?_, fun win inTime => ?_⟩
  · have := open_le_close (close := m.wdh.cfg.periodMs * 1000) win
    rw [wdhServe_early up runs free (by omega) (by omega)]
  · have opened : e.wdh.openAt = 0 := by simp [openAt, win]
    rw [wdhServe_inWindow up runs free (by omega) (by omega)]

/-- Settles O19: one branch of a write to WDH_SERVE for each state of the watchdog and each place of its count. -/
theorem watchdogServe : Obligations.WatchdogServe := by
  refine ⟨fun qs m up runs free => ?running, fun qs m key in16 bad up native => ?badKey, fun qs m up => ?other⟩
  case badKey =>
    exact ⟨_, by rw [exec_wdhServe in16, wdhServe_badKey up in16 bad native], rfl, by rw [note_wdh], by rw [note_wdh]⟩
  all_goals simp only [exec_wdhServe (show 0x6C3E < 65536 by decide)]
  case running =>
    refine ⟨fun early below => ⟨?_, ?_⟩, fun opened below => ?_, fun closed => ?_⟩
    · rw [wdhServe_early up runs free below early, hostLost_eq]
      rfl
    · exact ⟨hostLostPulse_st _ _, hostLostPulse_count _ _, hostLostPulse_early _ _, hostLostPulse_hostRstUntil _ _⟩
    · rw [wdhServe_inWindow up runs free below opened, wdhStart_of_running runs free]
    · rw [wdhServe_atClose (by simp [runs]) closed]
  case other =>
    refine ⟨fun free native off => ?_, fun free lost below => ?_, fun free lost closed => ?_, fun held on => ?_⟩
    · rw [wdhServe_off up free native off]
    · rw [wdhServe_hostLost up free lost below]
    · rw [wdhServe_atClose (by simp [lost]) closed]
    · rw [wdhServe_waiting up held on]

end Machine
end Sys2Proof
end

section
/-! Offsets of the retention memory (R433): where a host write puts its bytes in a page, the lengths and offsets that are
refused, and the order in which a read returns the bytes. -/
namespace Sys2Proof
namespace Machine

/-! ### The bytes of a merged page -/

theorem length_mergeHost (nv : Nvm) (page off : Nat) (data : List Byte) : (mergeHost nv page off data).length = 64 := by
  simp [mergeHost]

/-- Offset `o` takes the byte of the data that lies as far past `off` round the page, or keeps its own. -/
theorem getD_mergeHost (nv : Nvm) (page off : Nat) (data : List Byte) {o : Nat} (ho : o < 64) :
    (mergeHost nv page off data).getD o 0 =
      if (o + 64 - off) % 64 < data.length then data.getD ((o + 64 - off) % 64) 0 else rawByte nv page o := by
  simp [mergeHost, List.getD_eq_getElem?_getD, ho]

theorem getD_mergeHost_written (nv : Nvm) (page : Nat) {off i : Nat} {data : List Byte} (hoff : off < 64)
    (fits : data.length ≤ 64) (hi : i < data.length) :
    (mergeHost nv page off data).getD ((off + i) % 64) 0 = data.getD i 0 := by
  have distance : ((off + i) % 64 + 64 - off) % 64 = i := by omega
  rw [getD_mergeHost nv page off data (Nat.mod_lt _ (by decide)), distance, if_pos hi]

theorem getD_mergeHost_kept (nv : Nvm) (page : Nat) {off o : Nat} {data : List Byte} (hoff : off < 64) (ho : o < 64)
    (unwritten : ∀ i < data.length, (off + i) % 64 ≠ o) : (mergeHost nv page off data).getD o 0 = rawByte nv page o := by
  have returns : (off + (o + 64 - off) % 64) % 64 = o := by omega
  rw [getD_mergeHost nv page off data ho, if_neg fun inData => unwritten _ inData returns]

/-! ### Commands that are refused -/

/-- A ready command in one of the five slots is settled by what its rules answer. -/
theorem command_of_ready {code s : Nat} {m : Mach} (hs : s < 5) (hr : ready m code s = true)
    (h : Mach → Nat → List Byte → Ans) (qs : List Instr) :
    command code s h ⟨qs, m⟩ = .next ⟨qs, settle m s (h (begun m s) s (payload m s))⟩ := by
  simp only [command, execute, hs, hr, decide_true, guardUnit_true, next_eq, if_true]

/-- A refusal changes the mailboxes and the serial stream alone. -/
theorem settle_refuse_answers (m : Mach) (s : Nat) (st : Status) : AnswerFrame m (settle m s (.refuse st)) s :=
  (begun_answers m s).trans (answer_answers (begun m s) s st [] 0)

/-- The check of PAGE, OFFSET and LENGTH that retention reads and writes share. -/
theorem spanRefused_iff (page off len : Nat) :
    (decide (4096 ≤ page) || decide (64 ≤ off) || !within len 1 64) = true ↔
      4096 ≤ page ∨ 64 ≤ off ∨ len = 0 ∨ 64 < len := by
  simp only [within, Bool.or_eq_true, Bool.not_eq_true', Bool.and_eq_false_iff, decide_eq_true_eq, decide_eq_false_iff_not]
  omega

/-- Of the host's own pages, PRIVILEGE does not refuse a write: its offset or length is judged. -/
theorem cmdNvmWrite_outOfRange (m : Mach) (s : Nat) {p : List Byte} (hostPage : 3072 ≤ pU p 0 2)
    (outside : 64 < pU p 3 1 ∨ pU p 3 1 = 0 ∨ 63 < pU p 2 1) : cmdNvmWrite m s p = .refuse .outOfRange := by
  have privileged : decide (pU p 0 2 < 3072) = false := decide_eq_false (Nat.not_lt.mpr hostPage)
  have range : (decide (4096 ≤ pU p 0 2) || decide (64 ≤ pU p 2 1) || !within (pU p 3 1) 1 64) = true :=
    (spanRefused_iff _ _ _).mpr (by omega)
  simp only [cmdNvmWrite, privileged, range, refuseFirst, Bool.false_eq_true, if_false, if_true]

/-! ### Reads -/

/-- The machine after a read of `page`: CORRECTED groups counted, an UNC group of a device-managed page flagged and recorded
(R431). -/
def readTallied (m : Mach) (page : Nat) : Mach :=
  let st := (List.range 8).map fun k => readStat m.nvm page k
  let unc := page < 3072 && st.contains .unc
  let tallied := { m with nvm := { m.nvm with
    corrected := satTo 65535 (m.nvm.corrected + (st.filter fun x => x = .corrected).length), unc := m.nvm.unc || unc } }
  if unc then note tallied blkNvm .nvmUnc 2 else tallied

/-- What a read tallies is no part of what it reads. -/
theorem readByte_readTallied (m : Mach) (page : Nat) : readByte (readTallied m page).nvm = readByte m.nvm := by
  simp only [readTallied]
  split
  · rw [note_frame]
    rfl
  · rfl

/-- A read in range answers with four bytes of status and reserved bytes, and then the page's bytes round from OFFSET. -/
theorem cmdNvmRead_inRange (m : Mach) (s : Nat) {p : List Byte} (hpage : pU p 0 2 < 4096) (hoff : pU p 2 1 < 64)
    (nonempty : 1 ≤ pU p 3 1) (fits : pU p 3 1 ≤ 64) :
    ∃ hdr, cmdNvmRead m s p = .ok (readTallied m (pU p 0 2))
      (hdr ++ (List.range (pU p 3 1)).map fun i => readByte m.nvm (pU p 0 2) ((pU p 2 1 + i) % 64)) ∧ hdr.length = 4 := by
  have range : (decide (4096 ≤ pU p 0 2) || decide (64 ≤ pU p 2 1) || !within (pU p 3 1) 1 64) = false :=
    Bool.eq_false_iff.mpr fun refused => by
      have := (spanRefused_iff _ _ _).mp refused
      omega
  rw [← readByte_readTallied m (pU p 0 2)]
  simp only [cmdNvmRead, range, refuseFirst, Bool.false_eq_true, if_false]
  exact ⟨_, rfl, by simp [length_le]⟩

/-! ### The obligation -/

/-- Settles O14: an offset's distance past OFFSET, taken round the page, tells which byte of the data lands there. -/
theorem writesWrapInTheirPage : Obligations.WritesWrapInTheirPage := by
  refine ⟨fun nv page off data hoff _ fits => ?write, fun qs m s hs hr hostPage outside => ?refused,
    fun m s p hpage hoff nonempty fits => ⟨_, cmdNvmRead_inRange m s hpage hoff nonempty fits⟩⟩
  case write =>
    exact ⟨length_mergeHost nv page off data, fun i hi => getD_mergeHost_written nv page hoff fits hi,
      fun o ho unwritten => getD_mergeHost_kept nv page hoff ho unwritten⟩
  case refused =>
    obtain ⟨frame, -, -⟩ := settle_refuse_answers m s .outOfRange
    refine ⟨?_, frame⟩
    show command 0x0D02 s cmdNvmWrite ⟨qs, m⟩ = _
    rw [command_of_ready hs hr, cmdNvmWrite_outOfRange _ _ hostPage outside]

end Machine
end Sys2Proof
end

section
/-! Duplicate tags (R472): which earlier entries a frame is compared with, the newest of them that a condition holds for, and
the answer of the doorbell's steps 8 and 9 in each case. -/
namespace Sys2Proof
namespace Machine

/-! ### The newest entry with a property -/

/-- The journal stands oldest first: the newest entry with a property is the one that no later entry shares it with. -/
theorem find?_reverse_newest {p : JEntry → Bool} {ring old new : List JEntry} {e : JEntry} (parts : ring = old ++ e :: new)
    (here : p e = true) (newest : ∀ x ∈ new, ¬p x = true) : ring.reverse.find? p = some e :=
  List.find?_eq_some_iff_append.mpr ⟨here, new.reverse, old.reverse, by simp [parts], fun x hx => by
    simpa using newest x (List.mem_reverse.mp hx)⟩

/-! ### The entries a frame is compared with -/

/-- The condition on an entry of `rivals`: its class and tag are the frame's, and it is neither ABANDONED nor INTERNAL. -/
def isRival (cls tag : Nat) (e : JEntry) : Bool := e.cls = cls && e.tag = tag && e.st ≠ .abandoned && e.cls ≠ 2

theorem isRival_iff (cls tag : Nat) (e : JEntry) :
    isRival cls tag e = true ↔ e.cls = cls ∧ e.tag = tag ∧ e.st ≠ .abandoned ∧ e.cls ≠ 2 := by
  simp only [isRival, Bool.and_eq_true, decide_eq_true_eq, and_assoc]

theorem rivals_eq (m : Mach) (cls tag : Nat) : rivals m cls tag = m.mbx.ring.reverse.filter (isRival cls tag) := rfl

theorem find?_rivals (m : Mach) (cls tag : Nat) (q : JEntry → Bool) :
    (rivals m cls tag).find? q = m.mbx.ring.reverse.find? fun x => isRival cls tag x && q x := by
  simp only [rivals_eq, List.find?_filter, Bool.decide_and, Bool.decide_eq_true]

/-- The newest rival is the first of the list. -/
theorem rivals_eq_cons {m : Mach} {cls tag : Nat} {old new : List JEntry} {e : JEntry} (parts : m.mbx.ring = old ++ e :: new)
    (here : isRival cls tag e = true) (newest : ∀ x ∈ new, ¬isRival cls tag x = true) :
    ∃ rest, rivals m cls tag = e :: rest := by
  rw [← List.head?_eq_some_iff, rivals_eq, List.head?_filter]
  exact find?_reverse_newest parts here newest

theorem rivals_eq_nil {m : Mach} {cls tag : Nat} (noRival : ∀ x ∈ m.mbx.ring, ¬isRival cls tag x = true) :
    rivals m cls tag = [] := by
  rw [rivals_eq, List.filter_eq_nil_iff]
  exact fun x hx => noRival x (List.mem_reverse.mp hx)

/-! ### The answers of steps 8 and 9 -/

/-- TAG of the frame in slot `s`. -/
abbrev frameTag (m : Mach) (s : Nat) : Nat := pU (slotBytes m s 0 16) 4 4

/-- The journal class of the submitter of slot `s`. -/
abbrev frameCls (m : Mach) (s : Nat) : Nat := if isService m s then 1 else 0

/-- ARG_CRC of the frame in slot `s`. -/
abbrev frameCrc (m : Mach) (s : Nat) : Nat := argCrc (pU (slotBytes m s 0 16) 0 2) (payload m s)

/-- An entry with one more resubmission counted in DUPS. -/
def dupCounted (e : JEntry) : JEntry := { e with dups := min (e.dups + 1) 255 }

section
variable {m : Mach} {s : Nat}

/-- A rival with the frame's ARG_CRC is answered DUPLICATE. -/
theorem judge_of_duplicate (tagged : frameTag m s ≠ 0) {e : JEntry}
    (found : (rivals m (frameCls m s) (frameTag m s)).find? (fun x => x.argCrc = frameCrc m s) = some e) :
    judge m s = writeResponse (recounted m e (dupCounted e)) s .duplicate e.seq (entryBytes (dupCounted e)) := by
  simp only [judge, if_neg tagged]
  rw [found]
  rfl

/-- Rivals of which none has the frame's ARG_CRC are answered TAG_CONFLICT with the first. -/
theorem judge_of_conflict (tagged : frameTag m s ≠ 0) {e : JEntry} {rest : List JEntry}
    (unmatched : (rivals m (frameCls m s) (frameTag m s)).find? (fun x => x.argCrc = frameCrc m s) = none)
    (first : rivals m (frameCls m s) (frameTag m s) = e :: rest) :
    judge m s = writeResponse m s .tagConflict e.seq [] := by
  rw [first] at unmatched
  simp only [judge, if_neg tagged]
  rw [first, unmatched]

/-- A frame without a tag or without rivals is a new command. -/
theorem judge_of_new (fresh : frameTag m s = 0 ∨ rivals m (frameCls m s) (frameTag m s) = []) :
    judge m s = if ringRoom m.mbx.ring then
        accept m s (pU (slotBytes m s 0 16) 0 2) (frameTag m s) (frameCls m s) (frameCrc m s)
      else refuseAt m s .busy := by
  have compared : (if frameTag m s = 0 then [] else rivals m (frameCls m s) (frameTag m s)) = [] := by
    rcases fresh with untagged | noRival
    · exact if_pos untagged
    · rw [noRival, ite_self]
  simp only [judge]
  rw [compared]
  rfl

end

/-! ### The obligation -/

/-- Settles O11: the frame is compared newest first, so each answer is about the first rival found. -/
theorem duplicateTags : Obligations.DuplicateTags := by
  intro m s h code tag cls crc rival
  have rival_iff (x : JEntry) : isRival cls tag x = true ↔ rival x := isRival_iff cls tag x
  have match_iff (x : JEntry) : (isRival cls tag x && decide (x.argCrc = crc)) = true ↔ rival x ∧ x.argCrc = crc := by
    rw [Bool.and_eq_true, rival_iff, decide_eq_true_eq]
  refine ⟨fun tagged old new e parts here same newest => ?duplicate,
    fun tagged unmatched old new e parts here newest => ?conflict, fun fresh => ?new⟩
  case duplicate =>
    refine judge_of_duplicate tagged ?_
    rw [find?_rivals]
    exact find?_reverse_newest parts ((match_iff e).mpr ⟨here, same⟩) fun x hx => mt (match_iff x).mp (newest x hx)
  case conflict =>
    obtain ⟨rest, first⟩ := rivals_eq_cons parts ((rival_iff e).mpr here) fun x hx => mt (rival_iff x).mp (newest x hx)
    refine judge_of_conflict tagged ?_ first
    rw [find?_rivals, List.find?_eq_none]
    exact fun x hx => mt (match_iff x).mp (unmatched x (List.mem_reverse.mp hx))
  case new =>
    exact judge_of_new (fresh.imp_right fun noRival => rivals_eq_nil fun x hx => mt (rival_iff x).mp (noRival x hx))

end Machine
end Sys2Proof
end

section
/-! The stores in order (chapters 16, 17): they are so after reset, every command keeps them so, and with them every step. -/
namespace Sys2Proof
namespace Machine

/-- Each row keeps the stores in order by the lemma of its meaning. -/
theorem exec_stores : ∀ (i : Instr) (s : State), storesWf s.m = true → outStores (exec i s)
  | .devInfoGet slot, s, h => execDevInfoGet_stores slot s h
  | .devCmdCapsGet slot, s, h => execDevCmdCapsGet_stores slot s h
  | .devEcho slot, s, h => execDevEcho_stores slot s h
  | .pwrStateSet slot, s, h => execPwrStateSet_stores slot s h
  | .pwrReset slot, s, h => execPwrReset_stores slot s h
  | .pwrStatGet slot, s, h => execPwrStatGet_stores slot s h
  | .pwrWakeCfg slot, s, h => execPwrWakeCfg_stores slot s h
  | .srcInputCfg slot, s, h => execSrcInputCfg_stores slot s h
  | .srcPathCfg slot, s, h => execSrcPathCfg_stores slot s h
  | .srcInputStatGet slot, s, h => execSrcInputStatGet_stores slot s h
  | .srcMpptScan slot, s, h => execSrcMpptScan_stores slot s h
  | .srcSysTargetSet slot, s, h => execSrcSysTargetSet_stores slot s h
  | .stoProfileSet slot, s, h => execStoProfileSet_stores slot s h
  | .stoTwinSet slot, s, h => execStoTwinSet_stores slot s h
  | .stoChgCtrl slot, s, h => execStoChgCtrl_stores slot s h
  | .stoChgStatGet slot, s, h => execStoChgStatGet_stores slot s h
  | .stoAuxCfg slot, s, h => execStoAuxCfg_stores slot s h
  | .lftCfg slot, s, h => execLftCfg_stores slot s h
  | .lftClassSet slot, s, h => execLftClassSet_stores slot s h
  | .lftBudgetGet slot, s, h => execLftBudgetGet_stores slot s h
  | .lftPassGet slot, s, h => execLftPassGet_stores slot s h
  | .prtCfg slot, s, h => execPrtCfg_stores slot s h
  | .prtStatGet slot, s, h => execPrtStatGet_stores slot s h
  | .prtMoistGet slot, s, h => execPrtMoistGet_stores slot s h
  | .prtMoistClear slot, s, h => execPrtMoistClear_stores slot s h
  | .prtWashdown slot, s, h => execPrtWashdown_stores slot s h
  | .prtUiCfg slot, s, h => execPrtUiCfg_stores slot s h
  | .prtUiEventGet slot, s, h => execPrtUiEventGet_stores slot s h
  | .prtLedSet slot, s, h => execPrtLedSet_stores slot s h
  | .pdSrcCfg slot, s, h => execPdSrcCfg_stores slot s h
  | .pdSnkCfg slot, s, h => execPdSnkCfg_stores slot s h
  | .pdStatGet slot, s, h => execPdStatGet_stores slot s h
  | .pdDrSwapReq slot, s, h => execPdDrSwapReq_stores slot s h
  | .pdReset slot, s, h => execPdReset_stores slot s h
  | .pdCoreStatGet slot, s, h => execPdCoreStatGet_stores slot s h
  | .pdMigrate slot, s, h => execPdMigrate_stores slot s h
  | .bayCfg slot, s, h => execBayCfg_stores slot s h
  | .bayKeySet slot, s, h => execBayKeySet_stores slot s h
  | .bayStatGet slot, s, h => execBayStatGet_stores slot s h
  | .bayRecordGet slot, s, h => execBayRecordGet_stores slot s h
  | .bayKeyGet slot, s, h => execBayKeyGet_stores slot s h
  | .bayRecordForget slot, s, h => execBayRecordForget_stores slot s h
  | .bayReauth slot, s, h => execBayReauth_stores slot s h
  | .estCfg slot, s, h => execEstCfg_stores slot s h
  | .estCtxGet slot, s, h => execEstCtxGet_stores slot s h
  | .estOcvSet slot, s, h => execEstOcvSet_stores slot s h
  | .estOcvGet slot, s, h => execEstOcvGet_stores slot s h
  | .estEisReq slot, s, h => execEstEisReq_stores slot s h
  | .estEisGet slot, s, h => execEstEisGet_stores slot s h
  | .estCtxSet slot, s, h => execEstCtxSet_stores slot s h
  | .estRestReq slot, s, h => execEstRestReq_stores slot s h
  | .thmCfg slot, s, h => execThmCfg_stores slot s h
  | .thmGroupsGet slot, s, h => execThmGroupsGet_stores slot s h
  | .thmSensorGet slot, s, h => execThmSensorGet_stores slot s h
  | .fltDetailGet slot, s, h => execFltDetailGet_stores slot s h
  | .fltClear slot, s, h => execFltClear_stores slot s h
  | .fltFence slot, s, h => execFltFence_stores slot s h
  | .bibHandover slot, s, h => execBibHandover_stores slot s h
  | .grdHoldCfg slot, s, h => execGrdHoldCfg_stores slot s h
  | .wdhCfgSet slot, s, h => execWdhCfgSet_stores slot s h
  | .wdsStatGet slot, s, h => execWdsStatGet_stores slot s h
  | .wdCountGet slot, s, h => execWdCountGet_stores slot s h
  | .nvmRead slot, s, h => execNvmRead_stores slot s h
  | .nvmWrite slot, s, h => execNvmWrite_stores slot s h
  | .nvmErase slot, s, h => execNvmErase_stores slot s h
  | .nvmCounterGet slot, s, h => execNvmCounterGet_stores slot s h
  | .nvmSave slot, s, h => execNvmSave_stores slot s h
  | .nvmPdwSet slot, s, h => execNvmPdwSet_stores slot s h
  | .jnlGet slot, s, h => execJnlGet_stores slot s h
  | .jnlFind slot, s, h => execJnlFind_stores slot s h
  | .updBegin slot, s, h => execUpdBegin_stores slot s h
  | .updData slot, s, h => execUpdData_stores slot s h
  | .updCommit slot, s, h => execUpdCommit_stores slot s h
  | .updAbort slot, s, h => execUpdAbort_stores slot s h
  | .updStatGet slot, s, h => execUpdStatGet_stores slot s h
  | .svcLinkArm slot, s, h => execSvcLinkArm_stores slot s h
  | .svcLinkStop slot, s, h => execSvcLinkStop_stores slot s h
  | .svcAuthChallenge slot, s, h => execSvcAuthChallenge_stores slot s h
  | .svcAuthResponse slot, s, h => execSvcAuthResponse_stores slot s h
  | .ptbUnlock slot, s, h => execPtbUnlock_stores slot s h
  | .ptbSet slot, s, h => execPtbSet_stores slot s h
  | .ptbClear slot, s, h => execPtbClear_stores slot s h
  | .svcStatGet slot, s, h => execSvcStatGet_stores slot s h
  | .cnvDeclare slot, s, h => execCnvDeclare_stores slot s h
  | .phsSelftest slot, s, h => execPhsSelftest_stores slot s h
  | .phsStatusGet slot, s, h => execPhsStatusGet_stores slot s h
  | .cnvLoopCfg slot, s, h => execCnvLoopCfg_stores slot s h
  | .cnvCoefWrite slot, s, h => execCnvCoefWrite_stores slot s h
  | .cnvSetMap slot, s, h => execCnvSetMap_stores slot s h
  | .cnvRefSet slot, s, h => execCnvRefSet_stores slot s h
  | .cnvSpecStatsGet slot, s, h => execCnvSpecStatsGet_stores slot s h
  | .cnvSpecResume slot, s, h => execCnvSpecResume_stores slot s h
  | .cnvProtCfg slot, s, h => execCnvProtCfg_stores slot s h
  | .cnvProtStatGet slot, s, h => execCnvProtStatGet_stores slot s h
  | .spiTransaction mosi tailBits, s, h => execSpiTransaction_stores mosi tailBits s h
  | .i2cTransaction segs, s, h => execI2cTransaction_stores segs s h
  | .wdhServe key, s, h => execWdhServe_stores key s h
  | .wdhDisableSequence key, s, h => execWdhDisableSequence_stores key s h
  | .wdhLockSet, s, h => execWdhLockSet_stores s h
  | .mbxDoorbell mask, s, h => execMbxDoorbell_stores mask s h
  | .mbxAck mask, s, h => execMbxAck_stores mask s h
  | .mbxSlotWrite addr word, s, h => execMbxSlotWrite_stores addr word s h
  | .causeClear block mask, s, h => execCauseClear_stores block mask s h
  | .registerWrite addr word, s, h => execRegisterWrite_stores addr word s h
  | .mbxServe, s, h => execMbxServe_stores s h
  | .commandOutcome seq result detail, s, h => execCommandOutcome_stores seq result detail s h
  | .internalEntryFlush, s, h => execInternalEntryFlush_stores s h
  | .por, s, h => execPor_stores s h
  | .bor vpreMv, s, h => execBor_stores vpreMv s h
  | .pinReset lowNs, s, h => execPinReset_stores lowNs s h
  | .pprAuto proc, s, h => execPprAuto_stores proc s h
  | .blkDone block, s, h => execBlkDone_stores block s h
  | .ferAuto die, s, h => execFerAuto_stores die s h
  | .ferDone die, s, h => execFerDone_stores die s h
  | .gdclkMissing, s, h => execGdclkMissing_stores s h
  | .resetPhaseEnd vstsMv, s, h => execResetPhaseEnd_stores vstsMv s h
  | .vpreGood vpreMv bootOnly, s, h => execVpreGood_stores vpreMv bootOnly s h
  | .vioGood, s, h => execVioGood_stores s h
  | .strapLatch hsel hadr dbp, s, h => execStrapLatch_stores hsel hadr dbp s h
  | .recallComplete, s, h => execRecallComplete_stores s h
  | .configApply, s, h => execConfigApply_stores s h
  | .holdCharged holdMv, s, h => execHoldCharged_stores holdMv s h
  | .storeStart vstsMv wake, s, h => execStoreStart_stores vstsMv wake s h
  | .powerDownWarning trigger mv hold, s, h => execPowerDownWarning_stores trigger mv hold s h
  | .saveComplete warningEnded, s, h => execSaveComplete_stores warningEnded s h
  | .saveRegionErase, s, h => execSaveRegionErase_stores s h
  | .checkpoint, s, h => execCheckpoint_stores s h
  | .nvmPageWriteDone ok1 ok2, s, h => execNvmPageWriteDone_stores ok1 ok2 s h
  | .learnedWriteDue ctx, s, h => execLearnedWriteDue_stores ctx s h
  | .xinReturn, s, h => execXinReturn_stores s h
  | .mclkLoss, s, h => execMclkLoss_stores s h
  | .clkLoss dom, s, h => execClkLoss_stores dom s h
  | .xinLoss, s, h => execXinLoss_stores s h
  | .estclkLoss, s, h => execEstclkLoss_stores s h
  | .dieLinkLoss die, s, h => execDieLinkLoss_stores die s h
  | .linkGlitch die, s, h => execLinkGlitch_stores die s h
  | .feHeartbeatLoss die, s, h => execFeHeartbeatLoss_stores die s h
  | .feWRejoin, s, h => execFeWRejoin_stores s h
  | .periodBoundary conv, s, h => execPeriodBoundary_stores conv s h
  | .speculation conv early, s, h => execSpeculation_stores conv early s h
  | .resolve conv y, s, h => execResolve_stores conv y s h
  | .shadowLoad conv, s, h => execShadowLoad_stores conv s h
  | .recovery conv, s, h => execRecovery_stores conv s h
  | .ctrlStarved conv, s, h => execCtrlStarved_stores conv s h
  | .specSuspend, s, h => execSpecSuspend_stores s h
  | .modeChange conv, s, h => execModeChange_stores conv s h
  | .peakTrip conv hit, s, h => execPeakTrip_stores conv hit s h
  | .senseSplit conv phase aMa bMa, s, h => execSenseSplit_stores conv phase aMa bMa s h
  | .tmonOpen group mv, s, h => execTmonOpen_stores group mv s h
  | .stageFault group mv, s, h => execStageFault_stores group mv s h
  | .stageIdentify group found, s, h => execStageIdentify_stores group found s h
  | .phaseParkEnd group mv, s, h => execPhaseParkEnd_stores group mv s h
  | .phaseSelftest conv phase meas, s, h => execPhaseSelftest_stores conv phase meas s h
  | .selftestDone conv, s, h => execSelftestDone_stores conv s h
  | .selftestDeferredRun input vinMv, s, h => execSelftestDeferredRun_stores input vinMv s h
  | .imonZeroCheck conv phase zeroA zeroB, s, h => execImonZeroCheck_stores conv phase zeroA zeroB s h
  | .adcRotation, s, h => execAdcRotation_stores s h
  | .adcHandover disagree leavingErr standinErr, s, h => execAdcHandover_stores disagree leavingErr standinErr s h
  | .adcCalDone pass, s, h => execAdcCalDone_stores pass s h
  | .housekeepingRound round, s, h => execHousekeepingRound_stores round s h
  | .prebiasCheck conv meas, s, h => execPrebiasCheck_stores conv meas s h
  | .prebiasRetry conv meas, s, h => execPrebiasRetry_stores conv meas s h
  | .backdriveClear port vbsMv, s, h => execBackdriveClear_stores port vbsMv s h
  | .shortDetect conv sampleMv limPermille ccOpen, s, h => execShortDetect_stores conv sampleMv limPermille ccOpen s h
  | .hiccupRetry conv, s, h => execHiccupRetry_stores conv s h
  | .hiccupCountReset conv, s, h => execHiccupCountReset_stores conv s h
  | .ovDetect conv sampleMv ccOpen, s, h => execOvDetect_stores conv sampleMv ccOpen s h
  | .uvDetect conv sampleMv limPermille ms, s, h => execUvDetect_stores conv sampleMv limPermille ms s h
  | .phaseOpen conv legAMa legBMa valleyMa periods, s, h => execPhaseOpen_stores conv legAMa legBMa valleyMa periods s h
  | .senseRail conv phase imonMv, s, h => execSenseRail_stores conv phase imonMv s h
  | .senseRipple conv phase valleyMa midMa, s, h => execSenseRipple_stores conv phase valleyMa midMa s h
  | .derateEnd port, s, h => execDerateEnd_stores port s h
  | .bfetModeEval vstsMv, s, h => execBfetModeEval_stores vstsMv s h
  | .bfetTransitionDone, s, h => execBfetTransitionDone_stores s h
  | .reverseComparator storeMa, s, h => execReverseComparator_stores storeMa s h
  | .linearUpdate sysMv vstsMv storeMa, s, h => execLinearUpdate_stores sysMv vstsMv storeMa s h
  | .linOverload sysMv vstsMv storeMa, s, h => execLinOverload_stores sysMv vstsMv storeMa s h
  | .inputPresent input vinMv, s, h => execInputPresent_stores input vinMv s h
  | .inputAbsent input vinMv, s, h => execInputAbsent_stores input vinMv s h
  | .inOv input vinMv, s, h => execInOv_stores input vinMv s h
  | .inOvRecover input vinMv, s, h => execInOvRecover_stores input vinMv s h
  | .inputReverse input iinMa, s, h => execInputReverse_stores input iinMa s h
  | .inputReverseRestart input, s, h => execInputReverseRestart_stores input s h
  | .vehicleSystemDetect input vinMv, s, h => execVehicleSystemDetect_stores input vinMv s h
  | .vehiclePark input vinMv, s, h => execVehiclePark_stores input vinMv s h
  | .vehicleUnpark input vinMv, s, h => execVehicleUnpark_stores input vinMv s h
  | .donorLimitUpdate loadsMa inputsMa, s, h => execDonorLimitUpdate_stores loadsMa inputsMa s h
  | .donorWithdraw port, s, h => execDonorWithdraw_stores port s h
  | .mpptStep input powerMw foldPermille, s, h => execMpptStep_stores input powerMw foldPermille s h
  | .mpptScan input, s, h => execMpptScan_stores input s h
  | .mpptScanEnd input vocMv, s, h => execMpptScanEnd_stores input vocMv s h
  | .sysLow sysMv, s, h => execSysLow_stores sysMv s h
  | .sysRecover sysMv, s, h => execSysRecover_stores sysMv s h
  | .cableBoot port vbusMv rp, s, h => execCableBoot_stores port vbusMv rp s h
  | .bootCapsTimeout port, s, h => execBootCapsTimeout_stores port s h
  | .bootSinkLoss port sysMv vbootMv hold, s, h => execBootSinkLoss_stores port sysMv vbootMv hold s h
  | .storeRemoval detector sysMv vstsMv meanSysMv storeMa, s, h => execStoreRemoval_stores detector sysMv vstsMv meanSysMv storeMa s h
  | .storeAccept vstsMv, s, h => execStoreAccept_stores vstsMv s h
  | .chgEval m vMv iMa, s, h => execChgEval_stores m vMv iMa s h
  | .vChgUpdate m dMv, s, h => execVChgUpdate_stores m dMv s h
  | .chgTimerSecond m noFeeder feederIsrcFold iMa vMv, s, h => execChgTimerSecond_stores m noFeeder feederIsrcFold iMa vMv s h
  | .chgTimerExpire m, s, h => execChgTimerExpire_stores m s h
  | .chgOc m iMa, s, h => execChgOc_stores m iMa s h
  | .chgOcPersist m iMa, s, h => execChgOcPersist_stores m iMa s h
  | .cellOv m cellMv, s, h => execCellOv_stores m cellMv s h
  | .cutoff cellMv feederBefore feederDuring hold, s, h => execCutoff_stores cellMv feederBefore feederDuring hold s h
  | .dsgOc iMa, s, h => execDsgOc_stores iMa s h
  | .auxPolicyChange, s, h => execAuxPolicyChange_stores s h
  | .auxHoldExpire, s, h => execAuxHoldExpire_stores s h
  | .liftCycle published, s, h => execLiftCycle_stores published s h
  | .passRequest holder mw, s, h => execPassRequest_stores holder mw s h
  | .grantDelivery holder, s, h => execGrantDelivery_stores holder s h
  | .passExcess port mw, s, h => execPassExcess_stores port mw s h
  | .reclaimHardReset port, s, h => execReclaimHardReset_stores port s h
  | .restGrantEnd sLow, s, h => execRestGrantEnd_stores sLow s h
  | .eisGrantEnd m, s, h => execEisGrantEnd_stores m s h
  | .rdDetect port cc ra, s, h => execRdDetect_stores port cc ra s h
  | .ccDebounce port, s, h => execCcDebounce_stores port s h
  | .attachedSrc port, s, h => execAttachedSrc_stores port s h
  | .sourceDetach port, s, h => execSourceDetach_stores port s h
  | .sinkDetach port vbsMv rpAbsent, s, h => execSinkDetach_stores port vbsMv rpAbsent s h
  | .sinkAttach port cc rp, s, h => execSinkAttach_stores port cc rp s h
  | .drpToggle port, s, h => execDrpToggle_stores port s h
  | .tryTimeout port, s, h => execTryTimeout_stores port s h
  | .errorRecoveryEnd port, s, h => execErrorRecoveryEnd_stores port s h
  | .accessoryDetect port present, s, h => execAccessoryDetect_stores port present s h
  | .vconnOc port ma atLimit, s, h => execVconnOc_stores port ma atLimit s h
  | .moistureCheck port, s, h => execMoistureCheck_stores port s h
  | .moistureCheckDone port pins, s, h => execMoistureCheckDone_stores port pins s h
  | .washdownAutoExit, s, h => execWashdownAutoExit_stores s h
  | .ccOvervoltage port pin mv, s, h => execCcOvervoltage_stores port pin mv s h
  | .ccPinReconnect port pin mv, s, h => execCcPinReconnect_stores port pin mv s h
  | .uiFrame caps, s, h => execUiFrame_stores caps s h
  | .holdReached port, s, h => execHoldReached_stores port s h
  | .longHoldReached port, s, h => execLongHoldReached_stores port s h
  | .stuck port, s, h => execStuck_stores port s h
  | .serviceWindowEnd port, s, h => execServiceWindowEnd_stores port s h
  | .baselineReseed port cap, s, h => execBaselineReseed_stores port cap s h
  | .armExpire, s, h => execArmExpire_stores s h
  | .pdSourceCapabilitiesRx port objs epr eprCapable rev2, s, h => execPdSourceCapabilitiesRx_stores port objs epr eprCapable rev2 s h
  | .pdRequestRx port req, s, h => execPdRequestRx_stores port req s h
  | .pdAcceptRx port sameRole, s, h => execPdAcceptRx_stores port sameRole s h
  | .pdRejectRx port wait, s, h => execPdRejectRx_stores port wait s h
  | .pdPsRdyRx port, s, h => execPdPsRdyRx_stores port s h
  | .pdSoftResetRx port, s, h => execPdSoftResetRx_stores port s h
  | .pdHardReset port sent, s, h => execPdHardReset_stores port sent s h
  | .pdDrSwapRx port, s, h => execPdDrSwapRx_stores port s h
  | .pdEprModeRx port enter, s, h => execPdEprModeRx_stores port enter s h
  | .pdEprKeepaliveRx port, s, h => execPdEprKeepaliveRx_stores port s h
  | .pdGetCapRx port sinkCap epr, s, h => execPdGetCapRx_stores port sinkCap epr s h
  | .pdInfoQueryRx port q, s, h => execPdInfoQueryRx_stores port q s h
  | .pdUnsupportedRx port, s, h => execPdUnsupportedRx_stores port s h
  | .pdAlertRx port bits, s, h => execPdAlertRx_stores port bits s h
  | .pdVendorDefinedRx port discoverIdentity, s, h => execPdVendorDefinedRx_stores port discoverIdentity s h
  | .pdCableIdentityRx port ma vmaxMv eprCable, s, h => execPdCableIdentityRx_stores port ma vmaxMv eprCable s h
  | .pdBistRx port mode vbusMv, s, h => execPdBistRx_stores port mode vbusMv s h
  | .pdRetransmit port, s, h => execPdRetransmit_stores port s h
  | .pdTxFail port, s, h => execPdTxFail_stores port s h
  | .senderResponseTimeout port, s, h => execSenderResponseTimeout_stores port s h
  | .psTransitionTimeout port, s, h => execPsTransitionTimeout_stores port s h
  | .srcTransitionStart port, s, h => execSrcTransitionStart_stores port s h
  | .transitionSettled port vcsMv, s, h => execTransitionSettled_stores port vcsMv s h
  | .sendSourceCap port, s, h => execSendSourceCap_stores port s h
  | .noResponseTimeout port, s, h => execNoResponseTimeout_stores port s h
  | .sinkEprKeepalive port, s, h => execSinkEprKeepalive_stores port s h
  | .ppsRequestRepeat port, s, h => execPpsRequestRepeat_stores port s h
  | .sourceEprKeepaliveTimeout port, s, h => execSourceEprKeepaliveTimeout_stores port s h
  | .ppsTimeout port, s, h => execPpsTimeout_stores port s h
  | .discoverIdentityRetry port, s, h => execDiscoverIdentityRetry_stores port s h
  | .hardResetStop port, s, h => execHardResetStop_stores port s h
  | .srcRecover port, s, h => execSrcRecover_stores port s h
  | .ppsUndervoltage port vcsMv, s, h => execPpsUndervoltage_stores port vcsMv s h
  | .pdMigration port, s, h => execPdMigration_stores port s h
  | .migrationAbandon port, s, h => execMigrationAbandon_stores port s h
  | .pdCoreFence core, s, h => execPdCoreFence_stores core s h
  | .bayIdRead port cc1Mv, s, h => execBayIdRead_stores port cc1Mv s h
  | .packInsert port, s, h => execPackInsert_stores port s h
  | .packRemoval port detector vbsMv iMa, s, h => execPackRemoval_stores port detector vbsMv iMa s h
  | .bayLinkReply port type payload crcOk, s, h => execBayLinkReply_stores port type payload crcOk s h
  | .bayReplyTimeout port, s, h => execBayReplyTimeout_stores port s h
  | .authVerdict port, s, h => execAuthVerdict_stores port s h
  | .authRetry port, s, h => execAuthRetry_stores port s h
  | .bayStatusPoll port, s, h => execBayStatusPoll_stores port s h
  | .trickleRetry port, s, h => execTrickleRetry_stores port s h
  | .trickleExpire port, s, h => execTrickleExpire_stores port s h
  | .bayStart port vcsMv vbsMv, s, h => execBayStart_stores port vcsMv vbsMv s h
  | .bayDoneRead port vbsMv, s, h => execBayDoneRead_stores port vbsMv s h
  | .proofingPause port, s, h => execProofingPause_stores port s h
  | .proofingPauseEnd port, s, h => execProofingPauseEnd_stores port s h
  | .keyRevokeReauth port, s, h => execKeyRevokeReauth_stores port s h
  | .socCount obs, s, h => execSocCount_stores obs s h
  | .noAnchor ctx, s, h => execNoAnchor_stores ctx s h
  | .ekfStep obs, s, h => execEkfStep_stores obs s h
  | .filterReset ctx, s, h => execFilterReset_stores ctx s h
  | .stale ctx, s, h => execStale_stores ctx s h
  | .restRequest, s, h => execRestRequest_stores s h
  | .relaxFit ctx, s, h => execRelaxFit_stores ctx s h
  | .eisRun m, s, h => execEisRun_stores m s h
  | .eisFrequencyDone m meas ampMa dropPermille, s, h => execEisFrequencyDone_stores m meas ampMa dropPermille s h
  | .eisAbort m, s, h => execEisAbort_stores m s h
  | .eisDue ctx, s, h => execEisDue_stores ctx s h
  | .thmSample sensor t, s, h => execThmSample_stores sensor t s h
  | .laneChange sensor, s, h => execLaneChange_stores sensor s h
  | .hover sensor level, s, h => execHover_stores sensor level s h
  | .thmCapLift scope, s, h => execThmCapLift_stores scope s h
  | .pulseSkipEntry conv ma, s, h => execPulseSkipEntry_stores conv ma s h
  | .pulseSkipExit conv ma, s, h => execPulseSkipExit_stores conv ma s h
  | .tsd sensor, s, h => execTsd_stores sensor s h
  | .tsdRelease, s, h => execTsdRelease_stores s h
  | .tsdRestart, s, h => execTsdRestart_stores s h
  | .hwOv conv mv1 mv2, s, h => execHwOv_stores conv mv1 mv2 s h
  | .sysCrit sysMv, s, h => execSysCrit_stores sysMv s h
  | .sysCritRecover sysMv, s, h => execSysCritRecover_stores sysMv s h
  | .sysUv1 sysMv, s, h => execSysUv1_stores sysMv s h
  | .windowEnd origin, s, h => execWindowEnd_stores origin s h
  | .controlPlaneWrite proc w, s, h => execControlPlaneWrite_stores proc w s h
  | .failover cause, s, h => execFailover_stores cause s h
  | .haltAck, s, h => execHaltAck_stores s h
  | .haltTimeout, s, h => execHaltTimeout_stores s h
  | .handoverOwnerMove, s, h => execHandoverOwnerMove_stores s h
  | .syncSet proc, s, h => execSyncSet_stores proc s h
  | .holdTimeExpire, s, h => execHoldTimeExpire_stores s h
  | .holdParkStep, s, h => execHoldParkStep_stores s h
  | .wdhExpiry, s, h => execWdhExpiry_stores s h
  | .hostrstPulseEnd, s, h => execHostrstPulseEnd_stores s h
  | .wdsCheckin proc supervisor word, s, h => execWdsCheckin_stores proc supervisor word s h
  | .wdsPeriodEnd, s, h => execWdsPeriodEnd_stores s h
  | .wdsEnable, s, h => execWdsEnable_stores s h
  | .wdTotalRaise, s, h => execWdTotalRaise_stores s h
  | .quietAuto, s, h => execQuietAuto_stores s h
  | .quietExit, s, h => execQuietExit_stores s h
  | .standbyWake source, s, h => execStandbyWake_stores source s h
  | .wakeTimer, s, h => execWakeTimer_stores s h
  | .standbyCountSample storeMa, s, h => execStandbyCountSample_stores storeMa s h
  | .updVerifyDone, s, h => execUpdVerifyDone_stores s h
  | .updSyncTimeout, s, h => execUpdSyncTimeout_stores s h
  | .updProbationEnd, s, h => execUpdProbationEnd_stores s h
  | .updPointerWrite, s, h => execUpdPointerWrite_stores s h
  | .pdUpdCoreStep, s, h => execPdUpdCoreStep_stores s h
  | .pdUpdProbationEnd, s, h => execPdUpdProbationEnd_stores s h
  | .estUcodeSwap, s, h => execEstUcodeSwap_stores s h
  | .estUcodeProbationEnd, s, h => execEstUcodeProbationEnd_stores s h
  | .limitsPrepare, s, h => execLimitsPrepare_stores s h
  | .limitsCommit, s, h => execLimitsCommit_stores s h
  | .tmonMaskExpire group, s, h => execTmonMaskExpire_stores group s h
  | .stavskaLinkStart port, s, h => execStavskaLinkStart_stores port s h
  | .stavskaSwapRetry port, s, h => execStavskaSwapRetry_stores port s h
  | .stavskaNoPd port, s, h => execStavskaNoPd_stores port s h
  | .usbSetConfiguration, s, h => execUsbSetConfiguration_stores s h
  | .enumTimeout, s, h => execEnumTimeout_stores s h
  | .stavskaFrame bytes, s, h => execStavskaFrame_stores bytes s h
  | .stavskaFrameTimeout, s, h => execStavskaFrameTimeout_stores s h
  | .stavskaIdle, s, h => execStavskaIdle_stores s h
  | .stavskaLinkEnd reason, s, h => execStavskaLinkEnd_stores reason s h
  | .nonceExpire, s, h => execNonceExpire_stores s h
  | .authLockoutEnd, s, h => execAuthLockoutEnd_stores s h
  | .ptbUnlockExpire, s, h => execPtbUnlockExpire_stores s h
  | .ptbTtlExpire id, s, h => execPtbTtlExpire_stores id s h
  | .jtagInstruction opcode, s, h => execJtagInstruction_stores opcode s h
  | .tapReset, s, h => execTapReset_stores s h
  | .aonclkLoss, s, h => execAonclkLoss_stores s h
  | .usbclkLoss, s, h => execUsbclkLoss_stores s h
  | .shipInputWake input volts, s, h => execShipInputWake_stores input volts s h
  | .pdSinkCapabilitiesRx port objs, s, h => execPdSinkCapabilitiesRx_stores port objs s h
  | .sinkHardReset port, s, h => execSinkHardReset_stores port s h
  | .sinkVbusRestored port vbsMv, s, h => execSinkVbusRestored_stores port vbsMv s h
  | .sinkRpChange port txOk, s, h => execSinkRpChange_stores port txOk s h
  | .cableResetRx port, s, h => execCableResetRx_stores port s h
  | .cellTapFastLane taps, s, h => execCellTapFastLane_stores taps s h

/-- A step runs a command on the stores as they are, or lets a cycle pass over them. -/
theorem step_stores (s : State) (h : storesWf s.m = true) : outStores (step s) := by
  obtain ⟨queue, m⟩ := s
  cases queue with
  | nil => exact next_stores _ _ (advance_stores m 5 h)
  | cons c rest => exact exec_stores c ⟨rest, m⟩ h

/-! ### The obligations -/

/-- Settles O4: the mailboxes, the retention memory and the queue are empty after reset. -/
theorem resetIsInOrder : Obligations.ResetIsInOrder :=
  ⟨rfl, nofun, rfl⟩

/-- Settles O7: the invariant of the stores, kept by each step. -/
theorem storesStayInOrder : Obligations.StoresStayInOrder :=
  fun s t h stepped => step_stores s h t stepped

/-- Settles O1, by the definition of a step. -/
theorem stepRunsFrontCommand : Obligations.StepRunsFrontCommand :=
  fun _ _ _ => rfl

/-- Settles O2: a step with an empty queue is `tick`, which is `advance` by 5 ns. -/
theorem idleStepPassesOneCycle : Obligations.IdleStepPassesOneCycle :=
  fun m => ⟨rfl, rfl, rfl, advance_frame m 5⟩

end Machine
end Sys2Proof
end

section
/-! What a command comes to (R524, log entries 2 and 103): each row completes, leaves the state as it was, or stops by its ratings
exactly as its operands are judged; so a queue of legal commands never stops the machine. -/
namespace Sys2Proof
namespace Machine

/-- What `c.judge` says of a command, the outcome of running it does. -/
structure RunsAs (j : Judged) (s : State) (o : Host.Outcome State Fault Refusal) : Prop where
  legal : j = .legal → ∃ m, o = .next ⟨s.pending, m⟩
  noUnit : j = .noUnit → o = .next s
  unrated : j = .unrated → o = .fault .beyondRatings

theorem next_runsAs (s : State) (m : Mach) : RunsAs .legal s (next s m) where
  legal _ := ⟨m, rfl⟩
  noUnit h := nomatch h
  unrated h := nomatch h

theorem guardUnit_runsAs {j : Judged} {ok : Bool} {s : State} {f : Mach → Mach} (h : j = judged ok true) :
    RunsAs j s (guardUnit ok s f) := by
  subst h
  cases ok
  · exact ⟨nofun, fun _ => rfl, nofun⟩
  · exact next_runsAs s (f s.m)

theorem guardRead_runsAs {j : Judged} {ok rated : Bool} {s : State} {f : Mach → Mach} (h : j = judged ok rated) :
    RunsAs j s (guardRead ok rated s f) := by
  subst h
  cases rated
  · exact ⟨nofun, nofun, fun _ => rfl⟩
  · exact guardUnit_runsAs (by rfl)

/-- The blocks of R483 are those with a time of their own reset. -/
theorem namesReset_eq (b : Nat) : namesReset b = (blkResetNs b).isSome := by
  simp only [namesReset, blkResetNs, blkEst, blkUsb, blkUi, blkPtb]
  grind

/-- Every row is guarded by the units, and where it takes a reading by the ratings, that `judge` names. -/
theorem exec_runsAs : ∀ (i : Instr) (s : State), RunsAs i.judge s (exec i s)
  | .devInfoGet _, _ => guardUnit_runsAs (by rfl)
  | .devCmdCapsGet _, _ => guardUnit_runsAs (by rfl)
  | .devEcho _, _ => guardUnit_runsAs (by rfl)
  | .pwrStateSet slot, s => show RunsAs _ s (execPwrStateSet slot s) from guardUnit_runsAs (by rfl)
  | .pwrReset slot, s => show RunsAs _ s (execPwrReset slot s) from guardUnit_runsAs (by rfl)
  | .pwrStatGet _, _ => guardUnit_runsAs (by rfl)
  | .pwrWakeCfg _, _ => guardUnit_runsAs (by rfl)
  | .srcInputCfg _, _ => guardUnit_runsAs (by rfl)
  | .srcPathCfg _, _ => guardUnit_runsAs (by rfl)
  | .srcInputStatGet _, _ => guardUnit_runsAs (by rfl)
  | .srcMpptScan _, _ => guardUnit_runsAs (by rfl)
  | .srcSysTargetSet _, _ => guardUnit_runsAs (by rfl)
  | .stoProfileSet _, _ => guardUnit_runsAs (by rfl)
  | .stoTwinSet _, _ => guardUnit_runsAs (by rfl)
  | .stoChgCtrl _, _ => guardUnit_runsAs (by rfl)
  | .stoChgStatGet _, _ => guardUnit_runsAs (by rfl)
  | .stoAuxCfg _, _ => guardUnit_runsAs (by rfl)
  | .lftCfg _, _ => guardUnit_runsAs (by rfl)
  | .lftClassSet _, _ => guardUnit_runsAs (by rfl)
  | .lftBudgetGet _, _ => guardUnit_runsAs (by rfl)
  | .lftPassGet _, _ => guardUnit_runsAs (by rfl)
  | .prtCfg _, _ => guardUnit_runsAs (by rfl)
  | .prtStatGet _, _ => guardUnit_runsAs (by rfl)
  | .prtMoistGet _, _ => guardUnit_runsAs (by rfl)
  | .prtMoistClear _, _ => guardUnit_runsAs (by rfl)
  | .prtWashdown _, _ => guardUnit_runsAs (by rfl)
  | .prtUiCfg _, _ => guardUnit_runsAs (by rfl)
  | .prtUiEventGet _, _ => guardUnit_runsAs (by rfl)
  | .prtLedSet _, _ => guardUnit_runsAs (by rfl)
  | .pdSrcCfg _, _ => guardUnit_runsAs (by rfl)
  | .pdSnkCfg _, _ => guardUnit_runsAs (by rfl)
  | .pdStatGet _, _ => guardUnit_runsAs (by rfl)
  | .pdDrSwapReq _, _ => guardUnit_runsAs (by rfl)
  | .pdReset _, _ => guardUnit_runsAs (by rfl)
  | .pdCoreStatGet _, _ => guardUnit_runsAs (by rfl)
  | .pdMigrate _, _ => guardUnit_runsAs (by rfl)
  | .bayCfg _, _ => guardUnit_runsAs (by rfl)
  | .bayKeySet _, _ => guardUnit_runsAs (by rfl)
  | .bayStatGet _, _ => guardUnit_runsAs (by rfl)
  | .bayRecordGet _, _ => guardUnit_runsAs (by rfl)
  | .bayKeyGet _, _ => guardUnit_runsAs (by rfl)
  | .bayRecordForget _, _ => guardUnit_runsAs (by rfl)
  | .bayReauth _, _ => guardUnit_runsAs (by rfl)
  | .estCfg _, _ => guardUnit_runsAs (by rfl)
  | .estCtxGet _, _ => guardUnit_runsAs (by rfl)
  | .estOcvSet _, _ => guardUnit_runsAs (by rfl)
  | .estOcvGet _, _ => guardUnit_runsAs (by rfl)
  | .estEisReq _, _ => guardUnit_runsAs (by rfl)
  | .estEisGet _, _ => guardUnit_runsAs (by rfl)
  | .estCtxSet _, _ => guardUnit_runsAs (by rfl)
  | .estRestReq _, _ => guardUnit_runsAs (by rfl)
  | .thmCfg _, _ => guardUnit_runsAs (by rfl)
  | .thmGroupsGet _, _ => guardUnit_runsAs (by rfl)
  | .thmSensorGet _, _ => guardUnit_runsAs (by rfl)
  | .fltDetailGet _, _ => guardUnit_runsAs (by rfl)
  | .fltClear _, _ => guardUnit_runsAs (by rfl)
  | .fltFence _, _ => guardUnit_runsAs (by rfl)
  | .bibHandover _, _ => guardUnit_runsAs (by rfl)
  | .grdHoldCfg _, _ => guardUnit_runsAs (by rfl)
  | .wdhCfgSet _, _ => guardUnit_runsAs (by rfl)
  | .wdsStatGet _, _ => guardUnit_runsAs (by rfl)
  | .wdCountGet _, _ => guardUnit_runsAs (by rfl)
  | .nvmRead _, _ => guardUnit_runsAs (by rfl)
  | .nvmWrite _, _ => guardUnit_runsAs (by rfl)
  | .nvmErase _, _ => guardUnit_runsAs (by rfl)
  | .nvmCounterGet _, _ => guardUnit_runsAs (by rfl)
  | .nvmSave _, _ => guardUnit_runsAs (by rfl)
  | .nvmPdwSet _, _ => guardUnit_runsAs (by rfl)
  | .jnlGet _, _ => guardUnit_runsAs (by rfl)
  | .jnlFind _, _ => guardUnit_runsAs (by rfl)
  | .updBegin _, _ => guardUnit_runsAs (by rfl)
  | .updData _, _ => guardUnit_runsAs (by rfl)
  | .updCommit _, _ => guardUnit_runsAs (by rfl)
  | .updAbort _, _ => guardUnit_runsAs (by rfl)
  | .updStatGet _, _ => guardUnit_runsAs (by rfl)
  | .svcLinkArm _, _ => guardUnit_runsAs (by rfl)
  | .svcLinkStop _, _ => guardUnit_runsAs (by rfl)
  | .svcAuthChallenge _, _ => guardUnit_runsAs (by rfl)
  | .svcAuthResponse _, _ => guardUnit_runsAs (by rfl)
  | .ptbUnlock _, _ => guardUnit_runsAs (by rfl)
  | .ptbSet _, _ => guardUnit_runsAs (by rfl)
  | .ptbClear _, _ => guardUnit_runsAs (by rfl)
  | .svcStatGet _, _ => guardUnit_runsAs (by rfl)
  | .cnvDeclare _, _ => guardUnit_runsAs (by rfl)
  | .phsSelftest _, _ => guardUnit_runsAs (by rfl)
  | .phsStatusGet _, _ => guardUnit_runsAs (by rfl)
  | .cnvLoopCfg _, _ => guardUnit_runsAs (by rfl)
  | .cnvCoefWrite _, _ => guardUnit_runsAs (by rfl)
  | .cnvSetMap _, _ => guardUnit_runsAs (by rfl)
  | .cnvRefSet _, _ => guardUnit_runsAs (by rfl)
  | .cnvSpecStatsGet _, _ => guardUnit_runsAs (by rfl)
  | .cnvSpecResume _, _ => guardUnit_runsAs (by rfl)
  | .cnvProtCfg _, _ => guardUnit_runsAs (by rfl)
  | .cnvProtStatGet _, _ => guardUnit_runsAs (by rfl)
  | .spiTransaction _ _, _ => guardUnit_runsAs (by rfl)
  | .i2cTransaction _, _ => guardUnit_runsAs (by rfl)
  | .wdhServe key, s => show RunsAs _ s (execWdhServe key s) from guardUnit_runsAs (by rfl)
  | .wdhDisableSequence key, s => show RunsAs _ s (execWdhDisableSequence key s) from guardUnit_runsAs (by rfl)
  | .wdhLockSet, s => next_runsAs s _
  | .mbxDoorbell mask, s => show RunsAs _ s (execMbxDoorbell mask s) from guardUnit_runsAs (by rfl)
  | .mbxAck mask, s => show RunsAs _ s (execMbxAck mask s) from guardUnit_runsAs (by rfl)
  | .mbxSlotWrite addr word, s => show RunsAs _ s (execMbxSlotWrite addr word s) from guardUnit_runsAs (by rfl)
  | .causeClear block mask, s => show RunsAs _ s (execCauseClear block mask s) from guardUnit_runsAs (by rfl)
  | .registerWrite addr word, s => show RunsAs _ s (execRegisterWrite addr word s) from guardUnit_runsAs (by rfl)
  | .mbxServe, s => next_runsAs s _
  | .commandOutcome seq result detail, s => show RunsAs _ s (execCommandOutcome seq result detail s) from guardUnit_runsAs (by rfl)
  | .internalEntryFlush, s => next_runsAs s _
  | .por, s => next_runsAs s _
  | .bor _, s => next_runsAs s _
  | .pinReset _, s => next_runsAs s _
  | .pprAuto proc, s => show RunsAs _ s (execPprAuto proc s) from guardUnit_runsAs (by rfl)
  | .blkDone block, s => show RunsAs _ s (execBlkDone block s) from guardUnit_runsAs (by rw [← namesReset_eq]; rfl)
  | .ferAuto die, s => show RunsAs _ s (execFerAuto die s) from guardUnit_runsAs (by rfl)
  | .ferDone die, s => show RunsAs _ s (execFerDone die s) from guardUnit_runsAs (by rfl)
  | .gdclkMissing, s => next_runsAs s _
  | .resetPhaseEnd _, _ => guardRead_runsAs (by rfl)
  | .vpreGood _ _, s => next_runsAs s _
  | .vioGood, s => next_runsAs s _
  | .strapLatch _ _ _, _ => guardUnit_runsAs (by rfl)
  | .recallComplete, s => next_runsAs s _
  | .configApply, s => next_runsAs s _
  | .holdCharged _, s => next_runsAs s _
  | .storeStart _ _, _ => guardRead_runsAs (by rfl)
  | .powerDownWarning trigger mv hold, s => show RunsAs _ s (execPowerDownWarning trigger mv hold s) from guardUnit_runsAs (by rfl)
  | .saveComplete _, s => next_runsAs s _
  | .saveRegionErase, s => next_runsAs s _
  | .checkpoint, s => next_runsAs s _
  | .nvmPageWriteDone _ _, s => next_runsAs s _
  | .learnedWriteDue _, _ => guardUnit_runsAs (by rfl)
  | .xinReturn, s => next_runsAs s _
  | .mclkLoss, s => next_runsAs s _
  | .clkLoss _, _ => guardUnit_runsAs (by rfl)
  | .xinLoss, s => next_runsAs s _
  | .estclkLoss, s => next_runsAs s _
  | .dieLinkLoss _, _ => guardUnit_runsAs (by rfl)
  | .linkGlitch die, s => show RunsAs _ s (execLinkGlitch die s) from guardUnit_runsAs (by rfl)
  | .feHeartbeatLoss die, s => show RunsAs _ s (execFeHeartbeatLoss die s) from guardUnit_runsAs (by rfl)
  | .feWRejoin, s => next_runsAs s _
  | .periodBoundary _, _ => guardUnit_runsAs (by rfl)
  | .speculation _ _, _ => guardUnit_runsAs (by rfl)
  | .resolve _ _, _ => guardUnit_runsAs (by rfl)
  | .shadowLoad _, _ => guardUnit_runsAs (by rfl)
  | .recovery _, _ => guardUnit_runsAs (by rfl)
  | .ctrlStarved _, _ => guardUnit_runsAs (by rfl)
  | .specSuspend, s => next_runsAs s _
  | .modeChange _, _ => guardUnit_runsAs (by rfl)
  | .peakTrip _ _, _ => guardUnit_runsAs (by rfl)
  | .senseSplit _ _ _ _, _ => guardUnit_runsAs (by rfl)
  | .tmonOpen _ _, _ => guardUnit_runsAs (by rfl)
  | .stageFault _ _, _ => guardUnit_runsAs (by rfl)
  | .stageIdentify _ _, _ => guardUnit_runsAs (by rfl)
  | .phaseParkEnd group mv, s => show RunsAs _ s (execPhaseParkEnd group mv s) from guardUnit_runsAs (by rfl)
  | .phaseSelftest _ _ _, _ => guardUnit_runsAs (by rfl)
  | .selftestDone _, _ => guardUnit_runsAs (by rfl)
  | .selftestDeferredRun _ _, _ => guardRead_runsAs (by rfl)
  | .imonZeroCheck _ _ _ _, _ => guardUnit_runsAs (by rfl)
  | .adcRotation, s => next_runsAs s _
  | .adcHandover _ _ _, s => next_runsAs s _
  | .adcCalDone _, s => next_runsAs s _
  | .housekeepingRound _, _ => guardRead_runsAs (by rfl)
  | .prebiasCheck _ _, _ => guardRead_runsAs (by rfl)
  | .prebiasRetry _ _, _ => guardRead_runsAs (by rfl)
  | .backdriveClear _ _, _ => guardRead_runsAs (by rfl)
  | .shortDetect _ _ _ _, _ => guardRead_runsAs (by rfl)
  | .hiccupRetry conv, s => show RunsAs _ s (execHiccupRetry conv s) from guardUnit_runsAs (by rfl)
  | .hiccupCountReset conv, s => show RunsAs _ s (execHiccupCountReset conv s) from guardUnit_runsAs (by rfl)
  | .ovDetect _ _ _, _ => guardRead_runsAs (by rfl)
  | .uvDetect _ _ _ _, _ => guardRead_runsAs (by rfl)
  | .phaseOpen _ _ _ _ _, _ => guardUnit_runsAs (by rfl)
  | .senseRail _ _ _, _ => guardRead_runsAs (by rfl)
  | .senseRipple conv phase valleyMa midMa, s => show RunsAs _ s (execSenseRipple conv phase valleyMa midMa s) from guardUnit_runsAs (by rfl)
  | .derateEnd port, s => show RunsAs _ s (execDerateEnd port s) from guardUnit_runsAs (by rfl)
  | .bfetModeEval _, _ => guardRead_runsAs (by rfl)
  | .bfetTransitionDone, s => next_runsAs s _
  | .reverseComparator _, s => next_runsAs s _
  | .linearUpdate _ _ _, _ => guardRead_runsAs (by rfl)
  | .linOverload _ _ _, _ => guardRead_runsAs (by rfl)
  | .inputPresent _ _, _ => guardRead_runsAs (by rfl)
  | .inputAbsent _ _, _ => guardRead_runsAs (by rfl)
  | .inOv _ _, _ => guardRead_runsAs (by rfl)
  | .inOvRecover _ _, _ => guardRead_runsAs (by rfl)
  | .inputReverse _ _, _ => guardUnit_runsAs (by rfl)
  | .inputReverseRestart input, s => show RunsAs _ s (execInputReverseRestart input s) from guardUnit_runsAs (by rfl)
  | .vehicleSystemDetect _ _, _ => guardRead_runsAs (by rfl)
  | .vehiclePark _ _, _ => guardRead_runsAs (by rfl)
  | .vehicleUnpark _ _, _ => guardRead_runsAs (by rfl)
  | .donorLimitUpdate _ _, s => next_runsAs s _
  | .donorWithdraw _, _ => guardUnit_runsAs (by rfl)
  | .mpptStep _ _ _, _ => guardUnit_runsAs (by rfl)
  | .mpptScan _, _ => guardUnit_runsAs (by rfl)
  | .mpptScanEnd _ _, _ => guardRead_runsAs (by rfl)
  | .sysLow _, _ => guardRead_runsAs (by rfl)
  | .sysRecover _, _ => guardRead_runsAs (by rfl)
  | .cableBoot _ _ _, _ => guardRead_runsAs (by rfl)
  | .bootCapsTimeout _, _ => guardUnit_runsAs (by rfl)
  | .bootSinkLoss _ _ _ _, _ => guardRead_runsAs (by rfl)
  | .storeRemoval _ _ _ _ _, _ => guardRead_runsAs (by rfl)
  | .storeAccept _, _ => guardRead_runsAs (by rfl)
  | .chgEval _ _ _, _ => guardRead_runsAs (by rfl)
  | .vChgUpdate _ _, _ => guardUnit_runsAs (by rfl)
  | .chgTimerSecond _ _ _ _ _, _ => guardRead_runsAs (by rfl)
  | .chgTimerExpire m, s => show RunsAs _ s (execChgTimerExpire m s) from guardUnit_runsAs (by rfl)
  | .chgOc m iMa, s => show RunsAs _ s (execChgOc m iMa s) from guardUnit_runsAs (by rfl)
  | .chgOcPersist m iMa, s => show RunsAs _ s (execChgOcPersist m iMa s) from guardUnit_runsAs (by rfl)
  | .cellOv _ _, _ => guardRead_runsAs (by rfl)
  | .cutoff _ _ _ _, s => next_runsAs s _
  | .dsgOc _, s => next_runsAs s _
  | .auxPolicyChange, s => next_runsAs s _
  | .auxHoldExpire, s => next_runsAs s _
  | .liftCycle _, s => next_runsAs s _
  | .passRequest _ _, _ => guardUnit_runsAs (by rfl)
  | .grantDelivery holder, s => show RunsAs _ s (execGrantDelivery holder s) from guardUnit_runsAs (by rfl)
  | .passExcess port mw, s => show RunsAs _ s (execPassExcess port mw s) from guardUnit_runsAs (by rfl)
  | .reclaimHardReset port, s => show RunsAs _ s (execReclaimHardReset port s) from guardUnit_runsAs (by rfl)
  | .restGrantEnd _, s => next_runsAs s _
  | .eisGrantEnd m, s => show RunsAs _ s (execEisGrantEnd m s) from guardUnit_runsAs (by rfl)
  | .rdDetect _ _ _, _ => guardUnit_runsAs (by rfl)
  | .ccDebounce port, s => show RunsAs _ s (execCcDebounce port s) from guardUnit_runsAs (by rfl)
  | .attachedSrc _, _ => guardUnit_runsAs (by rfl)
  | .sourceDetach port, s => show RunsAs _ s (execSourceDetach port s) from guardUnit_runsAs (by rfl)
  | .sinkDetach _ _ _, _ => guardRead_runsAs (by rfl)
  | .sinkAttach _ _ _, _ => guardUnit_runsAs (by rfl)
  | .drpToggle port, s => show RunsAs _ s (execDrpToggle port s) from guardUnit_runsAs (by rfl)
  | .tryTimeout port, s => show RunsAs _ s (execTryTimeout port s) from guardUnit_runsAs (by rfl)
  | .errorRecoveryEnd port, s => show RunsAs _ s (execErrorRecoveryEnd port s) from guardUnit_runsAs (by rfl)
  | .accessoryDetect port present, s => show RunsAs _ s (execAccessoryDetect port present s) from guardUnit_runsAs (by rfl)
  | .vconnOc port ma atLimit, s => show RunsAs _ s (execVconnOc port ma atLimit s) from guardUnit_runsAs (by rfl)
  | .moistureCheck _, _ => guardUnit_runsAs (by rfl)
  | .moistureCheckDone port pins, s => show RunsAs _ s (execMoistureCheckDone port pins s) from guardUnit_runsAs (by rfl)
  | .washdownAutoExit, s => next_runsAs s _
  | .ccOvervoltage _ _ _, _ => guardRead_runsAs (by rfl)
  | .ccPinReconnect _ _ _, _ => guardRead_runsAs (by rfl)
  | .uiFrame _, _ => guardRead_runsAs (by rfl)
  | .holdReached _, _ => guardUnit_runsAs (by rfl)
  | .longHoldReached _, _ => guardUnit_runsAs (by rfl)
  | .stuck _, _ => guardUnit_runsAs (by rfl)
  | .serviceWindowEnd port, s => show RunsAs _ s (execServiceWindowEnd port s) from guardUnit_runsAs (by rfl)
  | .baselineReseed _ _, _ => guardRead_runsAs (by rfl)
  | .armExpire, s => next_runsAs s _
  | .pdSourceCapabilitiesRx _ _ _ _ _, _ => guardUnit_runsAs (by rfl)
  | .pdRequestRx _ _, _ => guardUnit_runsAs (by rfl)
  | .pdAcceptRx _ _, _ => guardUnit_runsAs (by rfl)
  | .pdRejectRx _ _, _ => guardUnit_runsAs (by rfl)
  | .pdPsRdyRx _, _ => guardUnit_runsAs (by rfl)
  | .pdSoftResetRx _, _ => guardUnit_runsAs (by rfl)
  | .pdHardReset _ _, _ => guardUnit_runsAs (by rfl)
  | .pdDrSwapRx _, _ => guardUnit_runsAs (by rfl)
  | .pdEprModeRx _ _, _ => guardUnit_runsAs (by rfl)
  | .pdEprKeepaliveRx _, _ => guardUnit_runsAs (by rfl)
  | .pdGetCapRx _ _ _, _ => guardUnit_runsAs (by rfl)
  | .pdInfoQueryRx _ _, _ => guardUnit_runsAs (by rfl)
  | .pdUnsupportedRx _, _ => guardUnit_runsAs (by rfl)
  | .pdAlertRx _ _, _ => guardUnit_runsAs (by rfl)
  | .pdVendorDefinedRx _ _, _ => guardUnit_runsAs (by rfl)
  | .pdCableIdentityRx _ _ _ _, _ => guardUnit_runsAs (by rfl)
  | .pdBistRx _ _ _, _ => guardUnit_runsAs (by rfl)
  | .pdRetransmit _, _ => guardUnit_runsAs (by rfl)
  | .pdTxFail _, _ => guardUnit_runsAs (by rfl)
  | .senderResponseTimeout _, _ => guardUnit_runsAs (by rfl)
  | .psTransitionTimeout _, _ => guardUnit_runsAs (by rfl)
  | .srcTransitionStart _, _ => guardUnit_runsAs (by rfl)
  | .transitionSettled _ _, _ => guardRead_runsAs (by rfl)
  | .sendSourceCap _, _ => guardUnit_runsAs (by rfl)
  | .noResponseTimeout _, _ => guardUnit_runsAs (by rfl)
  | .sinkEprKeepalive _, _ => guardUnit_runsAs (by rfl)
  | .ppsRequestRepeat _, _ => guardUnit_runsAs (by rfl)
  | .sourceEprKeepaliveTimeout _, _ => guardUnit_runsAs (by rfl)
  | .ppsTimeout _, _ => guardUnit_runsAs (by rfl)
  | .discoverIdentityRetry _, _ => guardUnit_runsAs (by rfl)
  | .hardResetStop port, s => show RunsAs _ s (execHardResetStop port s) from guardUnit_runsAs (by rfl)
  | .srcRecover port, s => show RunsAs _ s (execSrcRecover port s) from guardUnit_runsAs (by rfl)
  | .ppsUndervoltage _ _, _ => guardRead_runsAs (by rfl)
  | .pdMigration port, s => show RunsAs _ s (execPdMigration port s) from guardUnit_runsAs (by rfl)
  | .migrationAbandon port, s => show RunsAs _ s (execMigrationAbandon port s) from guardUnit_runsAs (by rfl)
  | .pdCoreFence core, s => show RunsAs _ s (execPdCoreFence core s) from guardUnit_runsAs (by rfl)
  | .bayIdRead _ _, _ => guardRead_runsAs (by rfl)
  | .packInsert port, s => show RunsAs _ s (execPackInsert port s) from guardUnit_runsAs (by rfl)
  | .packRemoval _ _ _ _, _ => guardRead_runsAs (by rfl)
  | .bayLinkReply _ _ _ _, _ => guardUnit_runsAs (by rfl)
  | .bayReplyTimeout port, s => show RunsAs _ s (execBayReplyTimeout port s) from guardUnit_runsAs (by rfl)
  | .authVerdict port, s => show RunsAs _ s (execAuthVerdict port s) from guardUnit_runsAs (by rfl)
  | .authRetry port, s => show RunsAs _ s (execAuthRetry port s) from guardUnit_runsAs (by rfl)
  | .bayStatusPoll port, s => show RunsAs _ s (execBayStatusPoll port s) from guardUnit_runsAs (by rfl)
  | .trickleRetry port, s => show RunsAs _ s (execTrickleRetry port s) from guardUnit_runsAs (by rfl)
  | .trickleExpire port, s => show RunsAs _ s (execTrickleExpire port s) from guardUnit_runsAs (by rfl)
  | .bayStart _ _ _, _ => guardRead_runsAs (by rfl)
  | .bayDoneRead _ _, _ => guardRead_runsAs (by rfl)
  | .proofingPause _, _ => guardUnit_runsAs (by rfl)
  | .proofingPauseEnd port, s => show RunsAs _ s (execProofingPauseEnd port s) from guardUnit_runsAs (by rfl)
  | .keyRevokeReauth port, s => show RunsAs _ s (execKeyRevokeReauth port s) from guardUnit_runsAs (by rfl)
  | .socCount _, _ => guardUnit_runsAs (by rfl)
  | .noAnchor ctx, s => show RunsAs _ s (execNoAnchor ctx s) from guardUnit_runsAs (by rfl)
  | .ekfStep _, _ => guardUnit_runsAs (by rfl)
  | .filterReset _, _ => guardUnit_runsAs (by rfl)
  | .stale _, _ => guardUnit_runsAs (by rfl)
  | .restRequest, s => next_runsAs s _
  | .relaxFit ctx, s => show RunsAs _ s (execRelaxFit ctx s) from guardUnit_runsAs (by rfl)
  | .eisRun m, s => show RunsAs _ s (execEisRun m s) from guardUnit_runsAs (by rfl)
  | .eisFrequencyDone m meas ampMa dropPermille, s => show RunsAs _ s (execEisFrequencyDone m meas ampMa dropPermille s) from guardUnit_runsAs (by rfl)
  | .eisAbort _, _ => guardUnit_runsAs (by rfl)
  | .eisDue _, _ => guardUnit_runsAs (by rfl)
  | .thmSample _ _, _ => guardUnit_runsAs (by rfl)
  | .laneChange sensor, s => show RunsAs _ s (execLaneChange sensor s) from guardUnit_runsAs (by rfl)
  | .hover sensor level, s => show RunsAs _ s (execHover sensor level s) from guardUnit_runsAs (by rfl)
  | .thmCapLift scope, s => show RunsAs _ s (execThmCapLift scope s) from guardUnit_runsAs (by rfl)
  | .pulseSkipEntry _ _, _ => guardUnit_runsAs (by rfl)
  | .pulseSkipExit _ _, _ => guardUnit_runsAs (by rfl)
  | .tsd _, _ => guardUnit_runsAs (by rfl)
  | .tsdRelease, s => next_runsAs s _
  | .tsdRestart, s => next_runsAs s _
  | .hwOv _ _ _, _ => guardUnit_runsAs (by rfl)
  | .sysCrit _, _ => guardRead_runsAs (by rfl)
  | .sysCritRecover _, _ => guardRead_runsAs (by rfl)
  | .sysUv1 _, _ => guardRead_runsAs (by rfl)
  | .windowEnd origin, s => show RunsAs _ s (execWindowEnd origin s) from guardUnit_runsAs (by rfl)
  | .controlPlaneWrite proc w, s => show RunsAs _ s (execControlPlaneWrite proc w s) from guardUnit_runsAs (by rfl)
  | .failover _, s => next_runsAs s _
  | .haltAck, s => next_runsAs s _
  | .haltTimeout, s => next_runsAs s _
  | .handoverOwnerMove, s => next_runsAs s _
  | .syncSet proc, s => show RunsAs _ s (execSyncSet proc s) from guardUnit_runsAs (by rfl)
  | .holdTimeExpire, s => next_runsAs s _
  | .holdParkStep, s => next_runsAs s _
  | .wdhExpiry, s => next_runsAs s _
  | .hostrstPulseEnd, s => next_runsAs s _
  | .wdsCheckin proc supervisor word, s => show RunsAs _ s (execWdsCheckin proc supervisor word s) from guardUnit_runsAs (by rfl)
  | .wdsPeriodEnd, s => next_runsAs s _
  | .wdsEnable, s => next_runsAs s _
  | .wdTotalRaise, s => next_runsAs s _
  | .quietAuto, s => next_runsAs s _
  | .quietExit, s => next_runsAs s _
  | .standbyWake _, _ => guardUnit_runsAs (by rfl)
  | .wakeTimer, s => next_runsAs s _
  | .standbyCountSample _, s => next_runsAs s _
  | .updVerifyDone, s => next_runsAs s _
  | .updSyncTimeout, s => next_runsAs s _
  | .updProbationEnd, s => next_runsAs s _
  | .updPointerWrite, s => next_runsAs s _
  | .pdUpdCoreStep, s => next_runsAs s _
  | .pdUpdProbationEnd, s => next_runsAs s _
  | .estUcodeSwap, s => next_runsAs s _
  | .estUcodeProbationEnd, s => next_runsAs s _
  | .limitsPrepare, s => next_runsAs s _
  | .limitsCommit, s => next_runsAs s _
  | .tmonMaskExpire group, s => show RunsAs _ s (execTmonMaskExpire group s) from guardUnit_runsAs (by rfl)
  | .stavskaLinkStart _, _ => guardUnit_runsAs (by rfl)
  | .stavskaSwapRetry _, _ => guardUnit_runsAs (by rfl)
  | .stavskaNoPd _, _ => guardUnit_runsAs (by rfl)
  | .usbSetConfiguration, s => next_runsAs s _
  | .enumTimeout, s => next_runsAs s _
  | .stavskaFrame _, _ => guardUnit_runsAs (by rfl)
  | .stavskaFrameTimeout, s => next_runsAs s _
  | .stavskaIdle, s => next_runsAs s _
  | .stavskaLinkEnd reason, s => show RunsAs _ s (execStavskaLinkEnd reason s) from guardUnit_runsAs (by rfl)
  | .nonceExpire, s => next_runsAs s _
  | .authLockoutEnd, s => next_runsAs s _
  | .ptbUnlockExpire, s => next_runsAs s _
  | .ptbTtlExpire id, s => show RunsAs _ s (execPtbTtlExpire id s) from guardUnit_runsAs (by rfl)
  | .jtagInstruction _, _ => guardUnit_runsAs (by rfl)
  | .tapReset, s => next_runsAs s _
  | .aonclkLoss, s => next_runsAs s _
  | .usbclkLoss, s => next_runsAs s _
  | .shipInputWake _ _, _ => guardRead_runsAs (by rfl)
  | .pdSinkCapabilitiesRx _ _, _ => guardUnit_runsAs (by rfl)
  | .sinkHardReset _, _ => guardUnit_runsAs (by rfl)
  | .sinkVbusRestored _ _, _ => guardRead_runsAs (by rfl)
  | .sinkRpChange _ _, _ => guardUnit_runsAs (by rfl)
  | .cableResetRx port, s => show RunsAs _ s (execCableResetRx port s) from guardUnit_runsAs (by rfl)
  | .cellTapFastLane _, _ => guardRead_runsAs (by rfl)

theorem exec_of_legal {c : Instr} (h : c.wf = true) (s : State) : ∃ m, exec c s = .next ⟨s.pending, m⟩ :=
  (exec_runsAs c s).legal (of_decide_eq_true h)

/-- A step takes one command off the queue and adds none. -/
theorem step_of_queueLegal {s : State} (h : QueueLegal s) : ∃ t, step s = .next t ∧ QueueLegal t := by
  obtain ⟨queue, m⟩ := s
  cases queue with
  | nil => exact ⟨_, rfl, h⟩
  | cons c rest =>
    obtain ⟨m', ran⟩ := exec_of_legal (h c List.mem_cons_self) ⟨rest, m⟩
    exact ⟨_, ran, fun x hx => h x (List.mem_cons_of_mem c hx)⟩

theorem safeFor_of_queueLegal : ∀ (n : Nat) (s : State), QueueLegal s → SafeFor n s
  | 0, _, _ => trivial
  | n + 1, _, h =>
    have ⟨t, stepped, ht⟩ := step_of_queueLegal h
    ⟨t, stepped, safeFor_of_queueLegal n t ht⟩

/-! ### The obligations -/

/-- Settles O5: one case per row. -/
theorem commandsCompleteExactlyWhenLegal : Obligations.CommandsCompleteExactlyWhenLegal := by
  intro c s
  obtain ⟨legal, noUnit, unrated⟩ := exec_runsAs c s
  exact ⟨legal, noUnit, unrated⟩

/-- Settles O6: legality of the queue is kept by each step, and so by any number of steps. -/
theorem legalQueuesNeverStop : Obligations.LegalQueuesNeverStop :=
  ⟨fun _ => step_of_queueLegal, safeFor_of_queueLegal⟩

end Machine
end Sys2Proof
end

section
/-! Answers (R462, R467, R541): what a refused command and a command that only reads leave as it was; and the words that the host
writes into the mailbox aperture (R451, R459). -/
namespace Sys2Proof
namespace Machine

/-! ### Refused commands -/

theorem execute_of_ready {m : Mach} {code s : Nat} (hr : ready m code s = true) (h : Mach → Nat → List Byte → Ans) :
    execute m code s h = settle m s (h (begun m s) s (payload m s)) := if_pos hr

theorem getSlot_answer (m : Mach) {s : Nat} (hs : s < 5) (st : Status) (out : List Byte) (detail : Nat) :
    (getSlot (answer m s st out detail) s).st = if s = 4 then .empty else .done :=
  getSlot_writeResponse _ hs _ _ _

/-- The STATUS that a slot reads after its command's answer. -/
theorem slotBytes_answer_status {m : Mach} (h : storesWf m = true) (s : Nat) (st : Status) (out : List Byte) (detail : Nat) :
    slotBytes (answer m s st out detail) s 10 2 = le 2 (statusCode st) := by
  simp only [slotBytes, answer_mem]
  rw [amGetAll_amPutAll (mem_of_stores h) _ _ 10 2 (by rw [← slotBytes, length_responseFrame]; omega)]
  exact responseFrame_status m s s st _ out

/-- An answer without a payload takes the first 20 bytes of its slot. -/
theorem amGet_answer_outside (m : Mach) (s : Nat) (st : Status) (detail : Nat) {a : Nat}
    (outside : a < slotBase s ∨ slotBase s + 20 ≤ a) :
    amGet 0 (answer m s st [] detail).mbx.mem a = amGet 0 m.mbx.mem a := by
  rw [answer_mem]
  refine amGet_amPutAll_outside _ _ _ ?_
  rw [length_responseFrame]
  exact outside

/-! ### Commands that only read -/

/-- The rules of a command that answers from the machine it finds, or refuses. -/
def ReadsOnly (h : Mach → Nat → List Byte → Ans) : Prop :=
  ∀ m s p, (∃ out, h m s p = .ok m out) ∨ ∃ st, h m s p = .refuse st

theorem refuseFirst_readsOnly (m : Mach) (out : List Byte) : ∀ l : List (Bool × Status),
    (∃ out', refuseFirst l (.ok m out) = .ok m out') ∨ ∃ st, refuseFirst l (.ok m out) = .refuse st
  | [] => .inl ⟨out, rfl⟩
  | (true, st) :: _ => .inr ⟨st, rfl⟩
  | (false, _) :: t => refuseFirst_readsOnly m out t

/-- A command that only reads leaves what its answer leaves. -/
theorem execute_of_readsOnly {h : Mach → Nat → List Byte → Ans} (reads : ReadsOnly h) (m : Mach) (code s : Nat) :
    AnswerFrame m (execute m code s h) s := by
  by_cases hr : ready m code s = true
  · rw [execute_of_ready hr]
    obtain ⟨out, e⟩ | ⟨st, e⟩ := reads (begun m s) s (payload m s) <;> rw [e]
    · exact (begun_answers m s).trans (answer_answers _ s .ok out 0)
    · exact settle_refuse_answers m s st
  · rw [execute, if_neg hr]
    exact AnswerFrame.refl m s

/-- What the statement about the commands that only read asks of one row. -/
def LeavesTheRest (row : Nat → Instr) : Prop :=
  ∀ (s : Nat) (qs : List Instr) (m : Mach), s < 5 → ∃ e : Mach, exec (row s) ⟨qs, m⟩ = .next ⟨qs, e⟩ ∧ AnswerFrame m e s

theorem leavesTheRest_of_readsOnly {row : Nat → Instr} {code : Nat} {h : Mach → Nat → List Byte → Ans} (reads : ReadsOnly h)
    (meaning : ∀ s st, exec (row s) st = command code s h st) : LeavesTheRest row := by
  intro s qs m hs
  refine ⟨execute m code s h, ?_, execute_of_readsOnly reads m code s⟩
  rw [meaning, command, guardUnit, if_pos (decide_eq_true hs)]
  rfl

section
variable {row : Nat → Instr} {code : Nat} {h : Mach → Nat → List Byte → Ans}

/-- A command whose rules are checks and then an answer from the machine as it stands. -/
theorem leaves_of_checks (meaning : ∀ s st, exec (row s) st = command code s h st := by exact fun _ _ => rfl)
    (rules : ∀ m s p, ∃ checks out, h m s p = refuseFirst checks (.ok m out) := by exact fun _ _ _ => ⟨_, _, rfl⟩) :
    LeavesTheRest row := by
  refine leavesTheRest_of_readsOnly (fun m s p => ?_) meaning
  obtain ⟨checks, out, e⟩ := rules m s p
  rw [e]
  exact refuseFirst_readsOnly m out checks

/-- A command that answers without a check. -/
theorem leaves_of_answer (meaning : ∀ s st, exec (row s) st = command code s h st := by exact fun _ _ => rfl)
    (rules : ∀ m s p, ∃ out, h m s p = .ok m out := by exact fun _ _ _ => ⟨_, rfl⟩) : LeavesTheRest row :=
  leavesTheRest_of_readsOnly (fun m s p => .inl (rules m s p)) meaning

end

/-! ### Words of the mailbox aperture -/

theorem exec_mbxSlotWrite {addr word : Nat} (low : 0x1000 ≤ addr) (high : addr < 0x2000) (aligned : addr % 4 = 0)
    (fits : word < 2 ^ 32) (s : State) : exec (.mbxSlotWrite addr word) s = next s (slotWrite s.m addr word) := by
  have unit : (decide (0x1000 ≤ addr) && decide (addr < 0x2000) && decide (addr % 4 = 0) && decide (word < 2 ^ 32)) = true := by
    simp only [low, high, aligned, fits, decide_true, Bool.and_true]
  show execMbxSlotWrite addr word s = _
  rw [execMbxSlotWrite, unit, guardUnit_true]

/-- The offset within its slot brings a word of the aperture back to its address. -/
theorem slotBase_add_offset {addr : Nat} (h : 0x1000 ≤ addr) :
    slotBase ((addr - 0x1000) / 0x400) + (addr - 0x1000) % 0x400 = addr := by
  unfold slotBase
  omega

theorem slotWrite_of_empty {m : Mach} {addr : Nat} (word : Nat) (empty : (getSlot m ((addr - 0x1000) / 0x400)).st = .empty) :
    slotWrite m addr word = slotPut m ((addr - 0x1000) / 0x400) ((addr - 0x1000) % 0x400) (le 4 word) := if_pos empty

theorem slotWrite_of_occupied {m : Mach} {addr : Nat} (word : Nat) (held : (getSlot m ((addr - 0x1000) / 0x400)).st ≠ .empty) :
    slotWrite m addr word = { m with host := { m.host with slotBusy := true, prevErr := true } } := if_neg held

theorem mem_slotWrite_of_empty {m : Mach} {addr : Nat} (word : Nat) (h : 0x1000 ≤ addr)
    (empty : (getSlot m ((addr - 0x1000) / 0x400)).st = .empty) :
    (slotWrite m addr word).mbx.mem = amPutAll 0 m.mbx.mem addr (le 4 word) := by
  rw [slotWrite_of_empty word empty, slotPut_mem, slotBase_add_offset h]

/-! ### The obligations -/

/-- Settles O8: a refusal is an answer, by its status and without a payload, to the machine with the command begun. -/
theorem refusalLeavesTheRest : Obligations.RefusalLeavesTheRest := by
  intro m code s h st hs hr wf refuses
  have e : execute m code s h = answer (begun m s) s st [] 0 := by rw [execute_of_ready hr, refuses]; rfl
  obtain ⟨frame, stream, others⟩ := settle_refuse_answers m s st
  rw [e]
  exact ⟨frame, stream, getSlot_answer _ hs st [] 0, others, slotBytes_answer_status (begun_stores m s wf) s st [] 0,
    fun a => amGet_answer_outside (begun m s) s st 0⟩

/-- Settles O9: each command named answers, after its checks, from the machine as it stands. -/
theorem readCommandsChangeNothing : Obligations.ReadCommandsChangeNothing := by
  simp only [Obligations.ReadCommandsChangeNothing, List.forall_mem_cons, List.not_mem_nil, false_implies, implies_true,
    and_true]
  exact ⟨leaves_of_answer, leaves_of_checks, leaves_of_answer, leaves_of_answer, leaves_of_checks, leaves_of_checks,
    leaves_of_answer, leaves_of_checks, leaves_of_checks, leaves_of_checks, leaves_of_checks, leaves_of_answer,
    leaves_of_checks, leaves_of_checks, leaves_of_answer, leaves_of_checks, leaves_of_checks, leaves_of_checks,
    leaves_of_answer, leaves_of_checks, leaves_of_checks, leaves_of_answer, leaves_of_answer, leaves_of_checks,
    leaves_of_checks, leaves_of_checks, leaves_of_answer, leaves_of_answer, leaves_of_checks, leaves_of_checks⟩

/-- Settles O12: the word's four bytes stand from its address on in the exchange memory. -/
theorem mailboxWordWrites : Obligations.MailboxWordWrites := by
  intro qs m addr word low high aligned fits wf s
  refine ⟨slotWrite m addr word, ?_, fun empty => ⟨?_, fun a outside => ?_, ?_⟩, slotWrite_of_occupied word⟩
  · rw [exec_mbxSlotWrite low high aligned fits, next_eq]
  · rw [mem_slotWrite_of_empty word low empty]
    have read := amGetAll_amPutAll (mem_of_stores wf) addr (le 4 word) 0 4 (Nat.le_of_eq (length_le 4 word).symm)
    rwa [Nat.add_zero, List.drop_zero, List.take_of_length_le (Nat.le_of_eq (length_le 4 word))] at read
  · rw [mem_slotWrite_of_empty word low empty, amGet_amPutAll_outside _ _ _ (by rw [length_le]; exact outside)]
  · rw [slotWrite_of_empty word empty]
    rfl

end Machine
end Sys2Proof
end

section
/-! Programmed pages and spread counters (R432, R439): the bytes and groups that a programmed page writes, and what a counter reads
after a copy of it was written. -/
namespace Sys2Proof
namespace Machine

/-! ### A programmed page -/

theorem amPutAll_append {α : Type} [DecidableEq α] (d : α) (l : List (Nat × α)) (k : Nat) (a b : List α) :
    amPutAll d l k (a ++ b) = amPutAll d (amPutAll d l k a) (k + a.length) b := by
  induction a generalizing l k with
  | nil => rfl
  | cons v t ih =>
    rw [List.cons_append, amPutAll, ih, amPutAll, List.length_cons, Nat.add_assoc, Nat.add_comm 1]

/-- The first `n` groups of a page programmed one after another are one run of bytes and one of statuses. -/
theorem programGroups_eq (nv : Nvm) (page : Nat) {bs : List Byte} : ∀ n, 8 * n ≤ bs.length →
    nvFold nv (List.range n) (fun nv k => programGroup nv page k bs) =
      { nv with bytes := amPutAll 0xFF nv.bytes (64 * page) (bs.take (8 * n))
                stat := amPutAll .blank nv.stat (8 * page) (List.replicate n .ok) }
  | 0, _ => rfl
  | n + 1, fits => by
    have ih := programGroups_eq nv page (bs := bs) n (by omega)
    have group : bs.take (8 * (n + 1)) = bs.take (8 * n) ++ (bs.drop (8 * n)).take 8 := by
      rw [Nat.mul_succ, List.take_add]
    have fits' : 8 * n ≤ bs.length := by omega
    have before : (bs.take (8 * n)).length = 8 * n := List.length_take_of_le fits'
    rw [nvFold] at ih ⊢
    rw [List.range_succ, List.foldl_append, ih, group, amPutAll_append, before, List.replicate_succ', amPutAll_append,
      List.length_replicate]
    rfl

theorem programPage_eq (nv : Nvm) (page : Nat) {bs : List Byte} (full : bs.length = 64) :
    programPage nv page bs =
      { nv with bytes := amPutAll 0xFF nv.bytes (64 * page) bs
                stat := amPutAll .blank nv.stat (8 * page) (List.replicate 8 .ok) } := by
  rw [programPage, programGroups_eq nv page 8 (by omega), List.take_of_length_le (by omega)]

section
variable {nv : Nvm} {bs : List Byte} (full : bs.length = 64)
include full

theorem rawByte_programPage_same (wf : nvWf nv = true) (page : Nat) {o : Nat} (ho : o < 64) :
    rawByte (programPage nv page bs) page o = bs.getD o 0 := by
  rw [programPage_eq nv page full, rawByte, amGet_amPutAll_inside bs _ o (by omega) (bytes_of_nv wf),
    List.getD_eq_getElem?_getD, List.getElem?_eq_getElem (by omega)]
  rfl

theorem groupStat_programPage_same (wf : nvWf nv = true) (page : Nat) {k : Nat} (hk : k < 8) :
    groupStat (programPage nv page bs) (8 * page + k) = .ok := by
  rw [programPage_eq nv page full, groupStat, amGet_amPutAll_inside _ _ k (by simpa using hk) (stat_of_nv wf),
    List.getElem_replicate]

theorem rawByte_programPage_ne {page p o : Nat} (other : p ≠ page) (ho : o < 64) :
    rawByte (programPage nv page bs) p o = rawByte nv p o := by
  rw [programPage_eq nv page full, rawByte, amGet_amPutAll_outside bs _ _ (by omega)]
  rfl

theorem groupStat_programPage_ne {page p k : Nat} (other : p ≠ page) (hk : k < 8) :
    groupStat (programPage nv page bs) (8 * p + k) = groupStat nv (8 * p + k) := by
  rw [programPage_eq nv page full, groupStat, amGet_amPutAll_outside _ _ _ (by rw [List.length_replicate]; omega)]
  rfl

end

/-! ### A counter's copies -/

/-- The little-endian bytes of a number spell it again. -/
theorem ofLe_le4 {v : Nat} (h : v < 2 ^ 32) : ofLe (le 4 v) = v := by
  have bytes : le 4 v = [BitVec.ofNat 8 (v / 256 ^ 0), BitVec.ofNat 8 (v / 256 ^ 1), BitVec.ofNat 8 (v / 256 ^ 2),
    BitVec.ofNat 8 (v / 256 ^ 3)] := rfl
  simp only [bytes, ofLe, List.foldr_cons, List.foldr_nil, BitVec.toNat_ofNat]
  omega

theorem length_counterBytes (target : Nat) : (counterBytes target).length = 64 := by
  simp [counterBytes, length_le]

/-- A run of a programmed page reads as the same run of what was programmed. -/
theorem rawBytes_programPage_same {nv : Nvm} (wf : nvWf nv = true) (page : Nat) {bs : List Byte} (full : bs.length = 64)
    {i n : Nat} (inside : i + n ≤ 64) :
    ((List.range n).map fun o => rawByte (programPage nv page bs) page (i + o)) = (bs.drop i).take n := by
  refine List.ext_getElem (by simp; omega) fun o ho _ => ?_
  rw [List.length_map, List.length_range] at ho
  rw [List.getElem_map, List.getElem_range, rawByte_programPage_same full wf page (by omega), List.getElem_take,
    List.getElem_drop, List.getD_eq_getElem?_getD, List.getElem?_eq_getElem (by omega)]
  rfl

/-- A copy programmed for `target` is valid and holds it. -/
theorem copyValid_programPage_same {nv : Nvm} (wf : nvWf nv = true) (page : Nat) {target : Nat} (h : target ≤ 0xFFFFFFFF) :
    copyValid (programPage nv page (counterBytes target)) page = some target := by
  have full := length_counterBytes target
  have stat := groupStat_programPage_same full wf page (show 0 < 8 by decide)
  have low := rawBytes_programPage_same wf page full (show 0 + 4 ≤ 64 by decide)
  have high := rawBytes_programPage_same wf page full (show 4 + 4 ≤ 64 by decide)
  simp only [Nat.zero_add, Nat.add_zero] at stat low
  rw [show ((counterBytes target).drop 0).take 4 = le 4 target from rfl] at low
  rw [show ((counterBytes target).drop 4).take 4 = le 4 (0xFFFFFFFF - target) from rfl] at high
  simp only [copyValid, stat, low, high, ofLe_le4 (show target < 2 ^ 32 by omega),
    ofLe_le4 (show 0xFFFFFFFF - target < 2 ^ 32 by omega)]
  exact if_pos (by simp; omega)

theorem copyValid_programPage_ne (nv : Nvm) {page p : Nat} (other : p ≠ page) {bs : List Byte} (full : bs.length = 64) :
    copyValid (programPage nv page bs) p = copyValid nv p := by
  have stat := groupStat_programPage_ne full (nv := nv) other (show 0 < 8 by decide)
  have low : ((List.range 4).map fun o => rawByte (programPage nv page bs) p o) = (List.range 4).map fun o => rawByte nv p o :=
    List.map_congr_left fun o ho => rawByte_programPage_ne full other (by have := List.mem_range.mp ho; omega)
  have high : ((List.range 4).map fun o => rawByte (programPage nv page bs) p (4 + o)) =
      (List.range 4).map fun o => rawByte nv p (4 + o) :=
    List.map_congr_left fun o ho => rawByte_programPage_ne full other (by have := List.mem_range.mp ho; omega)
  simp only [Nat.add_zero] at stat
  simp only [copyValid, stat, low, high]

/-! ### The largest copy -/

/-- What `ctrRead` keeps while it goes through the copies: the larger of two, the earlier of equals. -/
def keepLarger (value : Nat → Option Nat) (acc : Option (Nat × Nat)) (k : Nat) : Option (Nat × Nat) :=
  match value k, acc with
  | some v, none => some (v, k)
  | some v, some (b, at_) => if b < v then some (v, k) else some (b, at_)
  | none, acc => acc

/-- `r` is the best of the copies `l`: none where none is valid, else one of them that no other exceeds. -/
def IsLargest (value : Nat → Option Nat) (l : List Nat) : Option (Nat × Nat) → Prop
  | none => ∀ k ∈ l, value k = none
  | some (v, at_) => at_ ∈ l ∧ value at_ = some v ∧ ∀ k ∈ l, ∀ w, value k = some w → w ≤ v

theorem isLargest_snoc {value : Nat → Option Nat} {l : List Nat} {r : Option (Nat × Nat)} (k : Nat) (h : IsLargest value l r) :
    IsLargest value (l ++ [k]) (keepLarger value r k) := by
  cases here : value k with
  | none =>
    cases r with
    | none =>
      simp only [keepLarger, here, IsLargest, List.mem_append, List.mem_singleton] at h ⊢
      grind
    | some b =>
      obtain ⟨inside, held, best⟩ := h
      simp only [keepLarger, here, IsLargest, List.mem_append, List.mem_singleton]
      exact ⟨.inl inside, held, by grind⟩
  | some v =>
    cases r with
    | none =>
      simp only [keepLarger, here, IsLargest, List.mem_append, List.mem_singleton] at h ⊢
      grind
    | some b =>
      obtain ⟨inside, held, best⟩ := h
      simp only [keepLarger, here]
      split
      · refine ⟨by simp, here, ?_⟩
        grind
      · refine ⟨by simp [inside], held, ?_⟩
        grind

theorem foldl_keepLarger (value : Nat → Option Nat) :
    ∀ (l done : List Nat) (r : Option (Nat × Nat)), IsLargest value done r →
      IsLargest value (done ++ l) (l.foldl (keepLarger value) r)
  | [], done, _, h => by rwa [List.append_nil]
  | k :: t, done, r, h => by
    rw [List.foldl_cons, List.append_cons]
    exact foldl_keepLarger value t _ _ (isLargest_snoc k h)

/-- The value of copy `k` of counter `c`. -/
abbrev copyOf (nv : Nvm) (c k : Nat) : Option Nat := copyValid nv (64 + 8 * c + k)

/-- What `ctrRead` finds: no valid copy, or the largest. -/
theorem ctrRead_cases (nv : Nvm) (c : Nat) :
    ((∀ k < 8, copyOf nv c k = none) ∧ ctrRead nv c = (0, 7)) ∨
    (∃ v at_, at_ < 8 ∧ copyOf nv c at_ = some v ∧ (∀ k < 8, ∀ w, copyOf nv c k = some w → w ≤ v) ∧
      ctrRead nv c = (v, at_)) := by
  have best : IsLargest (copyOf nv c) (List.range 8) ((List.range 8).foldl (keepLarger (copyOf nv c)) none) :=
    foldl_keepLarger (copyOf nv c) (List.range 8) [] none (by simp [IsLargest])
  have read : ctrRead nv c = ((List.range 8).foldl (keepLarger (copyOf nv c)) none).getD (0, 7) := by
    show (match (List.range 8).foldl (keepLarger (copyOf nv c)) none with
      | some (v, k) => (v, k)
      | none => (0, 7)) = _
    cases (List.range 8).foldl (keepLarger (copyOf nv c)) none <;> rfl
  cases found : (List.range 8).foldl (keepLarger (copyOf nv c)) none with
  | none =>
    rw [found] at best read
    exact .inl ⟨fun k hk => best k (List.mem_range.mpr hk), read⟩
  | some b =>
    obtain ⟨v, at_⟩ := b
    rw [found] at best read
    obtain ⟨inside, held, above⟩ := best
    exact .inr ⟨v, at_, List.mem_range.mp inside, held, fun k hk => above k (List.mem_range.mpr hk), read⟩

/-- A valid copy that no other copy exceeds is what the counter reads. -/
theorem ctrRead_of_largest {nv : Nvm} {c k v : Nat} (hk : k < 8) (held : copyOf nv c k = some v)
    (above : ∀ j < 8, ∀ w, copyOf nv c j = some w → w ≤ v) : (ctrRead nv c).1 = v := by
  obtain ⟨invalid, -⟩ | ⟨v', j, hj, held', above', read⟩ := ctrRead_cases nv c
  · exact absurd (invalid k hk) (by simp [held])
  · rw [read]
    exact Nat.le_antisymm (above j hj v' held') (above' k hk v held)

theorem copyOf_le_ctrRead (nv : Nvm) (c : Nat) {k w : Nat} (hk : k < 8) (held : copyOf nv c k = some w) :
    w ≤ (ctrRead nv c).1 := by
  obtain ⟨invalid, -⟩ | ⟨v, at_, -, -, above, read⟩ := ctrRead_cases nv c
  · exact absurd (invalid k hk) (by simp [held])
  · rw [read]
    exact above k hk w held

/-- The copy after the largest, written with a target above it, is the largest. -/
theorem ctrRead_raised {nv : Nvm} (wf : nvWf nv = true) (c : Nat) {k target : Nat} (hk : k < 8) (fits : target ≤ 0xFFFFFFFF)
    (above : (ctrRead nv c).1 < target) :
    (ctrRead (programPage nv (64 + 8 * c + k) (counterBytes target)) c).1 = target := by
  refine ctrRead_of_largest hk (copyValid_programPage_same wf _ fits) fun j hj w held => ?_
  by_cases same : j = k
  · rw [same, copyOf, copyValid_programPage_same wf _ fits] at held
    exact Nat.le_of_eq (Option.some.inj held).symm
  · rw [copyOf, copyValid_programPage_ne nv (by omega) (length_counterBytes target)] at held
    have := copyOf_le_ctrRead nv c hj held
    omega

/-! ### The obligations -/

/-- Settles O13: the page is one run of the retention memory's bytes, and its groups one run of their statuses. -/
theorem pageWritesTouchTheirPage : Obligations.PageWritesTouchTheirPage := by
  intro nv page bs wf full nv'
  refine ⟨fun o => rawByte_programPage_same full wf page, fun k => groupStat_programPage_same full wf page,
    fun p o => rawByte_programPage_ne full, fun p k => groupStat_programPage_ne full, ?_⟩
  show programPage nv page bs = _
  simp only [nv', programPage_eq nv page full]

/-- Settles O15: a target above what the counter reads is written as a new largest copy, and no other target writes. -/
theorem spreadCountersOnlyRise : Obligations.SpreadCountersOnlyRise := by
  intro nv c target wf fits
  have raised : ctrRaise nv c target = if target ≤ (ctrRead nv c).1 ∨ 0xFFFFFFFF < target then nv
      else programPage nv (64 + 8 * c + ((ctrRead nv c).2 + 1) % 8) (counterBytes target) := rfl
  rw [raised]
  by_cases low : target ≤ (ctrRead nv c).1
  · rw [if_pos (.inl low), Nat.max_eq_left low]
  · rw [if_neg (by omega), ctrRead_raised wf c (Nat.mod_lt _ (by decide)) fits (by omega), Nat.max_eq_right (by omega)]

end Machine
end Sys2Proof
end

section
/-! Merged and consequential faults (R388, R389, R391, R392): what a detection during a reaction and one inside a consequence window
leave of the status words. -/
namespace Sys2Proof
namespace Machine

/-! ### Detail lists (R384) -/

/-- What an occurrence carries into its entry of a list of fewer than eight. -/
theorem detailAdd_carries (l : List Detail) (code : Nat) (consequential merged : Bool) (origin timeMs : Nat)
    (room : l.length < 8) : ∃ d ∈ detailAdd l code consequential merged origin timeMs,
      d.code = code ∧ (merged = true → d.merged = true) ∧
      (consequential = true → d.consequential = true ∧ d.origin = origin) := by
  unfold detailAdd
  split
  case isTrue known =>
    obtain ⟨d, hd, e⟩ := List.any_eq_true.mp known
    have e : d.code = code := of_decide_eq_true e
    refine ⟨_, List.mem_map_of_mem hd, ?_⟩
    rw [if_pos e]
    exact ⟨e, fun h => by simp [h], fun h => by simp [h]⟩
  case isFalse =>
    exact ⟨_, List.mem_append_right _ (List.mem_singleton_self _), rfl, fun h => h, fun h => ⟨h, rfl⟩⟩

/-! ### A detection during a reaction -/

/-- What a detection does to a status word of its block. -/
def blkDetected (act busy : Bool) (code sev timeMs tick until_ : Nat) (w : Blk) : Blk :=
  let w := blkRecord w code sev timeMs tick busy
  if act && 4 ≤ sev then { w with reactSev := sev, reactUntil := some until_ } else w

theorem getBlk_detect (m : Mach) {b : Nat} (hb : isBlock b = true) (c : Cause) (sev lastNs : Nat) :
    getBlk (detect m b c sev lastNs).1 b =
      blkDetected (detect m b c sev lastNs).2 (reacting m b) (codeOf c) sev (nowMs m) m.dev.aonTick
        (m.dev.now + min lastNs (sec 1)) (getBlk m b) :=
  getBlk_forBlocks m b (fun m' w => blkDetected (detect m b c sev lastNs).2 (reacting m b) (codeOf c) sev (nowMs m')
    m'.dev.aonTick (m.dev.now + min lastNs (sec 1)) w) (fun _ _ => rfl) (mem_blocksOf_self b)
    (blocksOf_lt hb (mem_blocksOf_self b))

/-- A reaction in progress leaves its place to a more severe one alone. -/
theorem detect_acts_iff {m : Mach} {b : Nat} (busy : reacting m b = true) (c : Cause) (sev lastNs : Nat) :
    (detect m b c sev lastNs).2 = true ↔ (getBlk m b).reactSev < sev := by
  simp [detect, busy]

section
variable (act : Bool) (code sev timeMs tick until_ : Nat) {w : Blk} (held : w.sticky ≠ [])
include held

theorem blkDetected_merges :
    let w' := blkDetected act true code sev timeMs tick until_ w
    w'.first = w.first ∧ w'.sev = w.sev ∧ w'.merged = satTo 65535 (w.merged + 1) ∧
    w'.details = if code = w.first then w.details else detailAdd w.details code false true 0xFF timeMs := by
  simp only [blkDetected, blkRecord_of_recorded _ _ _ _ _ _ held]
  split <;> exact ⟨rfl, rfl, rfl, rfl⟩

theorem blkDetected_idle :
    let w' := blkDetected false true code sev timeMs tick until_ w
    w'.reactUntil = w.reactUntil ∧ w'.reactSev = w.reactSev := by
  simp only [blkDetected, blkRecord_of_recorded _ _ _ _ _ _ held]
  exact ⟨rfl, rfl⟩

end

/-! ### A detection inside a consequence window -/

theorem detectDep_of_masked {m : Mach} {d : Dep} {o : Nat} (masked : maskedBy m d = some o) (b : Nat) (c : Cause)
    (sev lastNs : Nat) : detectDep m d b c sev lastNs = (consequential m b c o, false) := by
  simp only [detectDep, masked]

/-- What a consequential event does to a status word of its block. -/
def blkConsequential (code origin timeMs : Nat) (w : Blk) : Blk :=
  { w with details := detailAdd w.details code true false origin timeMs }

theorem getBlk_consequential (m : Mach) {b x : Nat} (hb : isBlock b = true) (c : Cause) (origin : Nat) (hx : x ∈ blocksOf b) :
    getBlk (consequential m b c origin) x = blkConsequential (codeOf c) origin (nowMs m) (getBlk m x) :=
  getBlk_forBlocks m b (fun m => blkConsequential (codeOf c) origin (nowMs m)) (fun _ _ => rfl) hx (blocksOf_lt hb hx)

theorem getBlk_consequential_ne (m : Mach) {b x : Nat} (c : Cause) (origin : Nat) (hx : x ∉ blocksOf b) :
    getBlk (consequential m b c origin) x = getBlk m x :=
  getBlk_forBlocks_ne m b (fun m => blkConsequential (codeOf c) origin (nowMs m)) hx

/-- A consequential event changes detail lists alone. -/
theorem getBlk_consequential_frame (m : Mach) {b : Nat} (hb : isBlock b = true) (c : Cause) (origin x : Nat) :
    getBlk (consequential m b c origin) x =
      { getBlk m x with details := (getBlk (consequential m b c origin) x).details } := by
  by_cases hx : x ∈ blocksOf b
  · rw [getBlk_consequential m hb c origin hx]
    rfl
  · rw [getBlk_consequential_ne m c origin hx]

/-- The interrupt lines do not read the detail lists. -/
theorem irqLow_of_details {m : Mach} {v : Vector Blk 139}
    (same : ∀ x, getBlk { m with blk := v } x = { getBlk m x with details := (getBlk { m with blk := v } x).details }) (k : Nat) :
    irqLow { m with blk := v } k = irqLow m k := by
  have fields (x : Nat) : (getBlk { m with blk := v } x).sticky = (getBlk m x).sticky ∧
      (getBlk { m with blk := v } x).live = (getBlk m x).live ∧ (getBlk { m with blk := v } x).causeEn = (getBlk m x).causeEn ∧
      (getBlk { m with blk := v } x).liveEn = (getBlk m x).liveEn ∧ (getBlk { m with blk := v } x).en = (getBlk m x).en := by
    rw [same x]
    exact ⟨rfl, rfl, rfl, rfl, rfl⟩
  have asserted (x : Nat) : asserts { m with blk := v } x = asserts m x := by
    obtain ⟨sticky, live, causeEn, liveEn, en⟩ := fields x
    have cause : causeBits { m with blk := v } x = causeBits m x := by rw [causeBits, sticky, causeBits]
    have liveBits' : liveBits { m with blk := v } x = liveBits m x := by
      simp only [liveBits, liveOf, live]
      rfl
    simp only [asserts, cause, liveBits', causeEn, liveEn, en]
  have line (x : Nat) : (getBlk { m with blk := v } x).line = (getBlk m x).line := by rw [same x]
  simp only [irqLow, asserted, line]

/-! ### The obligations -/

/-- Settles O17: the merged fault is recorded in a status word that has a cause, and acts where its severity is the higher. -/
theorem faultsDuringReactionMerge : Obligations.FaultsDuringReactionMerge := by
  intro m b sev lastNs c hb busy caused
  have held : (getBlk m b).sticky ≠ [] := fun empty => caused (catBits_eq_zero.mpr empty)
  simp only [getBlk_detect m hb, busy]
  obtain ⟨first, sev', merged, details⟩ := blkDetected_merges (detect m b c sev lastNs).2 (codeOf c) sev (nowMs m)
    m.dev.aonTick (m.dev.now + min lastNs (sec 1)) held
  refine ⟨detect_acts_iff busy c sev lastNs, first, sev', merged, fun other room => ?_, fun idle => ?_⟩
  · rw [details, if_neg other]
    obtain ⟨d, hd, code, carried, -⟩ := detailAdd_carries (getBlk m b).details (codeOf c) false true 0xFF (nowMs m) room
    exact ⟨d, hd, code, carried rfl⟩
  · rw [idle]
    exact blkDetected_idle _ _ _ _ _ held

/-- Settles O18: a masked detector's event is `consequential`. -/
theorem consequencesAreOnlyListed : Obligations.ConsequencesAreOnlyListed := by
  intro m d b sev lastNs o c hb masked
  simp only [detectDep_of_masked masked]
  have frame := consequential_frame m b c o
  have same := getBlk_consequential_frame m hb c o
  refine ⟨trivial, frame, same, fun x => ?_, fun k => ?_, fun room => ?_⟩
  · rw [causeBits, same x]
    rfl
  · rw [frame] at same ⊢
    exact irqLow_of_details same k
  · rw [getBlk_consequential m hb c o (mem_blocksOf_self b)]
    obtain ⟨y, hy, code, -, carried⟩ := detailAdd_carries (getBlk m b).details (codeOf c) true false o (nowMs m) room
    obtain ⟨conseq, origin⟩ := carried rfl
    exact ⟨y, hy, code, conseq, origin⟩

end Machine
end Sys2Proof
end

section
/-! The Slalom gates' tokens (R420, R421): the seeds, and what each check-in does to the tokens and the passed gates. -/
namespace Sys2Proof
namespace Machine

theorem wdsSeed_eq {g : Nat} (h : g < 16) : wdsSeed g = BitVec.ofNat 24 (0x6C0000 ||| (g + 1)) := by
  have seeds : ∀ g < 16, wdsSeed g = BitVec.ofNat 24 (0x6C0000 ||| (g + 1)) := by decide
  exact seeds g h

theorem token_wdsRestart {m : Mach} (on : m.wds.enabled = true) {g : Nat} (h : g < 16) :
    tget (wdsRestart m).wds.tokens 0 g = wdsSeed g := by
  simp only [wdsRestart, on, Bool.not_true, Bool.false_eq_true, if_false]
  rw [tget_of_lt _ _ h, Vector.getElem_ofFn]

/-- A check-in that R420 and R421 accept. -/
def Accepts (m : Mach) (proc : Nat) (sup : Bool) (word : Nat) : Prop :=
  let g := word / 2 ^ 24 % 16
  m.wds.enabled = true ∧ m.grd.owner = proc + 1 ∧ sup = true ∧ bit m.wds.mask g = true ∧ bit m.wds.passed g = false ∧
    BitVec.ofNat 24 word = tget m.wds.tokens 0 g

theorem wdsCheckin_frame (m : Mach) (proc : Nat) (sup : Bool) (word : Nat) :
    wdsCheckin m proc sup word = { m with wds := (wdsCheckin m proc sup word).wds } := by
  simp only [wdsCheckin]
  repeat' split
  all_goals rfl

theorem tokens_wdsCheckin_accepted {m : Mach} {proc : Nat} {sup : Bool} {word : Nat} (accepted : Accepts m proc sup word) :
    (wdsCheckin m proc sup word).wds.tokens = tupd m.wds.tokens (word / 2 ^ 24 % 16) wdsStep := by
  obtain ⟨on, owner, super, enabled, first, current⟩ := accepted
  simp [-Nat.reducePow, wdsCheckin, on, owner, super, enabled, first, current]

theorem wdsCheckin_refused {m : Mach} {proc : Nat} {sup : Bool} {word : Nat} (refused : ¬Accepts m proc sup word) :
    (wdsCheckin m proc sup word).wds.tokens = m.wds.tokens ∧ (wdsCheckin m proc sup word).wds.passed = m.wds.passed := by
  simp only [wdsCheckin]
  split
  · exact ⟨rfl, rfl⟩
  · split
    · exact ⟨rfl, rfl⟩
    · split
      · exact ⟨rfl, rfl⟩
      · rename_i mayCheck first current
        simp only [Bool.or_eq_true, not_or, Bool.not_eq_true', Bool.not_eq_false, decide_eq_true_eq, Decidable.not_not] at mayCheck first current
        obtain ⟨⟨⟨on, owner⟩, super⟩, enabled⟩ := mayCheck
        exact absurd ⟨on, owner, super, enabled, by simpa using first, current⟩ refused

theorem exec_wdsCheckin {proc word : Nat} (hp : proc < 2) (hw : word < 2 ^ 32) (sup : Bool) (s : State) :
    exec (.wdsCheckin proc sup word) s = next s (wdsCheckin s.m proc sup word) := by
  have unit : (decide (proc < 2) && decide (word < 2 ^ 32)) = true := by simp only [hp, hw, decide_true, Bool.and_true]
  show execWdsCheckin proc sup word s = _
  rw [execWdsCheckin, unit, guardUnit_true]

/-! ### The obligation -/

/-- Settles O21: only an accepted check-in writes the token of its gate. -/
theorem gateTokens : Obligations.GateTokens := by
  refine ⟨fun m on g hg => (token_wdsRestart on hg).trans (wdsSeed_eq hg), by decide, by decide, by decide,
    fun qs m proc word sup hp hw => ⟨wdsCheckin m proc sup word, by rw [exec_wdsCheckin hp hw, next_eq],
      wdsCheckin_frame m proc sup word, fun accepted => ?_, wdsCheckin_refused⟩⟩
  rw [tokens_wdsCheckin_accepted accepted]
  exact ⟨tget_tupd_same _ _ _ (Nat.mod_lt _ (by decide)), fun j other => tget_tupd_ne _ _ _ (Ne.symm other)⟩

end Machine
end Sys2Proof
end

section
/-! The least of a list (R93, R313): the first of the entries whose key no other's is below; and the two choices that are made so. -/
namespace Sys2Proof
namespace Machine

/-! ### The first least entry of a list -/

section
variable {β : Type} [LE β] [LT β] [DecidableLT β] [Std.IsLinearOrder β] [Std.LawfulOrderLT β]

/-- The entry that stays when `x` is met with `best` held: a new one only where its key is lower. -/
def keepLower (key : Nat → β) (best x : Nat) : Nat := if key x < key best then x else best

/-- `r` is the first of the entries of `l` with the least key, where `before` is the order of the list. -/
def IsFirstLeast (key : Nat → β) (before : Nat → Nat → Prop) (l : List Nat) (r : Nat) : Prop :=
  r ∈ l ∧ ∀ y ∈ l, key r < key y ∨ key r = key y ∧ (r = y ∨ before r y)

theorem foldl_keepLower (key : Nat → β) {before : Nat → Nat → Prop} :
    ∀ (l done : List Nat) (b : Nat), (done ++ l).Pairwise before → IsFirstLeast key before done b →
      IsFirstLeast key before (done ++ l) (l.foldl (keepLower key) b)
  | [], done, _, _, h => by rwa [List.append_nil]
  | x :: t, done, b, ordered, ⟨held, least⟩ => by
    rw [List.append_cons] at ordered ⊢
    have later : before b x := by
      have pairs := (List.pairwise_append.mp (List.pairwise_append.mp ordered).1).2.2
      exact pairs b held x List.mem_cons_self
    refine foldl_keepLower key t _ _ ordered ?_
    unfold keepLower
    split
    case isTrue lower =>
      refine ⟨by simp, fun y hy => ?_⟩
      rcases List.mem_append.mp hy with old | new
      · exact .inl (Std.lt_of_lt_of_le lower ((least y old).elim Std.le_of_lt fun h => Std.le_of_eq h.1))
      · exact .inr ⟨by rw [List.mem_singleton.mp new], .inl (List.mem_singleton.mp new).symm⟩
    case isFalse notLower =>
      refine ⟨List.mem_append_left _ held, fun y hy => ?_⟩
      rcases List.mem_append.mp hy with old | new
      · exact least y old
      · rw [List.mem_singleton.mp new]
        by_cases equal : key b = key x
        · exact .inr ⟨equal, .inr later⟩
        · exact .inl (Std.lt_of_le_of_ne (Std.not_lt.mp notLower) equal)

/-- Going through a list from its first entry on finds the first least. -/
theorem foldl_keepLower_cons (key : Nat → β) {before : Nat → Nat → Prop} {b : Nat} {l : List Nat}
    (ordered : (b :: l).Pairwise before) : IsFirstLeast key before (b :: l) (l.foldl (keepLower key) b) :=
  foldl_keepLower key l [b] b ordered
    ⟨List.mem_singleton_self b, fun y hy => .inr ⟨by rw [List.mem_singleton.mp hy], .inl (List.mem_singleton.mp hy).symm⟩⟩

end

/-! ### The governing loop (R93) -/

/-- The enabled loops in the order FOLD, ISRC, IOUT, V. -/
def enabledLoops (en : Nat) : List Nat := [3, 2, 1, 0].filter fun j => bit en j

theorem mem_enabledLoops {en i : Nat} : i ∈ enabledLoops en ↔ i < 4 ∧ bit en i = true := by
  rw [enabledLoops, List.mem_filter]
  refine and_congr_left fun _ => ?_
  simp only [List.mem_cons, List.not_mem_nil, or_false]
  omega

theorem enabledLoops_descend (en : Nat) : (enabledLoops en).Pairwise (· > ·) :=
  List.Pairwise.filter _ (by decide)

/-- With 4 standing for no loop yet, the first enabled loop is taken and the others compared. -/
theorem selectLoop_eq (en : Nat) (us : List Int) {b : Nat} {l : List Nat} (loops : enabledLoops en = b :: l) :
    selectLoop en us = l.foldl (keepLower fun j => us.getD j 0) b := by
  have noFour : ∀ (l : List Nat) (b : Nat), b < 4 → (∀ j ∈ l, j < 4) →
      l.foldl (fun best j => if best = 4 then j else if us.getD j 0 < us.getD best 0 then j else best) b =
        l.foldl (keepLower fun j => us.getD j 0) b := by
    intro l
    induction l with
    | nil => exact fun _ _ _ => rfl
    | cons j t ih =>
      intro b hb ht
      have hj : j < 4 := ht j List.mem_cons_self
      rw [List.foldl_cons, List.foldl_cons, if_neg (by omega)]
      refine ih _ ?_ fun x hx => ht x (List.mem_cons_of_mem j hx)
      split <;> assumption
  have bound (j : Nat) (hj : j ∈ b :: l) : j < 4 := (mem_enabledLoops.mp (loops ▸ hj)).1
  show (enabledLoops en).foldl _ 4 = _
  rw [loops, List.foldl_cons, if_pos rfl]
  exact noFour l b (bound b List.mem_cons_self) fun j hj => bound j (List.mem_cons_of_mem b hj)

/-! ### The record of a pack (R313) -/

abbrev recAt (m : Mach) (x : Nat) : PackRec := tget m.recs {} x

/-- The records that no bay holds. -/
def freeRecs (m : Mach) : List Nat := (List.range 256).filter fun x => !recHeld m x

theorem mem_freeRecs {m : Mach} {x : Nat} : x ∈ freeRecs m ↔ x < 256 ∧ recHeld m x = false := by
  rw [freeRecs, List.mem_filter, List.mem_range, Bool.not_eq_true']

theorem freeRecs_ascend (m : Mach) : (freeRecs m).Pairwise (· < ·) :=
  List.Pairwise.filter _ List.pairwise_lt_range

/-- The lowest of the numbers below `n` with a property. -/
theorem find?_range_eq_some {n x : Nat} {p : Nat → Bool} :
    (List.range n).find? p = some x ↔ x < n ∧ p x = true ∧ ∀ y < x, p y = false := by
  rw [List.find?_range_eq_some]
  simp only [Bool.not_eq_true', List.mem_range]
  exact and_left_comm

/-- The lowest record of a pack, and the lowest free one. -/
def ownRec (m : Mach) (id : List Byte) : Option Nat :=
  (List.range 256).find? fun x => (recAt m x).used && (recAt m x).packId = id
def unusedRec (m : Mach) : Option Nat := (List.range 256).find? fun x => !(recAt m x).used

/-- The least recently seen of the records that no bay holds. -/
def oldestRec (m : Mach) : Nat := (freeRecs m).foldl (keepLower fun x => (recAt m x).lastSeen) ((freeRecs m).headD 0)

theorem recChoose_eq (m : Mach) (id : List Byte) : recChoose m id = (ownRec m id).getD ((unusedRec m).getD (oldestRec m)) := by
  show (match ownRec m id with
    | some x => x
    | none => match unusedRec m with
      | some x => x
      | none => oldestRec m) = _
  cases ownRec m id with
  | some x => rfl
  | none => cases unusedRec m <;> rfl

theorem ownRec_eq_some {m : Mach} {id : List Byte} {x : Nat} (h : ownRec m id = some x) :
    x < 256 ∧ (recAt m x).used = true ∧ (recAt m x).packId = id := by
  obtain ⟨hx, here, -⟩ := find?_range_eq_some.mp h
  rw [Bool.and_eq_true, decide_eq_true_eq] at here
  exact ⟨hx, here⟩

theorem ownRec_eq_none {m : Mach} {id : List Byte} :
    ownRec m id = none ↔ ∀ y < 256, (recAt m y).used = true → (recAt m y).packId ≠ id := by
  simp only [ownRec, List.find?_eq_none, List.mem_range, Bool.and_eq_true, decide_eq_true_eq, not_and, Ne]

theorem unusedRec_eq_some {m : Mach} {x : Nat} (h : unusedRec m = some x) :
    x < 256 ∧ (recAt m x).used = false ∧ ∀ y < x, (recAt m y).used = true := by
  obtain ⟨hx, here, before⟩ := find?_range_eq_some.mp h
  rw [Bool.not_eq_true'] at here
  exact ⟨hx, here, fun y hy => by simpa only [Bool.not_eq_false'] using before y hy⟩

theorem unusedRec_eq_none {m : Mach} : unusedRec m = none ↔ ∀ y < 256, (recAt m y).used = true := by
  simp only [unusedRec, List.find?_eq_none, List.mem_range, Bool.not_eq_true', Bool.not_eq_false]

theorem oldestRec_isFirstLeast {m : Mach} (replaceable : ∃ y < 256, recHeld m y = false) :
    IsFirstLeast (fun x => (recAt m x).lastSeen) (· < ·) (freeRecs m) (oldestRec m) := by
  obtain ⟨y, hy, held⟩ := replaceable
  have inside : y ∈ freeRecs m := mem_freeRecs.mpr ⟨hy, held⟩
  have ascend := freeRecs_ascend m
  rw [oldestRec]
  cases free : freeRecs m with
  | nil => exact absurd (free ▸ inside) List.not_mem_nil
  | cons b l =>
    rw [free] at ascend
    rw [List.headD_cons, List.foldl_cons, keepLower, ite_self]
    exact foldl_keepLower_cons _ ascend

/-! ### The obligations -/

/-- Settles O22: the loops are gone through from FOLD down, and one is left only for a lower effort. -/
theorem lowestEffortGoverns : Obligations.LowestEffortGoverns := by
  intro en us ⟨i, hi, on⟩ j
  have descend := enabledLoops_descend en
  cases loops : enabledLoops en with
  | nil =>
    exact absurd (loops ▸ mem_enabledLoops.mpr ⟨hi, on⟩) List.not_mem_nil
  | cons b l =>
    rw [loops] at descend
    obtain ⟨inside, least⟩ := foldl_keepLower_cons (fun j => us.getD j 0) descend
    rw [← selectLoop_eq en us loops, ← loops] at inside least
    obtain ⟨below, enabled⟩ := mem_enabledLoops.mp inside
    refine ⟨below, enabled, fun i hi on => ?_⟩
    obtain lower | ⟨equal, first⟩ := least i (mem_enabledLoops.mpr ⟨hi, on⟩)
    · exact ⟨Int.le_of_lt lower, fun e => absurd e (Int.ne_of_gt lower)⟩
    · exact ⟨Int.le_of_eq equal, fun _ => first.elim (fun e => Nat.le_of_eq e.symm) Nat.le_of_lt⟩

/-- Settles O24: one case for each place that a verified pack's record is looked for. -/
theorem packRecordChoice : Obligations.PackRecordChoice := by
  intro m id r x
  have chosen : x = (ownRec m id).getD ((unusedRec m).getD (oldestRec m)) := recChoose_eq m id
  refine ⟨fun ⟨y, hy, used, held⟩ => ?own, fun foreign => ?_⟩
  case own =>
    cases own : ownRec m id with
    | some x' =>
      rw [chosen, own]
      exact ownRec_eq_some own
    | none => exact absurd held (ownRec_eq_none.mp own y hy used)
  rw [ownRec_eq_none.mpr foreign] at chosen
  refine ⟨fun ⟨y, hy, free⟩ => ?unused, fun full replaceable => ?replaced⟩
  case unused =>
    cases unused : unusedRec m with
    | some x' =>
      rw [chosen, unused]
      exact unusedRec_eq_some unused
    | none => exact absurd (unusedRec_eq_none.mp unused y hy) (Bool.eq_false_iff.mp free)
  case replaced =>
    rw [unusedRec_eq_none.mpr full] at chosen
    obtain ⟨inside, least⟩ := oldestRec_isFirstLeast replaceable
    obtain ⟨below, free⟩ := mem_freeRecs.mp inside
    rw [chosen]
    refine ⟨below, free, fun y hy held => ?_⟩
    exact (least y (mem_freeRecs.mpr ⟨hy, held⟩)).imp_right fun ⟨equal, first⟩ => ⟨equal, first.elim Nat.le_of_eq Nat.le_of_lt⟩

end Machine
end Sys2Proof
end

section
/-! Pins, time and samples: the resistance of a pin (R245), the always-on clocks and the watchdog's count over a stretch of time
(R404, R538), the order in which the array takes samples (R80), the registers after a reset, and the ball map (R15). -/
namespace Sys2Proof
namespace Machine

/-! ### The course of the clocks (R538) -/

/-- AONCLK ticks that a stretch of `n` ns completes. -/
def aonTicks (m : Mach) (n : Nat) : Nat := if m.dev.aonclk then (m.dev.aonFrac + n * 32768) / 1000000000 else 0

/-- AON_TICK after `k` ticks from accumulator `acc`: it counts from the last millisecond on. -/
def tickAfter (acc tick k : Nat) : Nat := if (acc + 1000 * k) / 32768 = 0 then tick + k else (acc + 1000 * k) % 32768 / 1000

theorem tickAfter_add {acc : Nat} (h : acc < 32768) (tick j k : Nat) :
    tickAfter ((acc + 1000 * j) % 32768) (tickAfter acc tick j) k = tickAfter acc tick (j + k) := by
  simp only [tickAfter]
  by_cases first : (acc + 1000 * j) / 32768 = 0
  · rw [if_pos first]
    split <;> split <;> omega
  · rw [if_neg first, if_neg (show ¬(acc + 1000 * (j + k)) / 32768 = 0 by omega)]
    split <;> omega

/-- The host watchdog's count moves. -/
def wdhCounts (m : Mach) : Bool := m.dev.mclk && m.wdh.st ≠ .off && !m.wdh.waiting && m.pwr.st ≠ .standby

theorem wdhCounts_advance (m : Mach) (n : Nat) : wdhCounts (advance m n) = wdhCounts m := rfl

section
variable (m : Mach) (n : Nat)

theorem advance_aonFrac : (advance m n).dev.aonFrac =
    if m.dev.aonclk then (m.dev.aonFrac + n * 32768) % 1000000000 else m.dev.aonFrac := rfl
theorem advance_aonAcc : (advance m n).dev.aonAcc = (m.dev.aonAcc + 1000 * aonTicks m n) % 32768 := rfl
theorem advance_aonMs : (advance m n).dev.aonMs = (m.dev.aonMs + (m.dev.aonAcc + 1000 * aonTicks m n) / 32768) % 2 ^ 32 := rfl
theorem advance_aonTick : (advance m n).dev.aonTick = tickAfter m.dev.aonAcc m.dev.aonTick (aonTicks m n) := rfl
theorem advance_dev : (advance m n).dev = { m.dev with
    now := m.dev.now + n, aonFrac := (advance m n).dev.aonFrac, aonAcc := (advance m n).dev.aonAcc
    aonMs := (advance m n).dev.aonMs, aonTick := (advance m n).dev.aonTick } := rfl
theorem advance_presc : (advance m n).wdh.presc =
    if wdhCounts m then (m.wdh.presc + n) % 1000 else m.wdh.presc := rfl
theorem advance_count : (advance m n).wdh.count =
    if wdhCounts m then min m.wdh.close (m.wdh.count + (m.wdh.presc + n) / 1000) else m.wdh.count := rfl
theorem advance_close : (advance m n).wdh.close = m.wdh.close := rfl

end

/-- The ticks of two stretches are those of the whole. -/
theorem aonTicks_add (m : Mach) (a b : Nat) : aonTicks m (a + b) = aonTicks m a + aonTicks (advance m a) b := by
  simp only [aonTicks, advance_aonFrac, show (advance m a).dev.aonclk = m.dev.aonclk from rfl]
  split <;> omega

section
variable (m : Mach) (a b : Nat)

theorem advance_advance_dev (hacc : m.dev.aonAcc < 32768) : (advance (advance m a) b).dev = (advance m (a + b)).dev := by
  have frac : (advance (advance m a) b).dev.aonFrac = (advance m (a + b)).dev.aonFrac := by
    simp only [advance_aonFrac, show (advance m a).dev.aonclk = m.dev.aonclk from rfl]
    split <;> omega
  have acc : (advance (advance m a) b).dev.aonAcc = (advance m (a + b)).dev.aonAcc := by
    simp only [advance_aonAcc, aonTicks_add]
    omega
  have ms : (advance (advance m a) b).dev.aonMs = (advance m (a + b)).dev.aonMs := by
    simp only [advance_aonMs, advance_aonAcc, aonTicks_add]
    omega
  have tick : (advance (advance m a) b).dev.aonTick = (advance m (a + b)).dev.aonTick := by
    simp only [advance_aonTick, advance_aonAcc, aonTicks_add, tickAfter_add hacc]
  rw [advance_dev, frac, acc, ms, tick, advance_dev m (a + b), show (advance m a).dev.now = m.dev.now + a from rfl, Nat.add_assoc]
  rfl

theorem advance_advance_presc :
    (advance (advance m a) b).wdh.presc = (advance m (a + b)).wdh.presc := by
  simp only [advance_presc, wdhCounts_advance]
  split <;> omega

theorem advance_advance_count :
    (advance (advance m a) b).wdh.count = (advance m (a + b)).wdh.count := by
  simp only [advance_count, advance_presc, advance_close, wdhCounts_advance]
  split <;> omega

end

/-! ### The order of contending samples (R80) -/

/-- `x` goes before `y`: of a class before `y`'s, or of the same and no later. -/
def goesBefore (x y : ApReq) : Bool := x.cls < y.cls || (x.cls = y.cls && x.atNs ≤ y.atNs)

theorem ins_cons (x y : ApReq) (t : List ApReq) :
    apOrder.ins x (y :: t) = if goesBefore x y then x :: y :: t else y :: apOrder.ins x t := rfl

theorem ins_perm (x : ApReq) : ∀ l : List ApReq, (apOrder.ins x l).Perm (x :: l)
  | [] => .refl _
  | y :: t => by
    rw [ins_cons]
    split
    · exact .refl _
    · exact ((ins_perm x t).cons y).trans (.swap x y t)

theorem ins_ordered (x : ApReq) : ∀ {l : List ApReq}, l.Pairwise (fun y z => y.cls ≤ z.cls) →
    (apOrder.ins x l).Pairwise fun y z => y.cls ≤ z.cls
  | [], _ => List.pairwise_singleton _ x
  | y :: t, ordered => by
    obtain ⟨first, rest⟩ := List.pairwise_cons.mp ordered
    rw [ins_cons]
    split
    case isTrue before =>
      have le : x.cls ≤ y.cls := by
        simp only [goesBefore, Bool.or_eq_true, Bool.and_eq_true, decide_eq_true_eq] at before
        omega
      refine List.pairwise_cons.mpr ⟨fun z hz => ?_, ordered⟩
      rcases List.mem_cons.mp hz with rfl | hz
      · exact le
      · exact Nat.le_trans le (first z hz)
    case isFalse notBefore =>
      have le : y.cls ≤ x.cls := by
        simp only [goesBefore, Bool.or_eq_true, Bool.and_eq_true, decide_eq_true_eq] at notBefore
        omega
      refine List.pairwise_cons.mpr ⟨fun z hz => ?_, ins_ordered x rest⟩
      rcases List.mem_cons.mp ((ins_perm x t).mem_iff.mp hz) with rfl | hz
      · exact le
      · exact first z hz

theorem apOrder_perm : ∀ l : List ApReq, (apOrder l).Perm l
  | [] => .refl _
  | x :: t => (ins_perm x _).trans ((apOrder_perm t).cons x)

theorem apOrder_ordered : ∀ l : List ApReq, (apOrder l).Pairwise fun x y => x.cls ≤ y.cls
  | [] => .nil
  | x :: t => ins_ordered x (apOrder_ordered t)

/-- A sample is dropped late, and of the classes of R80 that may be; until then it waits. -/
theorem mem_arbitrate (cap : Nat) (reqs : List ApReq) : ∀ (n i : Nat) (waiting : List ApReq), ∀ r ∈ arbitrate cap reqs n i waiting,
    (r ∈ waiting ∨ r ∈ reqs) ∧ (r.cls = 2 ∨ 4 ≤ r.cls)
  | 0, _, _, _, hr => absurd hr List.not_mem_nil
  | n + 1, i, waiting, r, hr => by
    have asked {x : ApReq} (hx : x ∈ (apOrder (waiting ++ reqs.filter fun r => r.atNs / 200 = i)).drop cap) :
        x ∈ waiting ∨ x ∈ reqs := by
      have := (apOrder_perm _).mem_iff.mp (List.mem_of_mem_drop hx)
      exact (List.mem_append.mp this).imp_right fun h => (List.mem_filter.mp h).1
    rw [arbitrate] at hr
    rcases List.mem_append.mp hr with now | later
    · obtain ⟨left, late⟩ := List.mem_filter.mp now
      refine ⟨asked left, ?_⟩
      simp only [Bool.and_eq_true, Bool.or_eq_true, decide_eq_true_eq] at late
      exact late.2
    · obtain ⟨known, cls⟩ := mem_arbitrate cap reqs n (i + 1) _ r later
      refine ⟨known.elim (fun h => asked (List.mem_filter.mp h).1) .inr, cls⟩

/-! ### The obligations -/

/-- Settles O25: 1 200 kOhm is 2 400 mV across 2 uA. -/
theorem moistureResistance : Obligations.MoistureResistance := by
  intro x
  have scale (n : Nat) : n * 1000 / 2 = n * 500 := by omega
  refine ⟨fun low => if_pos low, fun high low => ?_, fun high high' => ?_⟩
  · rw [pinOhm, if_neg (by omega), if_pos low, scale]
  · rw [pinOhm, if_neg (by omega), if_neg (by omega)]

/-- Settles O26: the clocks' registers are remainders of the time that has passed, and their carries add up. -/
theorem timeAddsUp : Obligations.TimeAddsUp := by
  refine ⟨fun m a b _ hacc _ => ?_, fun m n runs => ?_⟩
  · exact ⟨advance_advance_dev m a b hacc, advance_advance_count m a b, advance_advance_presc m a b⟩
  · simp only [advance_aonAcc, advance_aonMs, aonTicks, runs, if_true, and_self]

/-- Settles O28: an insertion sort by class, and an induction over the intervals. -/
theorem sampleArbitration : Obligations.SampleArbitration :=
  ⟨fun l => ⟨apOrder_perm l, apOrder_ordered l⟩, fun cap n i reqs waiting => mem_arbitrate cap reqs n i waiting⟩

/-- Settles O3: each word is computed from the state of `State.reset`. -/
theorem resetRegisters : Obligations.ResetRegisters := by
  unfold Obligations.ResetRegisters
  decide +kernel

/-- Settles O27: the ball map is a finite table, read ball by ball. -/
theorem ballGroups : Obligations.BallGroups := by
  refine ⟨?groups, ?whole, ?ports, ?channels, ?temperatures, ?taps⟩
  case groups => decide +kernel
  case whole => exact test_ball_counts
  case ports => decide +kernel
  case channels => decide +kernel
  case temperatures => decide +kernel
  case taps => decide +kernel

end Machine
end Sys2Proof
end

section
/-! Store profiles (R180, R181): a profile that breaks an order or a range does not fit, and the one in force stays. -/
namespace Sys2Proof
namespace Machine

theorem within_iff (x lo hi : Nat) : within x lo hi = true ↔ lo ≤ x ∧ x ≤ hi := by
  simp only [within, Bool.and_eq_true, decide_eq_true_eq]

/-- A profile in range has its cell voltages and its currents in order. -/
theorem profileOk_orders {p : List Byte} {lowCells : Nat} (h : profileOk p lowCells = true) {x : Profile}
    (hx : profileOf p = x) :
    (x.dead < x.cut ∧ x.cut < x.pre ∧ x.pre < x.maint ∧ x.maint ≤ x.rech ∧ x.rech < x.term ∧ x.term < x.ov) ∧
    (x.iTerm < x.iPre ∧ x.iPre ≤ x.iCc) := by
  simp only [profileOk, hx, Bool.and_eq_true, decide_eq_true_eq] at h
  obtain ⟨⟨⟨⟨⟨⟨⟨⟨-, dead⟩, cut⟩, pre⟩, maint⟩, rech⟩, term⟩, iTerm⟩, iPre⟩ := h
  exact ⟨⟨dead, cut, pre, maint, rech, term⟩, iTerm, iPre⟩

/-- SYS_FOLD as it would be with profile `x` in force. -/
def foldWith (m : Mach) (x : Profile) : Nat := (pathDerive (modChg m 0 fun c => { c with prof := x })).path.sysFold

/-- A profile that fits is in range, with a pack voltage that SYS_FOLD leaves to it. -/
theorem profileFits_requires {m : Mach} {p : List Byte} (h : profileFits m p = true) {x : Profile} (hx : profileOf p = x)
    {fold : Nat} (hfold : foldWith m x = fold) :
    profileOk p 4 = true ∧ pU p 39 1 < 16 ∧ fold + 500 ≤ x.cells * x.term ∧ x.cells * x.term ≤ 59000 := by
  simp only [profileFits, hx, ← foldWith.eq_1, hfold, Bool.and_eq_true, decide_eq_true_eq, within_iff] at h
  obtain ⟨⟨ok, mask⟩, pack⟩ := h
  exact ⟨ok, mask, pack⟩

theorem cmdStoProfileSet_outOfRange {m : Mach} (s : Nat) {p : List Byte} (h : profileFits m p = false) :
    cmdStoProfileSet m s p = .refuse .outOfRange := by
  rw [cmdStoProfileSet, h]
  rfl

/-- Settles O23: a profile that fits would meet every condition named. -/
theorem badProfilesAreRefused : Obligations.BadProfilesAreRefused := by
  intro qs m s hs hr p x fold breaks e
  have unfit : profileFits (begun m s) p = false := Bool.eq_false_iff.mpr fun fits => by
    obtain ⟨ok, mask, pack⟩ := profileFits_requires fits (x := x) rfl (fold := fold) rfl
    obtain ⟨voltages, currents⟩ := profileOk_orders ok (x := x) rfl
    exact breaks.elim (fun order => order voltages) fun breaks => breaks.elim (fun order => order currents) fun breaks =>
      breaks.elim (fun range => range pack) fun high => Nat.not_lt.mpr high mask
  refine ⟨?_, ?_⟩
  · show command 0x0401 s cmdStoProfileSet ⟨qs, m⟩ = _
    rw [command_of_ready hs hr, cmdStoProfileSet_outOfRange s unfit]
  · obtain ⟨frame, -, -⟩ := settle_refuse_answers m s .outOfRange
    rw [show e = _ from frame]
    rfl

end Machine
end Sys2Proof
end

section

/-!
# Completion: what a row answers where its conditions hold

The obligations of completion have one clause per row: under the clause's conditions `exec` answers the state the clause
writes out. Here is one lemma per shape of row (a mailbox command, an event of named units, an event whose readings are
rated, a PD message) and one per condition that a row tests. A clause is settled by the shape of its row, which the row
has by definition, and then by its conditions in the order in which the row tests them.
-/

namespace Sys2Proof
namespace Machine

variable {qs : List Instr} {m : Mach}

/-- A ready command on a slot of the device is settled with what its rules answer. -/
theorem command_completes {i : Instr} {code s : Nat} {h : Mach → Nat → List Byte → Ans} {a : Ans}
    (meaning : exec i ⟨qs, m⟩ = command code s h ⟨qs, m⟩) (hs : s < 5) (hr : ready m code s = true)
    (rules : h (begun m s) s (payload m s) = a) : exec i ⟨qs, m⟩ = .next ⟨qs, settle m s a⟩ := by
  rw [meaning, command_of_ready hs hr, rules]

/-- A refusal whose condition does not hold is passed over. -/
theorem passes {c : Bool} {st : Status} {l : List (Bool × Status)} {k a : Ans} (h : c = false)
    (rest : refuseFirst l k = a) : refuseFirst ((c, st) :: l) k = a := by
  rw [refuseFirst, h]; exact rest

/-- A ready command leaves its slot settled, whatever the row does afterwards. -/
theorem execute_completes {code s : Nat} {h : Mach → Nat → List Byte → Ans} {a : Ans} (hr : ready m code s = true)
    (rules : h (begun m s) s (payload m s) = a) : execute m code s h = settle m s a := by
  rw [execute, if_pos hr, rules]

/-- A row whose operands name units of the device does what its rules say. -/
theorem unit_completes {ok : Bool} {f : Mach → Mach} {e : Mach} (named : ok = true) (rules : f m = e) :
    guardUnit ok ⟨qs, m⟩ f = .next ⟨qs, e⟩ := by
  rw [named, guardUnit_true, next_eq, ← rules]

/-- The same of a row with a reading, where the reading lies within its ratings. -/
theorem read_completes {ok rated : Bool} {f : Mach → Mach} {e : Mach} (inRatings : rated = true) (named : ok = true)
    (rules : f m = e) : guardRead ok rated ⟨qs, m⟩ f = .next ⟨qs, e⟩ := by
  rw [guardRead, if_pos inRatings, unit_completes named rules]

/-- A row without operands does what its rules say. -/
theorem next_completes {e' e : Mach} (rules : e' = e) : next ⟨qs, m⟩ e' = .next ⟨qs, e⟩ := by
  rw [next_eq, rules]

/-- A row of a served Type-C port ends with the port's charging mode and its Rp judged again. -/
theorem pd_completes {port : Nat} {f : Mach → Mach} {e : Mach} (named : port < 48)
    (up : (attachedTypeC m port && served m port) = true) (rules : f m = e) :
    pdRow port ⟨qs, m⟩ f = .next ⟨qs, dcpEval (rpAvoid e port) port⟩ :=
  unit_completes (decide_eq_true named) (by rw [when, if_pos up, rules])

/-- A message whose GoodCRC no perturbation withholds, whose word reads, and whose port is not frozen is delivered. -/
theorem rx_completes {i : PdRx} {port : Nat} {f : Mach → Mach} {e : Mach} (named : port < 48)
    (up : (attachedTypeC m port && served m port) = true)
    (acknowledged : ¬(m.svc.ptbs.any fun b => b.kind = 5 && b.target = port && 0 < b.remaining) = true)
    (reads : m.mbx.eccPd.contains (tget m.serves 0 port) = false) (awake : frozen m port = false) (rules : f m = e) :
    rxRow i port ⟨qs, m⟩ f = .next ⟨qs, dcpEval (rpAvoid e port) port⟩ :=
  pd_completes named up (by
    rw [if_neg acknowledged, if_neg (Bool.eq_false_iff.mp reads), if_neg (Bool.eq_false_iff.mp awake), rules])

/-- An event occurs where its condition holds. -/
theorem occurs {c : Bool} {f : Mach → Mach} {e : Mach} (h : c = true) (rules : f m = e) : when c m f = e := by
  rw [when, if_pos h, rules]

/-- A timer that has a time comes due. -/
theorem comes_due {t : Option Nat} {d : Nat} {f : Mach → Mach} {e : Mach} (h : t = some d)
    (rules : f (advanceTo m d) = e) : fire m t f = e := by
  rw [h]; exact rules

/-- Settles O29: ready commands whose refusals do not apply; a change of state or a reset follows the answer. -/
theorem deviceAndPowerCommands : Obligations.DeviceAndPowerCommands := by
  refine ⟨?devInfoGet, ?devCmdCapsGet, ?devEcho, ?pwrStateSet, ?pwrReset, ?pwrStatGet, ?pwrWakeCfg⟩
  case devInfoGet =>
    exact fun _ _ _ hs hr => command_completes rfl hs hr rfl
  case devCmdCapsGet =>
    exact fun _ _ _ hs hr inRange => command_completes rfl hs hr <| passes (congrArg not inRange) rfl
  case devEcho =>
    exact fun _ _ _ hs hr => command_completes rfl hs hr rfl
  case pwrStateSet =>
    exact fun _ _ _ hs hr inRange inState noChange =>
      show execPwrStateSet _ _ = _ from unit_completes (decide_eq_true hs) <|
        (if_neg (by rw [noChange]; exact Bool.false_ne_true)).trans <|
          congrArg stateGo (execute_completes hr (passes inRange (passes inState rfl)))
  case pwrReset =>
    exact fun _ _ _ hs hr inRange inState =>
      show execPwrReset _ _ = _ from unit_completes (decide_eq_true hs) <|
        congrArg resetGo (execute_completes hr (passes inRange (passes inState rfl)))
  case pwrStatGet =>
    exact fun _ _ _ hs hr => command_completes rfl hs hr rfl
  case pwrWakeCfg =>
    exact fun _ _ _ hs hr inRange => command_completes rfl hs hr <| congrArg (persist _ _ _) (passes inRange rfl)

/-- Settles O30: ready commands whose refusals do not apply. -/
theorem sourceAndStoreCommands : Obligations.SourceAndStoreCommands := by
  refine ⟨?srcInputCfg, ?srcPathCfg, ?srcInputStatGet, ?srcMpptScan, ?srcSysTargetSet, ?stoProfileSet, ?stoTwinSet,
    ?stoChgCtrl, ?stoChgStatGet, ?stoAuxCfg⟩
  case srcInputCfg =>
    exact fun _ _ _ hs hr inRange => command_completes rfl hs hr <| passes inRange rfl
  case srcPathCfg =>
    exact fun _ _ _ hs hr inRange => command_completes rfl hs hr <| passes inRange rfl
  case srcInputStatGet =>
    exact fun _ _ _ hs hr inRange => command_completes rfl hs hr <| passes inRange rfl
  case srcMpptScan =>
    exact fun _ _ _ hs hr inRange inState => command_completes rfl hs hr <| passes inRange (passes inState rfl)
  case srcSysTargetSet =>
    exact fun _ _ _ hs hr inRange inState =>
      command_completes rfl hs hr <| passes (congrArg not inRange) (passes inState rfl)
  case stoProfileSet =>
    exact fun _ _ _ hs hr inRange => command_completes rfl hs hr <| passes (congrArg not inRange) rfl
  case stoTwinSet =>
    exact fun _ _ _ hs hr inRange => command_completes rfl hs hr <| passes (congrArg not inRange) rfl
  case stoChgCtrl =>
    exact fun _ _ _ hs hr inRange inState inState' =>
      command_completes rfl hs hr <| passes inRange (passes inState (passes inState' rfl))
  case stoChgStatGet =>
    exact fun _ _ _ hs hr inRange => command_completes rfl hs hr <| passes inRange rfl
  case stoAuxCfg =>
    exact fun _ _ _ hs hr inRange => command_completes rfl hs hr <| passes inRange rfl

/-- Settles O31: ready commands whose refusals do not apply; a port's configuration is stored as well. -/
theorem liftAndPortCommands : Obligations.LiftAndPortCommands := by
  refine ⟨?lftCfg, ?lftClassSet, ?lftBudgetGet, ?lftPassGet, ?prtCfg, ?prtStatGet, ?prtMoistGet, ?prtMoistClear,
    ?prtWashdown, ?prtUiCfg, ?prtUiEventGet, ?prtLedSet⟩
  case lftCfg =>
    exact fun _ _ _ hs hr inRange => command_completes rfl hs hr <| passes inRange rfl
  case lftClassSet =>
    exact fun _ _ _ hs hr inRange => command_completes rfl hs hr <| passes inRange rfl
  case lftBudgetGet =>
    exact fun _ _ _ hs hr => command_completes rfl hs hr rfl
  case lftPassGet =>
    exact fun _ _ _ hs hr inRange => command_completes rfl hs hr <| passes inRange rfl
  case prtCfg =>
    exact fun _ _ _ hs hr inRange inState =>
      command_completes rfl hs hr <| congrArg (persist _ _ _) (passes inRange (passes inState rfl))
  case prtStatGet =>
    exact fun _ _ _ hs hr inRange => command_completes rfl hs hr <| passes inRange rfl
  case prtMoistGet =>
    exact fun _ _ _ hs hr inRange => command_completes rfl hs hr <| passes inRange rfl
  case prtMoistClear =>
    exact fun _ _ _ hs hr privileged inRange =>
      command_completes rfl hs hr <| passes (congrArg not privileged) (passes inRange rfl)
  case prtWashdown =>
    exact fun _ _ _ hs hr inRange inState inState' =>
      command_completes rfl hs hr <| passes inRange (passes inState (passes inState' rfl))
  case prtUiCfg =>
    exact fun _ _ _ hs hr inRange => command_completes rfl hs hr <| passes inRange rfl
  case prtUiEventGet =>
    exact fun _ _ _ hs hr => command_completes rfl hs hr rfl
  case prtLedSet =>
    exact fun _ _ _ hs hr inRange => command_completes rfl hs hr <| passes inRange rfl

/-- Settles O32: ready commands whose refusals do not apply; the configurations of ports and bays are stored as well. -/
theorem pdAndBayCommands : Obligations.PdAndBayCommands := by
  refine ⟨?pdSrcCfg, ?pdSnkCfg, ?pdStatGet, ?pdDrSwapReq, ?pdReset, ?pdCoreStatGet, ?pdMigrate, ?bayCfg, ?bayKeySet,
    ?bayStatGet, ?bayRecordGet, ?bayKeyGet, ?bayRecordForget, ?bayReauth⟩
  case pdSrcCfg =>
    exact fun _ _ _ hs hr inRange => command_completes rfl hs hr <| congrArg (persistPorts _ _) (passes inRange rfl)
  case pdSnkCfg =>
    exact fun _ _ _ hs hr inRange => command_completes rfl hs hr <| congrArg (persistPorts _ _) (passes inRange rfl)
  case pdStatGet =>
    exact fun _ _ _ hs hr inRange => command_completes rfl hs hr <| passes inRange rfl
  case pdDrSwapReq =>
    exact fun _ _ _ hs hr inRange inState => command_completes rfl hs hr <| passes inRange (passes inState rfl)
  case pdReset =>
    exact fun _ _ _ hs hr privileged inRange inState =>
      command_completes rfl hs hr <| passes privileged (passes inRange (passes inState rfl))
  case pdCoreStatGet =>
    exact fun _ _ _ hs hr => command_completes rfl hs hr rfl
  case pdMigrate =>
    exact fun _ _ _ hs hr inRange idle unfenced =>
      command_completes rfl hs hr <| passes inRange (passes idle (passes unfenced rfl))
  case bayCfg =>
    exact fun _ _ _ hs hr inRange => command_completes rfl hs hr <| passes inRange rfl
  case bayKeySet =>
    exact fun _ _ _ hs hr privileged inRange inState =>
      command_completes rfl hs hr <|
        congrArg (persist _ _ _) (passes (congrArg not privileged) (passes inRange (passes inState rfl)))
  case bayStatGet =>
    exact fun _ _ _ hs hr inRange => command_completes rfl hs hr <| passes inRange rfl
  case bayRecordGet =>
    exact fun _ _ _ hs hr inRange => command_completes rfl hs hr <| passes inRange rfl
  case bayKeyGet =>
    exact fun _ _ _ hs hr => command_completes rfl hs hr rfl
  case bayRecordForget =>
    exact fun _ _ _ hs hr privileged inRange inState =>
      command_completes rfl hs hr <| passes (congrArg not privileged) (passes inRange (passes inState rfl))
  case bayReauth =>
    exact fun _ _ _ hs hr inRange inState =>
      command_completes rfl hs hr <| passes inRange (passes (congrArg not inState) rfl)

/-- Settles O33: ready commands whose refusals do not apply. -/
theorem estimatorAndThermalCommands : Obligations.EstimatorAndThermalCommands := by
  refine ⟨?estCfg, ?estCtxGet, ?estOcvSet, ?estOcvGet, ?estEisReq, ?estEisGet, ?estCtxSet, ?estRestReq, ?thmCfg,
    ?thmGroupsGet, ?thmSensorGet⟩
  case estCfg =>
    exact fun _ _ _ hs hr => command_completes rfl hs hr rfl
  case estCtxGet =>
    exact fun _ _ _ hs hr inRange => command_completes rfl hs hr <| passes inRange rfl
  case estOcvSet =>
    exact fun _ _ _ hs hr inRange => command_completes rfl hs hr <| passes inRange rfl
  case estOcvGet =>
    exact fun _ _ _ hs hr inRange => command_completes rfl hs hr <| passes (congrArg not inRange) rfl
  case estEisReq =>
    exact fun _ _ _ hs hr inRange inState => command_completes rfl hs hr <| passes inRange (passes inState rfl)
  case estEisGet =>
    exact fun _ _ _ hs hr inRange => command_completes rfl hs hr <| passes inRange rfl
  case estCtxSet =>
    exact fun _ _ _ hs hr privileged inRange inState =>
      command_completes rfl hs hr <| passes (congrArg not privileged) (passes inRange (passes inState rfl))
  case estRestReq =>
    exact fun _ _ _ hs hr inRange inState => command_completes rfl hs hr <| passes inRange (passes inState rfl)
  case thmCfg =>
    exact fun _ _ _ hs hr inRange => command_completes rfl hs hr <| congrArg (persist _ _ _) (passes inRange rfl)
  case thmGroupsGet =>
    exact fun _ _ _ hs hr => command_completes rfl hs hr rfl
  case thmSensorGet =>
    exact fun _ _ _ hs hr inRange => command_completes rfl hs hr <| passes inRange rfl

/-- Settles O34: ready commands whose refusals do not apply; the hold and watchdog settings are stored as well. -/
theorem faultAndWatchdogCommands : Obligations.FaultAndWatchdogCommands := by
  refine ⟨?fltDetailGet, ?fltClear, ?fltFence, ?bibHandover, ?grdHoldCfg, ?wdhCfgSet, ?wdsStatGet, ?wdCountGet⟩
  case fltDetailGet =>
    exact fun _ _ _ hs hr inRange => command_completes rfl hs hr <| passes (congrArg not inRange) rfl
  case fltClear =>
    exact fun _ _ _ hs hr inRange inState => command_completes rfl hs hr <| passes inRange (passes inState rfl)
  case fltFence =>
    exact fun _ _ _ hs hr inRange unfenced => command_completes rfl hs hr <| passes inRange (passes unfenced rfl)
  case bibHandover =>
    exact fun _ _ _ hs hr inState => command_completes rfl hs hr <| passes inState rfl
  case grdHoldCfg =>
    exact fun _ _ _ hs hr inRange =>
      command_completes rfl hs hr <| congrArg (persist _ _ _) (passes (congrArg not inRange) rfl)
  case wdhCfgSet =>
    exact fun _ _ _ hs hr unlocked inRange =>
      command_completes rfl hs hr <| congrArg (persist _ _ _) (passes unlocked (passes inRange rfl))
  case wdsStatGet =>
    exact fun _ _ _ hs hr => command_completes rfl hs hr rfl
  case wdCountGet =>
    exact fun _ _ _ hs hr => command_completes rfl hs hr rfl

/-- Settles O35: ready commands whose refusals do not apply. -/
theorem retentionJournalUpdateCommands : Obligations.RetentionJournalUpdateCommands := by
  refine ⟨?nvmRead, ?nvmWrite, ?nvmErase, ?nvmCounterGet, ?nvmSave, ?nvmPdwSet, ?jnlGet, ?jnlFind, ?updBegin,
    ?updData, ?updCommit, ?updAbort, ?updStatGet⟩
  case nvmRead =>
    exact fun _ _ _ hs hr inRange => command_completes rfl hs hr <| passes inRange rfl
  case nvmWrite =>
    exact fun _ _ _ hs hr privileged inRange => command_completes rfl hs hr <| passes privileged (passes inRange rfl)
  case nvmErase =>
    exact fun _ _ _ hs hr privileged inRange => command_completes rfl hs hr <| passes privileged (passes inRange rfl)
  case nvmCounterGet =>
    exact fun _ _ _ hs hr inRange => command_completes rfl hs hr <| passes inRange rfl
  case nvmSave =>
    exact fun _ _ _ hs hr inState => command_completes rfl hs hr <| passes (congrArg not inState) rfl
  case nvmPdwSet =>
    exact fun _ _ _ hs hr inRange => command_completes rfl hs hr <| passes (congrArg not inRange) rfl
  case jnlGet =>
    exact fun _ _ _ hs hr inRange => command_completes rfl hs hr <| passes (congrArg not inRange) rfl
  case jnlFind =>
    exact fun _ _ _ hs hr inRange => command_completes rfl hs hr <| passes inRange rfl
  case updBegin =>
    exact fun _ _ _ hs hr inRange idle => command_completes rfl hs hr <| passes inRange (passes idle rfl)
  case updData =>
    exact fun _ _ _ hs hr inRange inState => command_completes rfl hs hr <| passes inRange (passes inState rfl)
  case updCommit =>
    exact fun _ _ _ hs hr inState => command_completes rfl hs hr <| passes inState rfl
  case updAbort =>
    exact fun _ _ _ hs hr inState => command_completes rfl hs hr <| passes inState rfl
  case updStatGet =>
    exact fun _ _ _ hs hr => command_completes rfl hs hr rfl

/-- Settles O36: ready commands whose refusals do not apply; the link ends after the answer to SVC_LINK_STOP. -/
theorem serviceCommands : Obligations.ServiceCommands := by
  refine ⟨?svcLinkArm, ?svcLinkStop, ?svcAuthChallenge, ?svcAuthResponse, ?ptbUnlock, ?ptbSet, ?ptbClear, ?svcStatGet⟩
  case svcLinkArm =>
    exact fun _ _ _ hs hr inRange inState => command_completes rfl hs hr <| passes inRange (passes inState rfl)
  case svcLinkStop =>
    exact fun _ _ _ hs hr =>
      show execSvcLinkStop _ _ = _ from unit_completes (decide_eq_true hs) <|
        (if_pos hr).trans (congrArg (stavskaEnd · 8) (execute_completes hr rfl))
  case svcAuthChallenge =>
    exact fun _ _ _ hs hr => command_completes rfl hs hr rfl
  case svcAuthResponse =>
    exact fun _ _ _ hs hr => command_completes rfl hs hr rfl
  case ptbUnlock =>
    exact fun _ _ _ hs hr privileged inRange =>
      command_completes rfl hs hr <| passes (congrArg not privileged) (passes inRange rfl)
  case ptbSet =>
    exact fun _ _ _ hs hr unlocked inRange inState idle =>
      command_completes rfl hs hr <| passes unlocked (passes inRange (passes inState (passes idle rfl)))
  case ptbClear =>
    exact fun _ _ _ hs hr => command_completes rfl hs hr rfl
  case svcStatGet =>
    exact fun _ _ _ hs hr => command_completes rfl hs hr rfl

/-- Settles O37: ready commands whose refusals do not apply; a declaration is stored as well. -/
theorem converterCommands : Obligations.ConverterCommands := by
  refine ⟨?cnvDeclare, ?phsSelftest, ?phsStatusGet, ?cnvLoopCfg, ?cnvCoefWrite, ?cnvSetMap, ?cnvRefSet,
    ?cnvSpecStatsGet, ?cnvSpecResume, ?cnvProtCfg, ?cnvProtStatGet⟩
  case cnvDeclare =>
    exact fun _ _ _ hs hr inRange inRange' inRange'' inState inState' =>
      command_completes rfl hs hr <|
        congrArg (persist _ _ _)
          (passes inRange (passes inRange' (passes inRange'' (passes inState (passes inState' rfl)))))
  case phsSelftest =>
    exact fun _ _ _ hs hr inRange inState => command_completes rfl hs hr <| passes inRange (passes inState rfl)
  case phsStatusGet =>
    exact fun _ _ _ hs hr inRange => command_completes rfl hs hr <| passes inRange rfl
  case cnvLoopCfg =>
    exact fun _ _ _ hs hr inRange inState => command_completes rfl hs hr <| passes inRange (passes inState rfl)
  case cnvCoefWrite =>
    exact fun _ _ _ hs hr inRange inState => command_completes rfl hs hr <| passes inRange (passes inState rfl)
  case cnvSetMap =>
    exact fun _ _ _ hs hr inRange unfenced => command_completes rfl hs hr <| passes inRange (passes unfenced rfl)
  case cnvRefSet =>
    exact fun _ _ _ hs hr cond cond' => command_completes rfl hs hr <| passes cond (passes cond' rfl)
  case cnvSpecStatsGet =>
    exact fun _ _ _ hs hr inRange => command_completes rfl hs hr <| passes inRange rfl
  case cnvSpecResume =>
    exact fun _ _ _ hs hr inState => command_completes rfl hs hr <| passes (congrArg not inState) rfl
  case cnvProtCfg =>
    exact fun _ _ _ hs hr inRange => command_completes rfl hs hr <| passes inRange rfl
  case cnvProtStatGet =>
    exact fun _ _ _ hs hr inRange => command_completes rfl hs hr <| passes inRange rfl

end Machine
end Sys2Proof
end

section
/-! Completion of the events: the shape of a row is its definition's, its conditions come in the order it tests them. -/
namespace Sys2Proof
namespace Machine

/-- Settles O38: transactions of a host whose link is up, words and keys within their ranges, the device's own rows. -/
theorem hostLinkEvents : Obligations.HostLinkEvents := by
  refine ⟨?spiTransaction, ?i2cTransaction, ?wdhServe, ?wdhDisableSequence, ?wdhLockSet, ?mbxDoorbell, ?mbxAck,
    ?mbxSlotWrite, ?causeClear, ?registerWrite, ?mbxServe, ?commandOutcome, ?internalEntryFlush⟩
  case spiTransaction =>
    exact fun _ _ _ _ named cond =>
      show execSpiTransaction _ _ _ = _ from unit_completes named <| occurs cond <| rfl
  case i2cTransaction =>
    exact fun _ _ _ named cond =>
      show execI2cTransaction _ _ = _ from unit_completes named <| occurs cond <| rfl
  case wdhServe =>
    exact fun _ _ _ named unbarred =>
      show execWdhServe _ _ = _ from unit_completes (decide_eq_true named) (if_neg unbarred)
  case wdhDisableSequence =>
    exact fun _ _ _ named unbarred =>
      show execWdhDisableSequence _ _ = _ from unit_completes (decide_eq_true named) (if_neg unbarred)
  case wdhLockSet =>
    exact fun _ _ =>
      show execWdhLockSet _ = _ from next_completes rfl
  case mbxDoorbell =>
    exact fun _ _ _ named =>
      show execMbxDoorbell _ _ = _ from unit_completes (decide_eq_true named) rfl
  case mbxAck =>
    exact fun _ _ _ named =>
      show execMbxAck _ _ = _ from unit_completes (decide_eq_true named) rfl
  case mbxSlotWrite =>
    exact fun _ _ _ _ named =>
      show execMbxSlotWrite _ _ _ = _ from unit_completes named rfl
  case causeClear =>
    exact fun _ _ _ _ named =>
      show execCauseClear _ _ _ = _ from unit_completes named rfl
  case registerWrite =>
    exact fun _ _ _ _ named =>
      show execRegisterWrite _ _ _ = _ from unit_completes named rfl
  case mbxServe =>
    exact fun _ _ =>
      show execMbxServe _ = _ from next_completes rfl
  case commandOutcome =>
    exact fun _ _ _ _ _ named =>
      show execCommandOutcome _ _ _ _ = _ from unit_completes named rfl
  case internalEntryFlush =>
    exact fun _ _ =>
      show execInternalEntryFlush _ = _ from next_completes rfl

/-- Settles O39: each reset where its pin or timer asks for it, each step of a start once those before it are done. -/
theorem resetEvents : Obligations.ResetEvents := by
  refine ⟨?por, ?bor, ?pinReset, ?pprAuto, ?blkDone, ?ferAuto, ?ferDone, ?gdclkMissing, ?resetPhaseEnd, ?vpreGood,
    ?vioGood, ?strapLatch, ?recallComplete, ?configApply⟩
  case por =>
    exact fun _ _ =>
      show execPor _ = _ from next_completes rfl
  case bor =>
    exact fun _ _ _ cond =>
      show execBor _ _ = _ from next_completes <| occurs cond <| rfl
  case pinReset =>
    exact fun _ _ _ unbarred =>
      show execPinReset _ _ = _ from next_completes (if_neg unbarred)
  case pprAuto =>
    exact fun _ _ _ named _ due =>
      show execPprAuto _ _ = _ from unit_completes (decide_eq_true named) <| comes_due due <| rfl
  case blkDone =>
    exact fun _ _ _ named _ due =>
      show execBlkDone _ _ = _ from unit_completes named <| comes_due due <| rfl
  case ferAuto =>
    exact fun _ _ _ named _ due unbarred =>
      show execFerAuto _ _ = _ from unit_completes (decide_eq_true named) <| comes_due due <|
        if_neg (Bool.eq_false_iff.mp unbarred)
  case ferDone =>
    exact fun _ _ _ named _ due =>
      show execFerDone _ _ = _ from unit_completes (decide_eq_true named) <| comes_due due <| rfl
  case gdclkMissing =>
    exact fun _ _ =>
      show execGdclkMissing _ = _ from next_completes rfl
  case resetPhaseEnd =>
    exact fun _ _ _ rated cond =>
      show execResetPhaseEnd _ _ = _ from read_completes rated rfl <| occurs cond <| rfl
  case vpreGood =>
    exact fun _ _ _ _ cond =>
      show execVpreGood _ _ _ = _ from next_completes <| occurs cond <| rfl
  case vioGood =>
    exact fun _ _ cond =>
      show execVioGood _ = _ from next_completes <| occurs cond <| rfl
  case strapLatch =>
    exact fun _ _ _ _ _ named cond =>
      show execStrapLatch _ _ _ _ = _ from unit_completes named <| occurs cond <| rfl
  case recallComplete =>
    exact fun _ _ cond =>
      show execRecallComplete _ = _ from next_completes <| occurs cond <| rfl
  case configApply =>
    exact fun _ _ cond =>
      show execConfigApply _ = _ from next_completes <| occurs cond <| rfl

/-- Settles O40: a page write ends as its two attempts went; the other rows run where their conditions hold. -/
theorem retentionEvents : Obligations.RetentionEvents := by
  refine ⟨?holdCharged, ?storeStart, ?powerDownWarning, ?saveComplete, ?saveRegionErase, ?checkpoint,
    ?nvmPageWriteDone, ?learnedWriteDue, ?xinReturn⟩
  case holdCharged =>
    exact fun _ _ _ cond =>
      show execHoldCharged _ _ = _ from next_completes <| occurs cond <| rfl
  case storeStart =>
    exact fun _ _ _ _ rated cond =>
      show execStoreStart _ _ _ = _ from read_completes rated rfl <| occurs cond <| rfl
  case powerDownWarning =>
    exact fun _ _ _ _ _ named cond =>
      show execPowerDownWarning _ _ _ _ = _ from unit_completes (decide_eq_true named) <| occurs cond <| rfl
  case saveComplete =>
    exact fun _ _ _ cond =>
      show execSaveComplete _ _ = _ from next_completes <| occurs cond <| rfl
  case saveRegionErase =>
    exact fun _ _ cond =>
      show execSaveRegionErase _ = _ from next_completes <| occurs cond <| rfl
  case checkpoint =>
    exact fun _ _ _ due =>
      show execCheckpoint _ = _ from next_completes <| comes_due due <| rfl
  case nvmPageWriteDone =>
    exact fun _ _ _ _ _ writing =>
      show execNvmPageWriteDone _ _ _ = _ from next_completes (by rewrite [pageWriteDone, writing]; rfl)
  case learnedWriteDue =>
    exact fun _ _ _ named cond =>
      show execLearnedWriteDue _ _ = _ from unit_completes (decide_eq_true named) <| occurs cond <| rfl
  case xinReturn =>
    exact fun _ _ cond =>
      show execXinReturn _ = _ from next_completes <| occurs cond <| rfl

/-- Settles O41: each loss acts where the clock or the link it names is in use. -/
theorem clockAndLinkEvents : Obligations.ClockAndLinkEvents := by
  refine ⟨?mclkLoss, ?clkLoss, ?xinLoss, ?estclkLoss, ?dieLinkLoss, ?linkGlitch, ?feHeartbeatLoss, ?feWRejoin,
    ?aonclkLoss, ?usbclkLoss⟩
  case mclkLoss =>
    exact fun _ _ cond =>
      show execMclkLoss _ = _ from next_completes <| occurs cond <| rfl
  case clkLoss =>
    exact fun _ _ _ named cond unbarred =>
      show execClkLoss _ _ = _ from unit_completes named <| occurs cond <| if_neg unbarred
  case xinLoss =>
    exact fun _ _ cond =>
      show execXinLoss _ = _ from next_completes <| occurs cond <| rfl
  case estclkLoss =>
    exact fun _ _ =>
      show execEstclkLoss _ = _ from next_completes rfl
  case dieLinkLoss =>
    exact fun _ _ _ named cond =>
      show execDieLinkLoss _ _ = _ from unit_completes (decide_eq_true named) <| occurs cond <| rfl
  case linkGlitch =>
    exact fun _ _ _ named =>
      show execLinkGlitch _ _ = _ from unit_completes (decide_eq_true named) rfl
  case feHeartbeatLoss =>
    exact fun _ _ _ named =>
      show execFeHeartbeatLoss _ _ = _ from unit_completes (decide_eq_true named) rfl
  case feWRejoin =>
    exact fun _ _ cond =>
      show execFeWRejoin _ = _ from next_completes <| occurs cond <| rfl
  case aonclkLoss =>
    exact fun _ _ cond =>
      show execAonclkLoss _ = _ from next_completes <| occurs cond <| rfl
  case usbclkLoss =>
    exact fun _ _ =>
      show execUsbclkLoss _ = _ from next_completes rfl

/-- Settles O42: each row acts on a slot whose converter runs as its condition says. -/
theorem engineEvents : Obligations.EngineEvents := by
  refine ⟨?periodBoundary, ?speculation, ?resolve, ?shadowLoad, ?recovery, ?ctrlStarved, ?specSuspend, ?modeChange,
    ?peakTrip, ?senseSplit⟩
  case periodBoundary =>
    exact fun _ _ _ named cond =>
      show execPeriodBoundary _ _ = _ from unit_completes (decide_eq_true named) <| occurs cond <| rfl
  case speculation =>
    exact fun _ _ _ _ named cond =>
      show execSpeculation _ _ _ = _ from unit_completes (decide_eq_true named) <| occurs cond <| rfl
  case resolve =>
    exact fun _ _ _ _ named cond =>
      show execResolve _ _ _ = _ from unit_completes (decide_eq_true named) <| occurs cond <| rfl
  case shadowLoad =>
    exact fun _ _ _ named cond =>
      show execShadowLoad _ _ = _ from unit_completes (decide_eq_true named) <| occurs cond <| rfl
  case recovery =>
    exact fun _ _ _ named cond =>
      show execRecovery _ _ = _ from unit_completes (decide_eq_true named) <| occurs cond <| rfl
  case ctrlStarved =>
    exact fun _ _ _ named cond =>
      show execCtrlStarved _ _ = _ from unit_completes (decide_eq_true named) <| occurs cond <| rfl
  case specSuspend =>
    exact fun _ _ cond =>
      show execSpecSuspend _ = _ from next_completes <| occurs cond <| rfl
  case modeChange =>
    exact fun _ _ _ named cond =>
      show execModeChange _ _ = _ from unit_completes (decide_eq_true named) <| occurs cond <| rfl
  case peakTrip =>
    exact fun _ _ _ _ named cond =>
      show execPeakTrip _ _ _ = _ from unit_completes named <| occurs cond <| rfl
  case senseSplit =>
    exact fun _ _ _ _ _ _ named cond =>
      show execSenseSplit _ _ _ _ _ = _ from unit_completes named <| occurs cond <| rfl

/-- Settles O43: each row acts on a phase, or on the ADC unit that is calibrating, as its condition says. -/
theorem phaseAndAdcEvents : Obligations.PhaseAndAdcEvents := by
  refine ⟨?tmonOpen, ?stageFault, ?stageIdentify, ?phaseParkEnd, ?phaseSelftest, ?selftestDone, ?selftestDeferredRun,
    ?imonZeroCheck, ?adcRotation, ?adcHandover, ?adcCalDone, ?housekeepingRound⟩
  case tmonOpen =>
    exact fun _ _ _ _ named cond =>
      show execTmonOpen _ _ _ = _ from unit_completes (decide_eq_true named) <| occurs cond <| rfl
  case stageFault =>
    exact fun _ _ _ _ named cond =>
      show execStageFault _ _ _ = _ from unit_completes (decide_eq_true named) <| occurs cond <| rfl
  case stageIdentify =>
    exact fun _ _ _ _ named cond =>
      show execStageIdentify _ _ _ = _ from unit_completes (decide_eq_true named) <| occurs cond <| rfl
  case phaseParkEnd =>
    exact fun _ _ _ _ named _ due =>
      show execPhaseParkEnd _ _ _ = _ from unit_completes (decide_eq_true named) <| comes_due due <| rfl
  case phaseSelftest =>
    exact fun _ _ _ _ _ named cond =>
      show execPhaseSelftest _ _ _ _ = _ from unit_completes named <| occurs cond <| rfl
  case selftestDone =>
    exact fun _ _ _ named cond =>
      show execSelftestDone _ _ = _ from unit_completes (decide_eq_true named) <| occurs cond <| rfl
  case selftestDeferredRun =>
    exact fun _ _ _ _ named rated cond =>
      show execSelftestDeferredRun _ _ _ = _ from read_completes (decide_eq_true rated) (decide_eq_true named) <|
        occurs cond <| rfl
  case imonZeroCheck =>
    exact fun _ _ _ _ _ _ named cond unbarred =>
      show execImonZeroCheck _ _ _ _ _ = _ from unit_completes named <| occurs cond <| if_neg unbarred
  case adcRotation =>
    exact fun _ _ cond _ due =>
      show execAdcRotation _ = _ from next_completes <| occurs cond <| comes_due due <| rfl
  case adcHandover =>
    exact fun _ _ _ _ _ =>
      show execAdcHandover _ _ _ _ = _ from next_completes rfl
  case adcCalDone =>
    exact fun _ _ _ _ calibrating =>
      show execAdcCalDone _ _ = _ from next_completes (by rewrite [adcCalDone, calibrating]; rfl)
  case housekeepingRound =>
    exact fun _ _ _ named rated cond =>
      show execHousekeepingRound _ _ = _ from read_completes rated named <| occurs cond <| rfl

/-- Settles O44: each detector acts on a converter it judges, each timer when it comes due. -/
theorem converterProtectionEvents : Obligations.ConverterProtectionEvents := by
  refine ⟨?prebiasCheck, ?prebiasRetry, ?backdriveClear, ?shortDetect, ?hiccupRetry, ?hiccupCountReset, ?ovDetect,
    ?uvDetect, ?phaseOpen, ?senseRail, ?senseRipple, ?derateEnd⟩
  case prebiasCheck =>
    exact fun _ _ _ _ named rated cond =>
      show execPrebiasCheck _ _ _ = _ from read_completes rated (decide_eq_true named) <| occurs cond <| rfl
  case prebiasRetry =>
    exact fun _ _ _ _ named rated cond _ due =>
      show execPrebiasRetry _ _ _ = _ from read_completes rated (decide_eq_true named) <| occurs cond <|
        comes_due due <| rfl
  case backdriveClear =>
    exact fun _ _ _ _ named rated cond =>
      show execBackdriveClear _ _ _ = _ from read_completes (decide_eq_true rated) (decide_eq_true named) <|
        occurs cond <| rfl
  case shortDetect =>
    exact fun _ _ _ _ _ _ named rated =>
      show execShortDetect _ _ _ _ _ = _ from read_completes (decide_eq_true rated) (decide_eq_true named) rfl
  case hiccupRetry =>
    exact fun _ _ _ named _ due cond unbarred =>
      show execHiccupRetry _ _ = _ from unit_completes (decide_eq_true named) <| comes_due due <| occurs cond <|
        if_neg unbarred
  case hiccupCountReset =>
    exact fun _ _ _ named _ due =>
      show execHiccupCountReset _ _ = _ from unit_completes (decide_eq_true named) <| comes_due due <| rfl
  case ovDetect =>
    exact fun _ _ _ _ _ named rated cond unbarred =>
      show execOvDetect _ _ _ _ = _ from read_completes (decide_eq_true rated) (decide_eq_true named) <|
        occurs cond <| if_neg unbarred
  case uvDetect =>
    exact fun _ _ _ _ _ _ named rated cond =>
      show execUvDetect _ _ _ _ _ = _ from read_completes (decide_eq_true rated) (decide_eq_true named) <|
        occurs cond <| rfl
  case phaseOpen =>
    exact fun _ _ _ _ _ _ _ named cond =>
      show execPhaseOpen _ _ _ _ _ _ = _ from unit_completes (decide_eq_true named) <| occurs cond <| rfl
  case senseRail =>
    exact fun _ _ _ _ _ named rated cond =>
      show execSenseRail _ _ _ _ = _ from read_completes (decide_eq_true rated) named <| occurs cond <| rfl
  case senseRipple =>
    exact fun _ _ _ _ _ _ named cond =>
      show execSenseRipple _ _ _ _ _ = _ from unit_completes named <| occurs cond <| rfl
  case derateEnd =>
    exact fun _ _ _ named _ due =>
      show execDerateEnd _ _ = _ from unit_completes (decide_eq_true named) <| comes_due due <| rfl

/-- Settles O45: each reading within its ratings acts where no condition bars it. -/
theorem pathAndInputEvents : Obligations.PathAndInputEvents := by
  refine ⟨?bfetModeEval, ?bfetTransitionDone, ?reverseComparator, ?linearUpdate, ?linOverload, ?inputPresent,
    ?inputAbsent, ?inOv, ?inOvRecover, ?inputReverse, ?inputReverseRestart, ?vehicleSystemDetect, ?vehiclePark,
    ?vehicleUnpark⟩
  case bfetModeEval =>
    exact fun _ _ _ rated unbarred unbarred' unbarred'' =>
      show execBfetModeEval _ _ = _ from read_completes rated rfl <| (if_neg unbarred).trans <|
        (if_neg unbarred').trans <| if_neg unbarred''
  case bfetTransitionDone =>
    exact fun _ _ cond _ due =>
      show execBfetTransitionDone _ = _ from unit_completes rfl <| occurs (decide_eq_true cond) <| comes_due due <|
        rfl
  case reverseComparator =>
    exact fun _ _ _ cond =>
      show execReverseComparator _ _ = _ from unit_completes rfl <| occurs cond <| rfl
  case linearUpdate =>
    exact fun _ _ _ _ _ rated cond =>
      show execLinearUpdate _ _ _ _ = _ from read_completes rated rfl <| occurs (decide_eq_true cond) <| rfl
  case linOverload =>
    exact fun _ _ _ _ _ rated cond =>
      show execLinOverload _ _ _ _ = _ from read_completes rated rfl <| occurs cond <| rfl
  case inputPresent =>
    exact fun _ _ _ _ named rated unbarred =>
      show execInputPresent _ _ _ = _ from read_completes rated (decide_eq_true named) (if_neg unbarred)
  case inputAbsent =>
    exact fun _ _ _ _ named rated unbarred =>
      show execInputAbsent _ _ _ = _ from read_completes rated (decide_eq_true named) (if_neg unbarred)
  case inOv =>
    exact fun _ _ _ _ named rated unbarred =>
      show execInOv _ _ _ = _ from read_completes rated (decide_eq_true named) (if_neg unbarred)
  case inOvRecover =>
    exact fun _ _ _ _ named rated cond =>
      show execInOvRecover _ _ _ = _ from read_completes rated (decide_eq_true named) <| occurs cond <| rfl
  case inputReverse =>
    exact fun _ _ _ _ named cond =>
      show execInputReverse _ _ _ = _ from unit_completes (decide_eq_true named) <| occurs cond <| rfl
  case inputReverseRestart =>
    exact fun _ _ _ named _ due =>
      show execInputReverseRestart _ _ = _ from unit_completes (decide_eq_true named) <| comes_due due <| rfl
  case vehicleSystemDetect =>
    exact fun _ _ _ _ named rated _ due =>
      show execVehicleSystemDetect _ _ _ = _ from read_completes rated (decide_eq_true named) <| comes_due due <| rfl
  case vehiclePark =>
    exact fun _ _ _ _ named rated cond =>
      show execVehiclePark _ _ _ = _ from read_completes rated (decide_eq_true named) <| occurs cond <| rfl
  case vehicleUnpark =>
    exact fun _ _ _ _ named rated cond =>
      show execVehicleUnpark _ _ _ = _ from read_completes rated (decide_eq_true named) <| occurs cond <| rfl

/-- Settles O46: each reading within its ratings acts where no condition bars it, each timer when it comes due. -/
theorem sourceEvents : Obligations.SourceEvents := by
  refine ⟨?donorLimitUpdate, ?donorWithdraw, ?mpptStep, ?mpptScan, ?mpptScanEnd, ?sysLow, ?sysRecover, ?cableBoot,
    ?bootCapsTimeout, ?bootSinkLoss, ?storeRemoval, ?storeAccept, ?shipInputWake⟩
  case donorLimitUpdate =>
    exact fun _ _ _ _ cond =>
      show execDonorLimitUpdate _ _ _ = _ from unit_completes rfl <| occurs cond <| rfl
  case donorWithdraw =>
    exact fun _ _ _ named cond _ due =>
      show execDonorWithdraw _ _ = _ from unit_completes (decide_eq_true named) <| occurs cond <| comes_due due <| rfl
  case mpptStep =>
    exact fun _ _ _ _ _ named cond =>
      show execMpptStep _ _ _ _ = _ from unit_completes (decide_eq_true named) <| occurs cond <| rfl
  case mpptScan =>
    exact fun _ _ _ named cond _ due =>
      show execMpptScan _ _ = _ from unit_completes (decide_eq_true named) <| occurs cond <| comes_due due <| rfl
  case mpptScanEnd =>
    exact fun _ _ _ _ named rated _ due =>
      show execMpptScanEnd _ _ _ = _ from read_completes rated (decide_eq_true named) <| comes_due due <| rfl
  case sysLow =>
    exact fun _ _ _ rated unbarred unbarred' =>
      show execSysLow _ _ = _ from read_completes rated rfl <| (if_neg unbarred).trans <| if_neg unbarred'
  case sysRecover =>
    exact fun _ _ _ rated unbarred =>
      show execSysRecover _ _ = _ from read_completes rated rfl (if_neg unbarred)
  case cableBoot =>
    exact fun _ _ _ _ _ named rated cond =>
      show execCableBoot _ _ _ _ = _ from read_completes (decide_eq_true rated) named <| occurs cond <| rfl
  case bootCapsTimeout =>
    exact fun _ _ _ named cond _ due unbarred unbarred' =>
      show execBootCapsTimeout _ _ = _ from unit_completes (decide_eq_true named) <| occurs (decide_eq_true cond) <|
        comes_due due <| (if_neg unbarred).trans <| if_neg unbarred'
  case bootSinkLoss =>
    exact fun _ _ _ _ _ _ named rated cond =>
      show execBootSinkLoss _ _ _ _ _ = _ from read_completes rated (decide_eq_true named) <|
        occurs (decide_eq_true cond) <| rfl
  case storeRemoval =>
    exact fun _ _ _ _ _ _ _ named rated unbarred =>
      show execStoreRemoval _ _ _ _ _ _ = _ from read_completes rated (decide_eq_true named) (if_neg unbarred)
  case storeAccept =>
    exact fun _ _ _ rated unbarred =>
      show execStoreAccept _ _ = _ from read_completes rated rfl (if_neg unbarred)
  case shipInputWake =>
    exact fun _ _ _ _ named rated cond =>
      show execShipInputWake _ _ _ = _ from read_completes rated (decide_eq_true named) <| occurs cond <| rfl

/-- Settles O47: each reading within its ratings acts where no condition bars it, each timer when it comes due. -/
theorem chargeEvents : Obligations.ChargeEvents := by
  refine ⟨?chgEval, ?vChgUpdate, ?chgTimerSecond, ?chgTimerExpire, ?chgOc, ?chgOcPersist, ?cellOv, ?cutoff, ?dsgOc,
    ?auxPolicyChange, ?auxHoldExpire, ?cellTapFastLane⟩
  case chgEval =>
    exact fun _ _ _ _ _ named rated =>
      show execChgEval _ _ _ _ = _ from read_completes rated (decide_eq_true named) rfl
  case vChgUpdate =>
    exact fun _ _ _ _ named cond =>
      show execVChgUpdate _ _ _ = _ from unit_completes (decide_eq_true named) <| occurs cond <| rfl
  case chgTimerSecond =>
    exact fun _ _ _ _ _ _ _ named rated =>
      show execChgTimerSecond _ _ _ _ _ _ = _ from read_completes rated (decide_eq_true named) rfl
  case chgTimerExpire =>
    exact fun _ _ _ named =>
      show execChgTimerExpire _ _ = _ from unit_completes (decide_eq_true named) rfl
  case chgOc =>
    exact fun _ _ _ _ named =>
      show execChgOc _ _ _ = _ from unit_completes (decide_eq_true named) rfl
  case chgOcPersist =>
    exact fun _ _ _ _ named _ due =>
      show execChgOcPersist _ _ _ = _ from unit_completes (decide_eq_true named) <| comes_due due <| rfl
  case cellOv =>
    exact fun _ _ _ _ named rated =>
      show execCellOv _ _ _ = _ from read_completes (decide_eq_true rated) (decide_eq_true named) rfl
  case cutoff =>
    exact fun _ _ _ _ _ _ runsOut =>
      show execCutoff _ _ _ _ _ = _ from next_completes (by rw [cutoff, if_neg runsOut])
  case dsgOc =>
    exact fun _ _ _ unbarred =>
      show execDsgOc _ _ = _ from unit_completes rfl (if_neg unbarred)
  case auxPolicyChange =>
    exact fun _ _ =>
      show execAuxPolicyChange _ = _ from unit_completes rfl rfl
  case auxHoldExpire =>
    exact fun _ _ _ due =>
      show execAuxHoldExpire _ = _ from unit_completes rfl <| comes_due due <| rfl
  case cellTapFastLane =>
    exact fun _ _ _ named rated cond =>
      show execCellTapFastLane _ _ = _ from read_completes rated (decide_eq_true named) <| occurs cond <| rfl

/-- Settles O48: each row acts where no condition bars it; a granted rest ends at its time. -/
theorem liftEvents : Obligations.LiftEvents := by
  refine ⟨?liftCycle, ?passRequest, ?grantDelivery, ?passExcess, ?reclaimHardReset, ?restGrantEnd, ?eisGrantEnd⟩
  case liftCycle =>
    exact fun _ _ _ unbarred =>
      show execLiftCycle _ _ = _ from unit_completes rfl (if_neg unbarred)
  case passRequest =>
    exact fun _ _ _ _ named cond =>
      show execPassRequest _ _ _ = _ from unit_completes (decide_eq_true named) <| occurs cond <| rfl
  case grantDelivery =>
    exact fun _ _ _ named unbarred =>
      show execGrantDelivery _ _ = _ from unit_completes (decide_eq_true named) (if_neg unbarred)
  case passExcess =>
    exact fun _ _ _ _ named unbarred unbarred' =>
      show execPassExcess _ _ _ = _ from unit_completes (decide_eq_true named) <| (if_neg unbarred).trans <|
        if_neg unbarred'
  case reclaimHardReset =>
    exact fun _ _ _ named _ due =>
      show execReclaimHardReset _ _ = _ from unit_completes (decide_eq_true named) <| comes_due due <| rfl
  case restGrantEnd =>
    exact fun _ _ _ _ resting =>
      show execRestGrantEnd _ _ = _ from unit_completes rfl (by rewrite [restGrantEnd, resting]; rfl)
  case eisGrantEnd =>
    exact fun _ _ _ named =>
      show execEisGrantEnd _ _ = _ from unit_completes (decide_eq_true named) rfl

/-- Settles O49: each row acts on a port in the state its condition names, each timer when it comes due. -/
theorem typeCEvents : Obligations.TypeCEvents := by
  refine ⟨?rdDetect, ?ccDebounce, ?attachedSrc, ?sourceDetach, ?sinkDetach, ?sinkAttach, ?drpToggle, ?tryTimeout,
    ?errorRecoveryEnd, ?accessoryDetect, ?vconnOc, ?moistureCheck, ?moistureCheckDone, ?washdownAutoExit,
    ?ccOvervoltage, ?ccPinReconnect⟩
  case rdDetect =>
    exact fun _ _ _ _ _ named cond =>
      show execRdDetect _ _ _ _ = _ from unit_completes named <| occurs cond <| rfl
  case ccDebounce =>
    exact fun _ _ _ named _ due =>
      show execCcDebounce _ _ = _ from unit_completes (decide_eq_true named) <| comes_due due <| rfl
  case attachedSrc =>
    exact fun _ _ _ named cond =>
      show execAttachedSrc _ _ = _ from unit_completes (decide_eq_true named) <| occurs cond <| rfl
  case sourceDetach =>
    exact fun _ _ _ named =>
      show execSourceDetach _ _ = _ from unit_completes (decide_eq_true named) rfl
  case sinkDetach =>
    exact fun _ _ _ _ _ named rated =>
      show execSinkDetach _ _ _ _ = _ from read_completes (decide_eq_true rated) (decide_eq_true named) rfl
  case sinkAttach =>
    exact fun _ _ _ _ _ named cond =>
      show execSinkAttach _ _ _ _ = _ from unit_completes named <| occurs cond <| rfl
  case drpToggle =>
    exact fun _ _ _ named _ due =>
      show execDrpToggle _ _ = _ from unit_completes (decide_eq_true named) <| comes_due due <| rfl
  case tryTimeout =>
    exact fun _ _ _ named _ due =>
      show execTryTimeout _ _ = _ from unit_completes (decide_eq_true named) <| comes_due due <| rfl
  case errorRecoveryEnd =>
    exact fun _ _ _ named _ due =>
      show execErrorRecoveryEnd _ _ = _ from unit_completes (decide_eq_true named) <| comes_due due <| rfl
  case accessoryDetect =>
    exact fun _ _ _ _ named unbarred =>
      show execAccessoryDetect _ _ _ = _ from unit_completes (decide_eq_true named) (if_neg unbarred)
  case vconnOc =>
    exact fun _ _ _ _ _ named unbarred =>
      show execVconnOc _ _ _ _ = _ from unit_completes (decide_eq_true named) (if_neg unbarred)
  case moistureCheck =>
    exact fun _ _ _ named cond _ due =>
      show execMoistureCheck _ _ = _ from unit_completes (decide_eq_true named) <| occurs cond <| comes_due due <| rfl
  case moistureCheckDone =>
    exact fun _ _ _ _ named _ due =>
      show execMoistureCheckDone _ _ _ = _ from unit_completes (decide_eq_true named) <| comes_due due <| rfl
  case washdownAutoExit =>
    exact fun _ _ cond =>
      show execWashdownAutoExit _ = _ from next_completes <| occurs cond <| rfl
  case ccOvervoltage =>
    exact fun _ _ _ _ _ named rated unbarred =>
      show execCcOvervoltage _ _ _ _ = _ from read_completes (decide_eq_true rated) named (if_neg unbarred)
  case ccPinReconnect =>
    exact fun _ _ _ _ _ named rated cond =>
      show execCcPinReconnect _ _ _ _ = _ from read_completes (decide_eq_true rated) named <|
        occurs (decide_eq_true cond) <| rfl

/-- Settles O50: each row acts on a key or window that is there, each timer when it comes due. -/
theorem userInterfaceEvents : Obligations.UserInterfaceEvents := by
  refine ⟨?uiFrame, ?holdReached, ?longHoldReached, ?stuck, ?serviceWindowEnd, ?baselineReseed, ?armExpire⟩
  case uiFrame =>
    exact fun _ _ _ named rated cond unbarred =>
      show execUiFrame _ _ = _ from read_completes rated (decide_eq_true named) <| occurs cond <| if_neg unbarred
  case holdReached =>
    exact fun _ _ _ named cond _ due =>
      show execHoldReached _ _ = _ from unit_completes (decide_eq_true named) <| occurs cond <| comes_due due <| rfl
  case longHoldReached =>
    exact fun _ _ _ named cond _ due =>
      show execLongHoldReached _ _ = _ from unit_completes (decide_eq_true named) <| occurs cond <| comes_due due <|
        rfl
  case stuck =>
    exact fun _ _ _ named cond _ due =>
      show execStuck _ _ = _ from unit_completes (decide_eq_true named) <| occurs cond <| comes_due due <| rfl
  case serviceWindowEnd =>
    exact fun _ _ _ named _ due =>
      show execServiceWindowEnd _ _ = _ from unit_completes (decide_eq_true named) <| comes_due due <| rfl
  case baselineReseed =>
    exact fun _ _ _ _ named rated cond =>
      show execBaselineReseed _ _ _ = _ from read_completes (decide_eq_true rated) (decide_eq_true named) <|
        occurs cond <| rfl
  case armExpire =>
    exact fun _ _ _ due =>
      show execArmExpire _ = _ from unit_completes rfl <| comes_due due <| rfl

/-- Settles O51: each message that is acknowledged, reads and meets no freeze is taken by its rule. -/
theorem pdMessages : Obligations.PdMessages := by
  refine ⟨?pdSourceCapabilitiesRx, ?pdRequestRx, ?pdAcceptRx, ?pdRejectRx, ?pdPsRdyRx, ?pdSoftResetRx, ?pdHardReset,
    ?pdDrSwapRx, ?pdEprModeRx, ?pdEprKeepaliveRx, ?pdGetCapRx, ?pdInfoQueryRx, ?pdUnsupportedRx, ?pdAlertRx,
    ?pdVendorDefinedRx, ?pdCableIdentityRx, ?pdBistRx, ?pdSinkCapabilitiesRx, ?cableResetRx⟩
  case pdSourceCapabilitiesRx =>
    exact fun _ _ _ _ _ _ _ named up acknowledged reads awake unbarred =>
      show execPdSourceCapabilitiesRx _ _ _ _ _ _ = _ from
        rx_completes named up acknowledged reads awake (if_neg unbarred)
  case pdRequestRx =>
    exact fun _ _ _ _ named up acknowledged reads awake unbarred =>
      show execPdRequestRx _ _ _ = _ from rx_completes named up acknowledged reads awake (if_neg unbarred)
  case pdAcceptRx =>
    exact fun _ _ _ _ named up acknowledged reads awake =>
      show execPdAcceptRx _ _ _ = _ from rx_completes named up acknowledged reads awake rfl
  case pdRejectRx =>
    exact fun _ _ _ _ named up acknowledged reads awake =>
      show execPdRejectRx _ _ _ = _ from rx_completes named up acknowledged reads awake rfl
  case pdPsRdyRx =>
    exact fun _ _ _ named up acknowledged reads awake unbarred _ requested =>
      show execPdPsRdyRx _ _ = _ from rx_completes named up acknowledged reads awake
        (by rewrite [psRdyRx, if_neg unbarred, requested]; rfl)
  case pdSoftResetRx =>
    exact fun _ _ _ named up acknowledged reads awake =>
      show execPdSoftResetRx _ _ = _ from rx_completes named up acknowledged reads awake rfl
  case pdHardReset =>
    exact fun _ _ _ _ named cond =>
      show execPdHardReset _ _ _ = _ from unit_completes (decide_eq_true named) <| occurs cond <| rfl
  case pdDrSwapRx =>
    exact fun _ _ _ named up acknowledged reads awake =>
      show execPdDrSwapRx _ _ = _ from rx_completes named up acknowledged reads awake rfl
  case pdEprModeRx =>
    exact fun _ _ _ _ named up acknowledged reads awake =>
      show execPdEprModeRx _ _ _ = _ from rx_completes named up acknowledged reads awake rfl
  case pdEprKeepaliveRx =>
    exact fun _ _ _ named up acknowledged reads awake =>
      show execPdEprKeepaliveRx _ _ = _ from rx_completes named up acknowledged reads awake rfl
  case pdGetCapRx =>
    exact fun _ _ _ _ _ named up acknowledged reads awake =>
      show execPdGetCapRx _ _ _ _ = _ from rx_completes named up acknowledged reads awake rfl
  case pdInfoQueryRx =>
    exact fun _ _ _ _ named up acknowledged reads awake =>
      show execPdInfoQueryRx _ _ _ = _ from rx_completes named up acknowledged reads awake rfl
  case pdUnsupportedRx =>
    exact fun _ _ _ named up acknowledged reads awake =>
      show execPdUnsupportedRx _ _ = _ from rx_completes named up acknowledged reads awake rfl
  case pdAlertRx =>
    exact fun _ _ _ _ named up acknowledged reads awake =>
      show execPdAlertRx _ _ _ = _ from rx_completes named up acknowledged reads awake rfl
  case pdVendorDefinedRx =>
    exact fun _ _ _ _ named up acknowledged reads awake =>
      show execPdVendorDefinedRx _ _ _ = _ from rx_completes named up acknowledged reads awake rfl
  case pdCableIdentityRx =>
    exact fun _ _ _ _ _ _ named up unbarred unbarred' =>
      show execPdCableIdentityRx _ _ _ _ _ = _ from pd_completes named up <| (if_neg unbarred).trans <|
        if_neg unbarred'
  case pdBistRx =>
    exact fun _ _ _ _ _ named up acknowledged reads awake =>
      show execPdBistRx _ _ _ _ = _ from rx_completes named up acknowledged reads awake rfl
  case pdSinkCapabilitiesRx =>
    exact fun _ _ _ _ named up acknowledged reads awake =>
      show execPdSinkCapabilitiesRx _ _ _ = _ from rx_completes named up acknowledged reads awake rfl
  case cableResetRx =>
    exact fun _ _ _ named =>
      show execCableResetRx _ _ = _ from unit_completes (decide_eq_true named) rfl

/-- Settles O52: each timer of a served port comes due. -/
theorem pdTransmissionTimers : Obligations.PdTransmissionTimers := by
  refine ⟨?pdRetransmit, ?pdTxFail, ?senderResponseTimeout, ?psTransitionTimeout, ?srcTransitionStart,
    ?transitionSettled, ?sendSourceCap, ?noResponseTimeout, ?sinkEprKeepalive, ?ppsRequestRepeat⟩
  case pdRetransmit =>
    exact fun _ _ _ named cond _ due =>
      show execPdRetransmit _ _ = _ from unit_completes (decide_eq_true named) <| occurs (decide_eq_true cond) <|
        comes_due due <| rfl
  case pdTxFail =>
    exact fun _ _ _ named up cond =>
      show execPdTxFail _ _ = _ from pd_completes named up <| occurs cond <| rfl
  case senderResponseTimeout =>
    exact fun _ _ _ named up _ due =>
      show execSenderResponseTimeout _ _ = _ from pd_completes named up <| comes_due due <| rfl
  case psTransitionTimeout =>
    exact fun _ _ _ named up cond _ due =>
      show execPsTransitionTimeout _ _ = _ from pd_completes named up <| occurs cond <| comes_due due <| rfl
  case srcTransitionStart =>
    exact fun _ _ _ named up source _ due _ requested =>
      show execSrcTransitionStart _ _ = _ from pd_completes named up <| occurs source <| comes_due due
        (by rewrite [srcTransitionStart, requested]; rfl)
  case transitionSettled =>
    exact fun _ _ _ _ named rated cond =>
      show execTransitionSettled _ _ _ = _ from read_completes (decide_eq_true rated) (decide_eq_true named) <|
        occurs cond <| rfl
  case sendSourceCap =>
    exact fun _ _ _ named up cond _ due =>
      show execSendSourceCap _ _ = _ from pd_completes named up <| occurs cond <| comes_due due <| rfl
  case noResponseTimeout =>
    exact fun _ _ _ named up _ due =>
      show execNoResponseTimeout _ _ = _ from pd_completes named up <| comes_due due <| rfl
  case sinkEprKeepalive =>
    exact fun _ _ _ named up cond _ due =>
      show execSinkEprKeepalive _ _ = _ from pd_completes named up <| occurs cond <| comes_due due <| rfl
  case ppsRequestRepeat =>
    exact fun _ _ _ named up cond _ due =>
      show execPpsRequestRepeat _ _ = _ from pd_completes named up <| occurs cond <| comes_due due <| rfl

/-- Settles O53: each timer comes due, and a migration is done at a message boundary. -/
theorem pdRecoveryEvents : Obligations.PdRecoveryEvents := by
  refine ⟨?sourceEprKeepaliveTimeout, ?ppsTimeout, ?discoverIdentityRetry, ?hardResetStop, ?srcRecover,
    ?ppsUndervoltage, ?pdMigration, ?migrationAbandon, ?pdCoreFence, ?sinkHardReset, ?sinkVbusRestored, ?sinkRpChange⟩
  case sourceEprKeepaliveTimeout =>
    exact fun _ _ _ named up cond _ due =>
      show execSourceEprKeepaliveTimeout _ _ = _ from pd_completes named up <| occurs cond <| comes_due due <| rfl
  case ppsTimeout =>
    exact fun _ _ _ named up cond _ due =>
      show execPpsTimeout _ _ = _ from pd_completes named up <| occurs cond <| comes_due due <| rfl
  case discoverIdentityRetry =>
    exact fun _ _ _ named up _ due =>
      show execDiscoverIdentityRetry _ _ = _ from pd_completes named up <| comes_due due <| rfl
  case hardResetStop =>
    exact fun _ _ _ named _ due =>
      show execHardResetStop _ _ = _ from unit_completes (decide_eq_true named) <| comes_due due <| rfl
  case srcRecover =>
    exact fun _ _ _ named _ due =>
      show execSrcRecover _ _ = _ from unit_completes (decide_eq_true named) <| comes_due due <| rfl
  case ppsUndervoltage =>
    exact fun _ _ _ _ named rated cond =>
      show execPpsUndervoltage _ _ _ = _ from read_completes (decide_eq_true rated) (decide_eq_true named) <|
        occurs cond <| rfl
  case pdMigration =>
    exact fun _ _ _ named _ pending boundary =>
      show execPdMigration _ _ = _ from unit_completes (decide_eq_true named)
        (by rewrite [pdMigration, pending]; exact if_neg boundary)
  case migrationAbandon =>
    exact fun _ _ _ named _ due =>
      show execMigrationAbandon _ _ = _ from unit_completes (decide_eq_true named) <| comes_due due <| rfl
  case pdCoreFence =>
    exact fun _ _ _ named =>
      show execPdCoreFence _ _ = _ from unit_completes (decide_eq_true named) rfl
  case sinkHardReset =>
    exact fun _ _ _ named cond =>
      show execSinkHardReset _ _ = _ from unit_completes (decide_eq_true named) <| occurs cond <| rfl
  case sinkVbusRestored =>
    exact fun _ _ _ _ named rated cond =>
      show execSinkVbusRestored _ _ _ = _ from read_completes (decide_eq_true rated) (decide_eq_true named) <|
        occurs cond <| rfl
  case sinkRpChange =>
    exact fun _ _ _ _ named cond unbarred =>
      show execSinkRpChange _ _ _ = _ from unit_completes (decide_eq_true named) <| occurs cond <| if_neg unbarred

/-- Settles O54: each row acts on a bay in the state its condition names, each timer when it comes due. -/
theorem bayEvents : Obligations.BayEvents := by
  refine ⟨?bayIdRead, ?packInsert, ?packRemoval, ?bayLinkReply, ?bayReplyTimeout, ?authVerdict, ?authRetry,
    ?bayStatusPoll, ?trickleRetry, ?trickleExpire, ?bayStart, ?bayDoneRead, ?proofingPause, ?proofingPauseEnd,
    ?keyRevokeReauth⟩
  case bayIdRead =>
    exact fun _ _ _ _ named rated cond =>
      show execBayIdRead _ _ _ = _ from read_completes (decide_eq_true rated) (decide_eq_true named) <| occurs cond <|
        rfl
  case packInsert =>
    exact fun _ _ _ named _ due =>
      show execPackInsert _ _ = _ from unit_completes (decide_eq_true named) <| comes_due due <| rfl
  case packRemoval =>
    exact fun _ _ _ _ _ _ named rated cond unbarred =>
      show execPackRemoval _ _ _ _ _ = _ from read_completes (decide_eq_true rated) named <| occurs cond <|
        if_neg unbarred
  case bayLinkReply =>
    exact fun _ _ _ _ _ _ named cond =>
      show execBayLinkReply _ _ _ _ _ = _ from unit_completes (decide_eq_true named) <| occurs cond <| rfl
  case bayReplyTimeout =>
    exact fun _ _ _ named _ due =>
      show execBayReplyTimeout _ _ = _ from unit_completes (decide_eq_true named) <| comes_due due <| rfl
  case authVerdict =>
    exact fun _ _ _ named _ due =>
      show execAuthVerdict _ _ = _ from unit_completes (decide_eq_true named) <| comes_due due <| rfl
  case authRetry =>
    exact fun _ _ _ named _ due =>
      show execAuthRetry _ _ = _ from unit_completes (decide_eq_true named) <| comes_due due <| rfl
  case bayStatusPoll =>
    exact fun _ _ _ named _ due =>
      show execBayStatusPoll _ _ = _ from unit_completes (decide_eq_true named) <| comes_due due <| rfl
  case trickleRetry =>
    exact fun _ _ _ named _ due =>
      show execTrickleRetry _ _ = _ from unit_completes (decide_eq_true named) <| comes_due due <| rfl
  case trickleExpire =>
    exact fun _ _ _ named _ due =>
      show execTrickleExpire _ _ = _ from unit_completes (decide_eq_true named) <| comes_due due <| rfl
  case bayStart =>
    exact fun _ _ _ _ _ named rated cond =>
      show execBayStart _ _ _ _ = _ from read_completes rated (decide_eq_true named) <| occurs cond <| rfl
  case bayDoneRead =>
    exact fun _ _ _ _ named rated cond _ due =>
      show execBayDoneRead _ _ _ = _ from read_completes (decide_eq_true rated) (decide_eq_true named) <|
        occurs cond <| comes_due due <| rfl
  case proofingPause =>
    exact fun _ _ _ named cond =>
      show execProofingPause _ _ = _ from unit_completes (decide_eq_true named) <| occurs cond <| rfl
  case proofingPauseEnd =>
    exact fun _ _ _ named _ due =>
      show execProofingPauseEnd _ _ = _ from unit_completes (decide_eq_true named) <| comes_due due <| rfl
  case keyRevokeReauth =>
    exact fun _ _ _ named _ due =>
      show execKeyRevokeReauth _ _ = _ from unit_completes (decide_eq_true named) <| comes_due due <| rfl

/-- Settles O55: each row acts on a context whose condition holds; a fit needs its full run of points. -/
theorem estimatorEvents : Obligations.EstimatorEvents := by
  refine ⟨?socCount, ?noAnchor, ?ekfStep, ?filterReset, ?stale, ?restRequest, ?relaxFit, ?eisRun, ?eisFrequencyDone,
    ?eisAbort, ?eisDue⟩
  case socCount =>
    exact fun _ _ _ named cond =>
      show execSocCount _ _ = _ from unit_completes named <| occurs cond <| rfl
  case noAnchor =>
    exact fun _ _ _ named cond =>
      show execNoAnchor _ _ = _ from unit_completes (decide_eq_true named) <| occurs cond <| rfl
  case ekfStep =>
    exact fun _ _ _ named cond =>
      show execEkfStep _ _ = _ from unit_completes named <| occurs cond <| rfl
  case filterReset =>
    exact fun _ _ _ named cond =>
      show execFilterReset _ _ = _ from unit_completes (decide_eq_true named) <| occurs cond <| rfl
  case stale =>
    exact fun _ _ _ named cond =>
      show execStale _ _ = _ from unit_completes (decide_eq_true named) <| occurs cond <| rfl
  case restRequest =>
    exact fun _ _ =>
      show execRestRequest _ = _ from unit_completes rfl rfl
  case relaxFit =>
    exact fun _ _ _ named _ fit full =>
      show execRelaxFit _ _ = _ from unit_completes (decide_eq_true named) (by rewrite [fit]; exact occurs full rfl)
  case eisRun =>
    exact fun _ _ _ named =>
      show execEisRun _ _ = _ from unit_completes (decide_eq_true named) rfl
  case eisFrequencyDone =>
    exact fun _ _ _ _ _ _ named =>
      show execEisFrequencyDone _ _ _ _ _ = _ from unit_completes named rfl
  case eisAbort =>
    exact fun _ _ _ named cond =>
      show execEisAbort _ _ = _ from unit_completes (decide_eq_true named) <| occurs cond <| rfl
  case eisDue =>
    exact fun _ _ _ named cond =>
      show execEisDue _ _ = _ from unit_completes (decide_eq_true named) <| occurs cond <| rfl

/-- Settles O56: each row acts where its condition holds; a sensor changes lane by the lane it is in. -/
theorem thermalEvents : Obligations.ThermalEvents := by
  refine ⟨?thmSample, ?laneChange, ?hover, ?thmCapLift, ?pulseSkipEntry, ?pulseSkipExit, ?tsd, ?tsdRelease,
    ?tsdRestart⟩
  case thmSample =>
    exact fun _ _ _ _ named cond =>
      show execThmSample _ _ _ = _ from unit_completes (decide_eq_true named) <| occurs cond <| rfl
  case laneChange =>
    exact fun _ _ _ named =>
      ⟨fun near => have ⟨slow, edge⟩ := Bool.and_eq_true_iff.mp ((Bool.and_assoc ..).symm.trans near)
        show execLaneChange _ _ = _ from unit_completes (decide_eq_true named) <|
          (if_pos slow).trans <| occurs edge rfl,
       fun far => have ⟨fast, away⟩ := Bool.and_eq_true_iff.mp far
        show execLaneChange _ _ = _ from unit_completes (decide_eq_true named) <|
          (if_neg (by rw [fast]; exact Bool.false_ne_true)).trans <| occurs away rfl⟩
  case hover =>
    exact fun _ _ _ _ named cond =>
      show execHover _ _ _ = _ from unit_completes named <| occurs (decide_eq_true cond) <| rfl
  case thmCapLift =>
    exact fun _ _ _ named =>
      show execThmCapLift _ _ = _ from unit_completes (decide_eq_true named) rfl
  case pulseSkipEntry =>
    exact fun _ _ _ _ named cond =>
      show execPulseSkipEntry _ _ _ = _ from unit_completes (decide_eq_true named) <| occurs cond <| rfl
  case pulseSkipExit =>
    exact fun _ _ _ _ named cond =>
      show execPulseSkipExit _ _ _ = _ from unit_completes (decide_eq_true named) <| occurs cond <| rfl
  case tsd =>
    exact fun _ _ _ named cond =>
      show execTsd _ _ = _ from unit_completes (decide_eq_true named) <| occurs cond <| rfl
  case tsdRelease =>
    exact fun _ _ cond =>
      show execTsdRelease _ = _ from next_completes <| occurs cond <| rfl
  case tsdRestart =>
    exact fun _ _ _ due =>
      show execTsdRestart _ = _ from next_completes <| comes_due due <| rfl

/-- Settles O57: each row acts where its condition holds, the failover rows on the holder or the failing processor. -/
theorem guardEvents : Obligations.GuardEvents := by
  refine ⟨?hwOv, ?sysCrit, ?sysCritRecover, ?sysUv1, ?windowEnd, ?controlPlaneWrite, ?failover, ?haltAck,
    ?haltTimeout, ?handoverOwnerMove, ?syncSet, ?holdTimeExpire, ?holdParkStep⟩
  case hwOv =>
    exact fun _ _ _ _ _ named cond =>
      show execHwOv _ _ _ _ = _ from unit_completes (decide_eq_true named) <| occurs cond <| rfl
  case sysCrit =>
    exact fun _ _ _ rated =>
      show execSysCrit _ _ = _ from read_completes rated rfl rfl
  case sysCritRecover =>
    exact fun _ _ _ rated cond =>
      show execSysCritRecover _ _ = _ from read_completes rated rfl <| occurs cond <| rfl
  case sysUv1 =>
    exact fun _ _ _ rated cond =>
      show execSysUv1 _ _ = _ from read_completes rated rfl <| occurs (decide_eq_true cond) <| rfl
  case windowEnd =>
    exact fun _ _ _ named _ window =>
      show execWindowEnd _ _ = _ from unit_completes named (by rewrite [windowEnd, window]; rfl)
  case controlPlaneWrite =>
    exact fun _ _ _ _ named =>
      show execControlPlaneWrite _ _ _ = _ from unit_completes named rfl
  case failover =>
    exact fun _ _ _ _ held =>
      show execFailover _ _ = _ from next_completes (by rewrite [failover, held]; rfl)
  case haltAck =>
    exact fun _ _ _ failing =>
      show execHaltAck _ = _ from next_completes (by rewrite [failing]; rfl)
  case haltTimeout =>
    exact fun _ _ _ failing _ due =>
      show execHaltTimeout _ = _ from next_completes (by rewrite [failing]; exact comes_due due rfl)
  case handoverOwnerMove =>
    exact fun _ _ =>
      show execHandoverOwnerMove _ = _ from next_completes rfl
  case syncSet =>
    exact fun _ _ _ named unbarred =>
      show execSyncSet _ _ = _ from unit_completes (decide_eq_true named) (if_neg unbarred)
  case holdTimeExpire =>
    exact fun _ _ _ due cond =>
      show execHoldTimeExpire _ = _ from next_completes <| comes_due due <| occurs cond <| rfl
  case holdParkStep =>
    exact fun _ _ _ due =>
      show execHoldParkStep _ = _ from next_completes <| comes_due due <| rfl

/-- Settles O58: each row acts where its condition holds; QUIET asks it of all 48 ports. -/
theorem watchdogAndPowerStateEvents : Obligations.WatchdogAndPowerStateEvents := by
  refine ⟨?wdhExpiry, ?hostrstPulseEnd, ?wdsCheckin, ?wdsPeriodEnd, ?wdsEnable, ?wdTotalRaise, ?quietAuto,
    ?quietExit, ?standbyWake, ?wakeTimer, ?standbyCountSample⟩
  case wdhExpiry =>
    exact fun _ _ unbarred =>
      show execWdhExpiry _ = _ from next_completes (if_neg unbarred)
  case hostrstPulseEnd =>
    exact fun _ _ _ due =>
      show execHostrstPulseEnd _ = _ from next_completes <| comes_due due <| rfl
  case wdsCheckin =>
    exact fun _ _ _ _ _ named =>
      show execWdsCheckin _ _ _ _ = _ from unit_completes named rfl
  case wdsPeriodEnd =>
    exact fun _ _ _ due =>
      show execWdsPeriodEnd _ = _ from next_completes <| comes_due due <| rfl
  case wdsEnable =>
    exact fun _ _ cond =>
      show execWdsEnable _ = _ from next_completes <| occurs cond <| rfl
  case wdTotalRaise =>
    exact fun _ _ behind unasked =>
      show execWdTotalRaise _ = _ from next_completes <|
        occurs (Bool.and_eq_true_iff.mpr ⟨decide_eq_true behind, congrArg not unasked⟩) rfl
  case quietAuto =>
    exact fun _ _ running timed applied holds detached still =>
      show execQuietAuto _ = _ from next_completes <| occurs (by
        simp only [running, timed, applied, holds, detached, ne_eq, not_false_eq_true, decide_true, Bool.not_false,
          Bool.true_and]
        exact List.all_eq_true.mpr fun p hp => still p (List.mem_range.mp hp)) rfl
  case quietExit =>
    exact fun _ _ cond =>
      show execQuietExit _ = _ from next_completes <| occurs (decide_eq_true cond) <| rfl
  case standbyWake =>
    exact fun _ _ _ named cond =>
      show execStandbyWake _ _ = _ from unit_completes (decide_eq_true named) <| occurs cond <| rfl
  case wakeTimer =>
    exact fun _ _ cond _ due =>
      show execWakeTimer _ = _ from next_completes <| occurs (decide_eq_true cond) <| comes_due due <| rfl
  case standbyCountSample =>
    exact fun _ _ _ cond =>
      show execStandbyCountSample _ _ = _ from next_completes <| occurs (decide_eq_true cond) <| rfl

/-- Settles O59: each step acts in the state of the update that its condition names. -/
theorem updateEvents : Obligations.UpdateEvents := by
  refine ⟨?updVerifyDone, ?updSyncTimeout, ?updProbationEnd, ?updPointerWrite, ?pdUpdCoreStep, ?pdUpdProbationEnd,
    ?estUcodeSwap, ?estUcodeProbationEnd, ?limitsPrepare, ?limitsCommit, ?tmonMaskExpire⟩
  case updVerifyDone =>
    exact fun _ _ unbarred =>
      show execUpdVerifyDone _ = _ from next_completes (if_neg unbarred)
  case updSyncTimeout =>
    exact fun _ _ cond _ due =>
      show execUpdSyncTimeout _ = _ from next_completes <| occurs cond <| comes_due due <| rfl
  case updProbationEnd =>
    exact fun _ _ cond _ due =>
      show execUpdProbationEnd _ = _ from next_completes <| occurs cond <| comes_due due <| rfl
  case updPointerWrite =>
    exact fun _ _ cond =>
      show execUpdPointerWrite _ = _ from next_completes <| occurs cond <| rfl
  case pdUpdCoreStep =>
    exact fun _ _ unbarred =>
      show execPdUpdCoreStep _ = _ from next_completes (if_neg unbarred)
  case pdUpdProbationEnd =>
    exact fun _ _ cond _ due =>
      show execPdUpdProbationEnd _ = _ from next_completes <| occurs cond <| comes_due due <| rfl
  case estUcodeSwap =>
    exact fun _ _ cond =>
      show execEstUcodeSwap _ = _ from next_completes <| occurs cond <| rfl
  case estUcodeProbationEnd =>
    exact fun _ _ cond =>
      show execEstUcodeProbationEnd _ = _ from next_completes <| occurs cond <| rfl
  case limitsPrepare =>
    exact fun _ _ unbarred =>
      show execLimitsPrepare _ = _ from next_completes (if_neg unbarred)
  case limitsCommit =>
    exact fun _ _ cond _ shadow =>
      show execLimitsCommit _ = _ from next_completes <| occurs cond (by rewrite [limitsSwap, shadow]; rfl)
  case tmonMaskExpire =>
    exact fun _ _ _ named _ due =>
      show execTmonMaskExpire _ _ = _ from unit_completes (decide_eq_true named) <| comes_due due <| rfl

/-- Settles O60: each row acts on the link, nonce or perturbation that is there. -/
theorem serviceLinkEvents : Obligations.ServiceLinkEvents := by
  refine ⟨?stavskaLinkStart, ?stavskaSwapRetry, ?stavskaNoPd, ?usbSetConfiguration, ?enumTimeout, ?stavskaFrame,
    ?stavskaFrameTimeout, ?stavskaIdle, ?stavskaLinkEnd, ?nonceExpire, ?authLockoutEnd, ?ptbUnlockExpire,
    ?ptbTtlExpire, ?jtagInstruction, ?tapReset⟩
  case stavskaLinkStart =>
    exact fun _ _ _ named cond =>
      show execStavskaLinkStart _ _ = _ from unit_completes (decide_eq_true named) <| occurs cond <| rfl
  case stavskaSwapRetry =>
    exact fun _ _ _ named cond _ due =>
      show execStavskaSwapRetry _ _ = _ from unit_completes (decide_eq_true named) <| occurs (decide_eq_true cond) <|
        comes_due due <| rfl
  case stavskaNoPd =>
    exact fun _ _ _ named cond _ due =>
      show execStavskaNoPd _ _ = _ from unit_completes (decide_eq_true named) <| occurs (decide_eq_true cond) <|
        comes_due due <| rfl
  case usbSetConfiguration =>
    exact fun _ _ cond =>
      show execUsbSetConfiguration _ = _ from next_completes <| occurs (decide_eq_true cond) <| rfl
  case enumTimeout =>
    exact fun _ _ cond _ due =>
      show execEnumTimeout _ = _ from next_completes <| occurs (decide_eq_true cond) <| comes_due due <| rfl
  case stavskaFrame =>
    exact fun _ _ _ named cond =>
      show execStavskaFrame _ _ = _ from unit_completes named <| occurs (decide_eq_true cond) <| rfl
  case stavskaFrameTimeout =>
    exact fun _ _ _ due =>
      show execStavskaFrameTimeout _ = _ from next_completes <| comes_due due <| rfl
  case stavskaIdle =>
    exact fun _ _ cond _ due =>
      show execStavskaIdle _ = _ from next_completes <| occurs (decide_eq_true cond) <| comes_due due <| rfl
  case stavskaLinkEnd =>
    exact fun _ _ _ named =>
      show execStavskaLinkEnd _ _ = _ from unit_completes named rfl
  case nonceExpire =>
    exact fun _ _ _ due =>
      show execNonceExpire _ = _ from next_completes <| comes_due due <| rfl
  case authLockoutEnd =>
    exact fun _ _ _ due =>
      show execAuthLockoutEnd _ = _ from next_completes <| comes_due due <| rfl
  case ptbUnlockExpire =>
    exact fun _ _ _ due =>
      show execPtbUnlockExpire _ = _ from next_completes <| comes_due due <| rfl
  case ptbTtlExpire =>
    exact fun _ _ _ named _ active =>
      show execPtbTtlExpire _ _ = _ from unit_completes (decide_eq_true named) (by rewrite [active]; rfl)
  case jtagInstruction =>
    exact fun _ _ _ named cond =>
      show execJtagInstruction _ _ = _ from unit_completes (decide_eq_true named) <| occurs cond <| rfl
  case tapReset =>
    exact fun _ _ =>
      show execTapReset _ = _ from next_completes rfl

end Machine
end Sys2Proof
end
